-- ==== Sys2Proof/Word.lean ====
section
/-!
DEFINITION. The words the manual names and the two container shapes every unit of the model uses.
-/

namespace Sys2Proof

abbrev W8 := BitVec 8
abbrev W16 := BitVec 16
abbrev W32 := BitVec 32
abbrev W64 := BitVec 64

/-- A binary32 number, held as its bits (R266 and the parameter tables). -/
abbrev F32 := BitVec 32

/-- A binary64 number, held as its bits (ramp values). -/
abbrev F64 := BitVec 64

/-- A sparse table by index: indexes strictly rising, no entry equal to the default of the table. -/
abbrev Tab (α : Type) := List (Nat × α)

end Sys2Proof
end

