-- ==== Sys2Proof/Machine/Units/Reset.lean ====
section
/-!
DEFINITION. State of reset, boot, start-up, debug and boundary scan (chapter 20).
-/

namespace Sys2Proof.Machine

/-- Boundary-scan instructions (R748). -/
inductive JtagInstr where
  | bypass | idcode | samplePreload | extest | clamp | highz | other
deriving DecidableEq, Repr

/-- How the ROM finds a firmware image (R737). -/
inductive ImageCheck where
  | good | auth | rollback
deriving DecidableEq, Repr

/-- What the ROM finds in the boot flash: directory copies, both images with their FW_VERSION, silicon history. -/
structure BootFlash where
  dirPrimary : Bool
  dirMirror : Bool
  imageA : ImageCheck
  imageB : ImageCheck
  fwA : Nat
  fwB : Nat
  siPrimary : Bool
deriving DecidableEq, Repr

/-- Where the unit stands between reset and the end of start-up. -/
inductive BootPhase where
  | waiting | starting | up | failed
deriving DecidableEq, Repr

structure RstSt where
  porstLow : Bool := false
  rstLow : Bool := false
  phase : BootPhase := .waiting
  /-- instant of the last release and of the start of the firmware -/
  relAt : Nat := 0
  fwAt : Nat := 0
  /-- image started last, images marked failed in RAM, boot retry in progress (R739) -/
  image : Nat := 0
  failed : Nat := 0
  retried : Bool := false
  resetOut : Bool := false
  cause : Nat := 1
  warmResets : Nat := 0
  bootStatus : Nat := 0
  strapBad : Bool := false
  debugOpen : Bool := false
  mirrorUsed : Bool := false
  pgFailed : Nat := 0
  bootTime : Nat := 0
  /-- debug challenge published, 16 bytes -/
  challenge : Option (BitVec 128) := none
  /-- boot directory: preferred image and security versions; the fused anti-rollback counter (R736, R746) -/
  prefer : Nat := 0
  versions : Tab Nat := []
  fuse : Nat := 0
  /-- boundary-scan instruction in force -/
  jtag : JtagInstr := .bypass
deriving DecidableEq, Repr

end Sys2Proof.Machine
end

