-- ==== Sys2Proof/Machine/Units/Time.lean ====
section
/-!
DEFINITION. State of station time and of the PTP instance (chapter 18).
-/

namespace Sys2Proof.Machine

/-- The portState values of IEEE 1588 (Table 18-2). -/
inductive PtpState where
  | initializing | faulty | disabled | listening | preMaster | master | passive | uncalibrated | slave
deriving DecidableEq, Repr

/-- What a received message carries: port, source identity and port, sequence number, domain, two-step flag, its timestamp
in ns and its correction in 2^-16 ns. -/
structure PtpMsg where
  port : Nat
  src : Nat
  srcPort : Nat
  seq : Nat
  domain : Nat
  twoStep : Bool
  stamp : Int
  corr : Int
deriving DecidableEq, Repr

/-- The data set of an Announce message (R683, R681). -/
structure PtpAnn where
  port : Nat
  src : Nat
  srcPort : Nat
  domain : Nat
  gm : Nat
  prio1 : Nat
  cls : Nat
  acc : Nat
  var : Nat
  prio2 : Nat
  steps : Nat
  utc : Int
  utcValid : Bool
deriving DecidableEq, Repr

/-- A foreign master on a port: its last Announce, that message's instant, the start of the present run of messages and
their number. -/
structure PtpForeign where
  ann : PtpAnn
  last : Nat
  runFrom : Nat
  count : Nat
deriving DecidableEq, Repr

/-- A message sent: port, sequence number, the clock and port it answers, the time it carries in ns, its VLAN number and
priority with the profile POWER_P2P, and the data set that an Announce carries (Table 18-1). -/
structure PtpTx where
  port : Nat := 0
  seq : Nat := 0
  dest : Nat × Nat := (0, 0)
  stamp : Int := 0
  tag : Option (Nat × Nat) := none
  dataSet : List Nat := []
deriving DecidableEq, Repr

/-- The messages of the instance (Table 18-1). -/
inductive PtpKind where
  | sync | followUp | delayReq | delayResp | pdelayReq | pdelayResp | pdelayRespFollowUp | announce
deriving DecidableEq, Repr

structure TimeSt where
  /-- B of R674 in units of 2^-32 ns, F_B and RATE -/
  base : Int := 0
  fB : Int := 0
  rate : Int := 0
  /-- a rate change and its instant F_c (R675) -/
  rateNew : Option (Int × Nat) := none
  /-- the rate before the last rate change, and the instant of that change (R680) -/
  rateWas : Option (Int × Nat) := none
  stepSeq : Nat := 0
  timeValid : Bool := false
  ptpLocked : Bool := false
  holdover : Bool := false
  setRef : Bool := false
  /-- HOLD_AGE of the last holdover, and the instant of the entry to the present one -/
  holdAge : Nat := 0
  holdFrom : Nat := 0
  /-- values latched by a read of FRC_LO (R678) -/
  latchFrc : Nat := 0
  latchSt : Nat := 0
  /-- last offset and mean path in units of 2^-16 ns -/
  offset : Int := 0
  meanPath : Int := 0
  pathKnown : Bool := false
  state : PtpState := .disabled
  activePort : Nat := 0
  utcValid : Bool := false
  utcOffset : Int := 0
  gmId : Nat := 0
  setLo : W32 := 0#32
  setHi : W32 := 0#32
  syncRx : Nat := 0
  annRx : Nat := 0
  masterChg : Nat := 0
  portSwitch : Nat := 0
  /-- station time at the last t0 -/
  t0St : Nat := 0
  /-- servo: f_i in units of 2^-40, consecutive measurements within lock_thr, locked since the last step (R684, R685) -/
  fI : F64 := 0#64
  lockRun : Nat := 0
  everLocked : Bool := false
  /-- measurements from the new master in holdover (R687) -/
  qual : Nat := 0
  /-- Ethernet ports without link; foreign masters by port -/
  linkDown : Nat := 0
  foreign : Tab (List PtpForeign) := []
  /-- source identity and port of the selected master -/
  master : Option (Nat × Nat) := none
  /-- the primary port has lost its master and the backup port has none (R683) -/
  primaryLost : Bool := false
  /-- an announce timeout passed during an MP restart: port and instant (R688) -/
  timeout : Option (Nat × Nat) := none
  /-- a two-step Sync that waits for its Follow_Up: sequence, receive instant, correction -/
  sync : Option (Nat × Nat × Int) := none
  /-- the last Sync: origin time with its corrections in 2^-16 ns, receive instant, and that it waits for a path delay -/
  lastSync : Option (Int × Nat × Bool) := none
  /-- a Delay_Req or Pdelay_Req sent: sequence and transmit instant -/
  delayReq : Option (Nat × Nat) := none
  pdelayReq : Option (Nat × Nat) := none
  /-- a two-step Pdelay_Resp: sequence, t2 with its correction in 2^-16 ns, receive instant -/
  pdelay : Option (Nat × Int × Nat) := none
  /-- next sequence numbers and last message sent, by kind: Sync, Delay_Req, Pdelay_Req, Announce and the answers -/
  txSeq : Tab Nat := []
  /-- instant of the last message of each periodic kind -/
  txAt : Tab Nat := []
  sent : Tab PtpTx := []
deriving DecidableEq, Repr

end Sys2Proof.Machine
end

