-- ==== Sys2Proof/Machine/Units/Conv.lean ====
section
/-!
DEFINITION. State of the converter model: cells, ports, arms, trips, the sequence and the Tentering records
(chapters 1 to 6, 13 and 14). Instants are FRC values in units of 250 ps.
-/

namespace Sys2Proof.Machine

/-- The states of a cell (R27, Table 1-5); `none` where no cell is configured. -/
inductive CState where
  | none | available | reserve | bypassed | faulted
deriving DecidableEq, Repr

/-- The logical states of a cell (R215, Table 6-1). -/
inductive LState where
  | off | byp | insP | insN
deriving DecidableEq, Repr

/-- One gate edge of a window: its offset from S in 250 ps units, its gate position and level (R146, R216). -/
structure Edge where
  off : Nat
  gate : Nat
  level : Bool
deriving DecidableEq, Repr

/-- One logical change of a window with the edges it produces (R216); a collapsed pulse keeps its state. -/
structure Change where
  t : Nat
  frm : LState
  dest : LState
  edges : List Edge
deriving DecidableEq, Repr

/-- The window a cell was last sent (R222). -/
structure WinPlan where
  s : Nat
  rel : Bool
  start : LState
  changes : List Change
deriving DecidableEq, Repr

/-- Discovery and delay calibration of one cell from one side (R94, R98, R104). -/
structure SideCal where
  /-- register 0x00 as read (step 1 of R94) -/
  ident : Option W32 := none
  /-- the link-constant register of the side as read (step 1 of R94) -/
  consts : Option W32 := none
  /-- twice the delay samples in ps, latest last, at most 64 (R98) -/
  samples : List Int := []
  /-- ECHOs of step 2 of R94 that have returned -/
  echoes : Nat := 0
  /-- delay offset in force at the cell, 250 ps units (R99) -/
  dly : Option Nat := none
  /-- an offset write is outstanding (R104) -/
  dlyWait : Option Nat := none
  /-- a time mark has been applied with the offset in force -/
  marked : Bool := false
  /-- cycles since the last correction -/
  gap : Nat := 0
  /-- instant of the last correction or confirmation of the offset (R109) -/
  confirmed : Nat := 0
  /-- R94 complete from this side -/
  done : Bool := false
  /-- marked for FAULTED by R95 -/
  bad : Bool := false
deriving DecidableEq, Repr

/-- An 8-cycle block of the estimator (R476). -/
structure TentBlk where
  /-- charge in coulombs, binary64 -/
  q : F64 := 0#64
  /-- ticks commanded inserted, in 250 ps units -/
  ins : Nat := 0
  /-- cycles summed so far -/
  cyc : Nat := 0
  ok : Bool := false
  /-- sum of squared current samples and their number -/
  iSq : F64 := 0#64
  cnt : Nat := 0
  v0 : Option Nat := none
  chg0 : Option Nat := none
  ceil0 : Nat := 0
deriving DecidableEq, Repr

/-- The Tentering record of a cell (Table 13-1) and its estimator (R476, R477, R481). -/
structure TentCell where
  cEst : Nat := 0
  w : Nat := 0
  ceil : Nat := 0
  vonRefU : Nat := 0
  vonRefL : Nat := 0
  cValid : Bool := false
  baseU : Bool := false
  baseL : Bool := false
  retireDue : Bool := false
  retired : Bool := false
  tjUnk : Bool := false
  retUnconf : Bool := false
  /-- TH_ACC in equivalent seconds, binary64; the record shows whole seconds -/
  thAcc : F64 := 0#64
  tj : Int := 0
  tjBase : Int := 0
  /-- qualifying time in 250 ps units; the record shows C_QUAL in ms -/
  cQual : Nat := 0
  /-- the five sums, binary64 (R477) -/
  n : F64 := 0#64
  sq : F64 := 0#64
  sv : F64 := 0#64
  sqq : F64 := 0#64
  sqv : F64 := 0#64
  /-- qualifying time held by the present sums, 250 ps units (R493) -/
  sumQual : Nat := 0
  /-- C_EST waits for new sums to hold c_qual_time after a takeover (R493) -/
  afterTakeover : Bool := false
  blk : TentBlk := {}
  /-- a closed block that waits for the low half of its charge integral: end VCAP and high half -/
  closing : Option (TentBlk × Nat × Nat) := none
  /-- usable on-state samples, latest last, at most 64 -/
  vonU : List Nat := []
  vonL : List Nat := []
deriving DecidableEq, Repr

/-- Values of a cell record that wait for the next cycle start (R474, R492). -/
structure TentNext where
  cell : Nat
  val : TentCell
  /-- a restore or reset: the estimator sums are cleared (R492) -/
  fresh : Bool := false
deriving DecidableEq, Repr

/-- The carrier of one cell (R238 to R242): where its period in progress ends, the interval of that period in which the
level is not 0 (empty where both ends are equal), that of the period before, the duty latched at the last boundary, and
the instant up to which the intervals have been counted. -/
structure CarrierSt where
  fin : Nat := 0
  lo : Nat := 0
  hi : Nat := 0
  before : Option (Nat × Nat × Bool) := none
  duty : F32 := 0#32
  counted : Nat := 0
deriving DecidableEq, Repr

/-- One cell (R27 to R38, R149 to R172, R220 to R223, R490). -/
structure CellSt where
  st : CState := .none
  /-- cause of the last entry to FAULTED or BYPASSED, Table 10-4 code of chapter 10's cell status (R29) -/
  cause : Nat := 0
  /-- bypass request outstanding since this instant (R30, R182) -/
  bypReq : Option Nat := none
  /-- the bypass request is that of a retirement (R488) -/
  bypRet : Bool := false
  /-- retired and waiting for the first window with REL = 1 (R488) -/
  retWait : Bool := false
  calA : SideCal := {}
  calB : SideCal := {}
  /-- last accepted report: flag bits [14:0] of Table 4-8 -/
  flags : Nat := 0
  /-- VCAP of the last accepted report (R186, R505) -/
  vcap : Option Nat := none
  /-- an accepted slot since R94 last completed (R186) -/
  ranked : Bool := false
  /-- VCAP and staleness as the last completed ranking took them (R339) -/
  rankV : Nat := 0
  rankStale : Bool := false
  rankSt : CState := .none
  /-- a slot of the cell was accepted in this cycle -/
  seen : Bool := false
  /-- a slot of the cell, accepted or not, arrived in this cycle -/
  present : Bool := false
  /-- R94 has completed since discovery began (R520) -/
  everDone : Bool := false
  /-- the cell was expected in this cycle and its slot failed or is missing (R61) -/
  missed : Bool := false
  /-- consecutive cycles of R61 -/
  crcRun : Nat := 0
  /-- report errors of the cell, in whatever state it is (R29) -/
  repErr : Nat := 0
  /-- consecutive cycles without a slot of the cell in a report frame (R114, R118, R531) -/
  absent : Nat := 0
  /-- consecutive reports of BLOCKED counted by R150 -/
  blkRun : Nat := 0
  /-- S of the first window with REL = 1 sent to the cell since its arm deblocked (R150) -/
  relS : Option Nat := none
  /-- auxiliary words 0 to 7, none until a report carried one (R151) -/
  aux : Tab W16 := []
  /-- FAULT_ACK is to be sent in the next window (R180) -/
  faultAck : Bool := false
  /-- last window sent -/
  plan : Option WinPlan := none
  /-- logical transitions since the last t0: instant, state, end of its dead time, state before (R475) -/
  hist : List (Nat × LState × Nat × LState) := []
  /-- held state at the new S while no window is planned -/
  held : LState := .off
  /-- instants of the last planned on-edge and off-edge per gate (R220) -/
  lastOn : Tab Nat := []
  lastOff : Tab Nat := []
  /-- PSC: the cell's carrier while it is in the carrier set (R238 to R241) -/
  carrier : Option CarrierSt := none
  tent : TentCell := {}
deriving DecidableEq, Repr

/-- A service request on a port (R169 to R172). -/
structure SvcReq where
  cell : Nat
  sideB : Bool
  wr : Bool
  addr : Nat
  data : W32
  tag : Nat
  /-- launched in a frame and waiting for its reply -/
  sent : Bool
  /-- end of the frame that carried it on the port -/
  endT : Nat
  /-- times reissued under R172 -/
  tries : Nat
  /-- the request has its tag -/
  tagged : Bool := false
  /-- mailbox that waits for the reply, 8 for the controller's own -/
  mbx : Nat
deriving DecidableEq, Repr

/-- A command frame built and waiting for its launch instant (R68, R69). -/
structure Frame where
  launch : Nat
  s : Nat
  rel : Bool
  /-- arm of the insertion; 12 for a frame that belongs to none (DISCOVER, MONITOR) -/
  arm : Nat
  /-- end of the frame on the port -/
  endT : Nat
  bytes : List W8
  /-- frame of a keep-alive insertion (R73) -/
  keepAlive : Bool
  /-- edge instants of the frame for the blanking schedule (R244) -/
  edges : List Nat
deriving DecidableEq, Repr

/-- The states of a port (R90, Table 3-3). -/
inductive PState where
  | dark | seek | discover | serve | monitor | fail
deriving DecidableEq, Repr

/-- One cell-link port (R126, Table 3-6, and the state chapter 3 implies). -/
structure PortSt where
  st : PState := .dark
  lock : Bool := false
  alignOk : Bool := false
  brk : Bool := false
  reversed : Bool := false
  txdis : Bool := true
  cellsFound : Nat := 0
  failCause : Nat := 0
  dFar : Nat := 0
  dFarAlt : Nat := 0
  alignErrMax : Nat := 0
  echoPos : Nat := 0
  codeErr : Nat := 0
  slotCrcErr : Nat := 0
  frameCrcErr : Nat := 0
  lockLoss : Nat := 0
  reversals : Nat := 0
  dlyCorr : Nat := 0
  /-- forced dark by the host (R124) -/
  forced : Bool := false
  /-- code violations of the last microsecond: instant and number (R110) -/
  viol : List (Nat × Nat) := []
  /-- ECHOs of this cycle, and the hop position that the rotation comes to next (R96, R103) -/
  echoCnt : Nat := 0
  echoNext : Nat := 0
  /-- instant BREAK was set; the ring started split at the end of discovery (R114, R518) -/
  brkAt : Nat := 0
  split : Bool := false
  /-- code groups of the last ordered set sent, K code groups marked (R133) -/
  setTx : List (Bool × W8) := []
  /-- cells of the segment in hop order (R86, R114); its length is SEG_CELLS -/
  seg : List Nat := []
  /-- instant TXDIS was released (R91) -/
  seekAt : Nat := 0
  /-- TRAIN is transmitted: the 2 ms of R91 have passed -/
  training : Bool := false
  /-- instant upstream lock was lost (R111, R117) -/
  lostAt : Option Nat := none
  /-- upstream lock was lost, or the port map entry changed, since entry to FAIL (R119) -/
  failLost : Bool := false
  /-- instant of entry to DISCOVER (R782) -/
  discAt : Nat := 0
  /-- instant of the last time mark (R101) and its LT, PH and NC (Table 4-1) -/
  markAt : Nat := 0
  markLT : Nat := 0
  markPH : Nat := 0
  markNC : Nat := 0
  /-- a time mark is due at the first gap (R94, R112) -/
  markDue : Bool := false
  /-- end of the last launched frame on the port (R68) -/
  freeAt : Nat := 0
  /-- frames built and not launched, first to launch first -/
  frames : List Frame := []
  /-- bytes of the last frame launched -/
  lastTx : List W8 := []
  /-- BLOCK sets launched, four at a time (R138), since reset, modulo 2^32 -/
  blockSets : Nat := 0
  /-- consecutive cycles in which the reports ended short, and the hop they ended at (R118) -/
  endShort : Nat := 0
  endHop : Nat := 0
  /-- a report frame has arrived in this cycle -/
  reported : Bool := false
  svc : List SvcReq := []
  nextTag : Nat := 0
  /-- the relaying partner serves the far segment of this twin-ring (R613) -/
  relayed : Bool := false
deriving DecidableEq, Repr

/-- Phase-shifted carrier state of an arm (R235 to R243). -/
structure PscSt where
  period : F32 := 0#32
  duty : F32 := 0#32
  heldPeriod : Option F32 := none
  heldDuty : Option F32 := none
  periodAt : Nat := 0
  dutyAt : Nat := 0
  orphanP : Bool := false
  orphanD : Bool := false
  /-- S from which each held half transfers: that of the window whose write completed the pair, or of a COMMIT (R236) -/
  dueP : Option Nat := none
  dueD : Option Nat := none
  /-- next arm carrier boundary (R238) -/
  next : Option Nat := none
  /-- carrier set in ascending cell index (R238) -/
  set : List Nat := []
deriving DecidableEq, Repr

/-- One arm (Tables 2-3, 5-3, 6-7a, 13-4, 14-9). -/
structure ArmSt where
  latLast : Nat := 0
  latMax : Nat := 0
  winCycle : Nat := 0
  ovrConsec : Nat := 0
  lateCells : Nat := 0
  cycleTooShort : Bool := false
  ovrBlock : Bool := false
  /-- LATE reports counted in the cycle in progress (R72) -/
  lateNow : Nat := 0
  /-- SWITCHING, LAT_LAST and LATE_CELLS at the last ranking (R339) -/
  rankSw : Bool := false
  rankLat : Nat := 0
  rankLate : Nat := 0
  sPrev : Nat := 0
  lastCmd : Nat := 0
  repDone : Bool := false
  rankDone : Bool := false
  repDoneAt : Nat := 0
  /-- a ranking whose REP_DONE lies before the last t0 has not completed (R62, R184) -/
  rankOwed : Bool := false
  /-- report deadlines that lie beyond the t0 after theirs, earliest first: instant and the expected cells without a
  slot so far (R61) -/
  lateDl : List (Nat × List Nat) := []
  /-- preference orders with their sort keys (R195) -/
  posOrd : List (Nat × Nat) := []
  negOrd : List (Nat × Nat) := []
  rankCyc : Nat := 0
  /-- RANK_CYC: ranking used by the last selection -/
  selCyc : Nat := 0
  nAvail : Nat := 0
  nAvailFB : Nat := 0
  nReserve : Nat := 0
  stale : Nat := 0
  vSum : F32 := 0#32
  vMean : F32 := 0#32
  vMin : F32 := 0#32
  vMax : F32 := 0#32
  vSqSum : F32 := 0#32
  vMeanRsv : F32 := 0#32
  /-- register forms in 62.5 mV units -/
  vMeanU : Nat := 0
  vMinU : Nat := 0
  vMaxU : Nat := 0
  /-- DIR: true = DISCHARGING -/
  dir : Bool := false
  inDb : Bool := false
  guard : Bool := false
  iPrev : Option F32 := none
  /-- the arm has been ranked since it last started anew at a commit (R192) -/
  rankedOnce : Bool := false
  /-- kept set and its polarity: true = negative (R197) -/
  kept : List Nat := []
  keptNeg : Bool := false
  residue : F32 := 0#32
  dtCollapse : Nat := 0
  pulseAdj : Nat := 0
  clampCnt : Nat := 0
  refBad : Nat := 0
  resSat : Bool := false
  psc : PscSt := {}
  retired : Nat := 0
  due : Nat := 0
  retireHeld : Bool := false
  retUnconf : Bool := false
  cMinPct : Nat := 0
  /-- sum of i squared since the last Tentering update and cycles summed (R480) -/
  iSq : F64 := 0#64
  iCyc : Nat := 0
  sw : Bool := false
  blockCause : Nat := 0
  deblockRefuse : Nat := 0
  /-- a deblock accepted for the next t0; true when it came from DEBLOCK (R527, R528) -/
  deblockWait : Option Bool := none
  /-- the deblock that last took effect: instant, of a DEBLOCK, block cause before it (R528) -/
  deblocked : Option (Nat × Bool × Nat) := none
  /-- window start and first edge instant of the last fractional pulse (Table 11-3) -/
  fracEdge : Option (Nat × Nat) := none
  /-- no insertion has been written since the arm deblocked (R197) -/
  firstIns : Bool := true
  /-- fractional cells of the two latest windows (Table 16-5) -/
  fracs : List (Option Nat) := []
  /-- instant of the last block of the arm, and of the last one by a trip (R252) -/
  blockedAt : Option Nat := none
  tripAt : Option Nat := none
  /-- cycle index of that block (Table 16-5) -/
  blockedCyc : Nat := 0
  /-- host-ordered rejoins waiting for the arm's next window start (R116) -/
  rejoin : List Nat := []
deriving DecidableEq, Repr

/-- A cell state change that waits for the next cycle start (R35). -/
inductive CellChange where
  | faulted (cell cause : Nat)
  | bypassed (cell : Nat)
  | host (cell : Nat) (dest : CState) (mbx : Nat)
  | retire (cell : Nat)
  | promote (cell : Nat)
deriving DecidableEq, Repr

/-- One mapping input of the trip matrix (R244 to R251). -/
structure TripSt where
  raw : Nat := 0
  blanked : Nat := 0
  latch : Nat := 0
  l2 : Nat := 0
  /-- the input has acted for its present assertion (R246) -/
  acted : Nat := 0
  /-- level of each pin TRIP0 to TRIP15, and the instant at which the last command left it there (R249) -/
  pins : Nat := 0
  pinAt : Tab Nat := []
  /-- scheduled edge instants per arm, not yet ended (R244), and the S of the newest window launched (R245) -/
  sched : Tab (List Nat) := []
  schedS : Tab Nat := []
  /-- instant at which each blanked input's blanking ends -/
  blankEnd : Tab Nat := []
  /-- outputs de-energised by the trip matrix (R512) -/
  opened : Nat := 0
deriving DecidableEq, Repr

/-- The converter states (R503, Table 14-1). -/
inductive ConvState where
  | await | ready | energize | charged | run | blocked | discharge | fault
deriving DecidableEq, Repr

/-- One station contact (R507, R508). -/
structure ContactSt where
  /-- instant of the last raw change -/
  rawAt : Nat := 0
  /-- the raw level has changed and not yet held for the debounce time -/
  moving : Bool := false
  /-- instant of the raw change that began the unsettled count -/
  unsettledFrom : Option Nat := none
  /-- instants of the debounced changes within the last second -/
  changes : List Nat := []
  /-- fault cause with which it last became UNRELIABLE: 1 chatter, 2 unsettled (R508) -/
  unrel : Nat := 0
deriving DecidableEq, Repr

/-- The converter sequence (Tables 14-8 and 14-3). -/
structure SeqSt where
  state : ConvState := .await
  step : Nat := 0
  faultCause : Nat := 0
  faultItem : Nat := 0
  /-- instant of the latched cause (R530) -/
  faultAt : Nat := 0
  faultLast : Nat := 0
  cmdResult : Nat := 0
  refuseArm : Nat := 0xFF
  /-- instant the present step, or DISCHARGE, began -/
  stepAt : Nat := 0
  scState : Nat := 0
  scUnrel : Nat := 0
  scRaw : Nat := 0
  cmdLevel : Nat := 0
  cmdHost : Nat := 0
  contacts : Tab ContactSt := []
  mainConfirmed : Option Nat := none
  bypassConfirmed : Option Nat := none
  discoveryEnded : Bool := false
  /-- BYPASS waits for main_aux to open or breaker_time, since this instant (R514) -/
  opening : Option Nat := none
  /-- instant each role output was de-energised: MAIN, BYPASS (R515) -/
  mainOffAt : Option Nat := none
  bypassOffAt : Option Nat := none
  /-- BREAKER_STUCK already raised for the present de-energised span: bit 0 MAIN, bit 1 BYPASS -/
  stuck : Nat := 0
  /-- INSUFFICIENT_CELLS is to be checked at the next cycle start (R519) -/
  checkCells : Bool := false
  /-- instant of the last entry to RUN and the state before it (R528) -/
  runFrom : Option (Nat × ConvState) := none
  /-- the trip matrix de-energised MAIN and main_aux has not opened since (R512) -/
  tripMain : Bool := false
deriving DecidableEq, Repr

/-- The silicon plan of Tentering (Tables 13-3, R495 to R498). -/
structure SiSt where
  /-- VDD_CORE setpoint of the plan, uV; 0 until the plan is first applied -/
  vddSet : Nat := 0
  bias : Nat := 0
  resLow : Bool := false
  slackLow : Bool := false
  projValid : Bool := false
  sramAssist : Bool := false
  slackMin : Int := 0
  slackMon : Nat := 0
  sramMargin : Nat := 0
  sramMon : Nat := 0
  reserve : Nat := 0
  lifeRem : Nat := 0xFFFFFFFF
  tEq : F64 := 0#64
  plans : Nat := 0
  /-- latest path slacks and SRAM margins by monitor -/
  slacks : Tab Int := []
  margins : Tab Nat := []
  /-- a plan waits 1 ms to measure again: raised so far, ten-minute plan, trying a lower step -/
  planning : Bool := false
  raised : Bool := false
  tenMin : Bool := false
  lowering : Bool := false
  /-- last raising step: true = FORWARD, false = 5 mV; kept so that it can be undone -/
  steps : List Bool := []
  /-- die temperature at the plan's start, 1/16 degC -/
  tj : Int := 0
  stepAt : Nat := 0
  /-- SI_RESERVE_LOW may be raised again (R497) -/
  reserveArmed : Bool := true
  /-- instant up to which T_EQ counts, and the last 30 days: instant, equivalent and real hours (R498) -/
  tEqAt : Nat := 0
  hist : List (Nat × F64 × F64) := []
  /-- flash copies: primary and mirror of T_EQ and the plan (R499) -/
  flashTEq : F64 := 0#64
  flashVdd : Nat := 0
  flashSteps : List Bool := []
  flashBias : Nat := 0
  flashHist : List (Nat × F64 × F64) := []
  mirrorTEq : F64 := 0#64
  mirrorVdd : Nat := 0
  mirrorSteps : List Bool := []
  mirrorBias : Nat := 0
  mirrorHist : List (Nat × F64 × F64) := []
deriving DecidableEq, Repr

end Sys2Proof.Machine
end

