-- ==== Sys2Proof/Machine/Units/Fant.lean ====
section
/-!
DEFINITION. State of the Fantails, the repetitive controllers and the ramp channels (chapter 8).
-/

namespace Sys2Proof.Machine

/-- One Fantail (R294 to R308, Table 8-3). -/
structure FantSt where
  /-- angle of the next step and frequency in force -/
  th : Nat := 0
  f : F32 := 0#32
  integ : F32 := 0#32
  da : F32 := 0#32
  qa : F32 := 0#32
  db : F32 := 0#32
  qb : F32 := 0#32
  /-- ANGLE at the last t0 and at the t0 before it -/
  angle : Nat := 0
  anglePrev : Nat := 0
  freq : F32 := 0#32
  locked : Bool := false
  ampLow : Bool := false
  amp : F32 := 0#32
  /-- instant of the first step of the present run of lock conditions (R299) -/
  lockFrom : Option Nat := none
  /-- form in force, true = forming -/
  form : Bool := false
  /-- droop in force, and those written since, oldest first, with their instants (R293) -/
  droop : F32 := 0#32
  droops : List (Nat × F32) := []
  /-- STREAM: instant and out_angle of the last step; the sample at the last t0 was stepped by the cycle start (R297) -/
  outAt : Option (Nat × Nat) := none
  tookT0 : Bool := false
  /-- geared: distance, ratio and offset in force; the first t0 after a commit has passed -/
  d : Nat := 0
  num : Int := 0
  den : Nat := 0
  phi : Nat := 0
  started : Bool := false
  /-- instant of ARM while a change is armed (R306, R307) -/
  armed : Option Nat := none
  gearDone : Bool := false
  /-- instant at which the last change landed (R308) -/
  landedAt : Option Nat := none
deriving DecidableEq, Repr

/-- One repetitive controller (R309 to R312, Table 8-4). -/
structure RpcSt where
  mem : Tab F32 := []
  period : Nat := 0
  frozen : Bool := false
  sparse : Bool := false
  outLim : Bool := false
  multi : Bool := false
  /-- t0 of the cycle of the last step and its output (R310) -/
  last : Option (Nat × F32) := none
  /-- cell and its two values after the step of this cycle, and whether it cleared the table, for the state image (R321) -/
  wrote : Option (Nat × F32 × F32 × Bool) := none
deriving DecidableEq, Repr

/-- A move: target and cruise speed (R313). -/
structure Move where
  xt : F32
  vc : F32
deriving DecidableEq, Repr

inductive RampCmd where
  | stop | flush
  | set (v : F32)
deriving DecidableEq, Repr

/-- One ramp channel (R313 to R320, Table 8-5). -/
structure RampSt where
  x : F64 := 0#64
  v : F64 := 0#64
  queue : List (F64 × F64) := []
  /-- moves posted since the last t0: instant, order (0 host, 1 + core), move -/
  posted : List (Nat × Nat × Move) := []
  /-- commands written since the last t0: instant, host moves posted before it in its fabric cycle, command -/
  cmds : List (Nat × Nat × RampCmd) := []
  /-- the head is the move of a STOP -/
  stopping : Bool := false
  falling : Bool := false
  hardDec : Bool := false
  fullSeen : Bool := false
  /-- published outputs (R317) -/
  pubX : F32 := 0#32
  pubV : F32 := 0#32
  busy : Bool := false
deriving DecidableEq, Repr

structure EngSt where
  fant : Tab FantSt := []
  rpc : Tab RpcSt := []
  ramp : Tab RampSt := []
deriving DecidableEq, Repr

end Sys2Proof.Machine
end

