-- ==== Sys2Proof/Machine/Units/Gov.lean ====
section
/-!
DEFINITION. State of the Governor engines (chapter 7).
-/

namespace Sys2Proof.Machine

/-- The inputs of a call (Table 7-1) with the block of the core that waits for it (R258). -/
structure GovReq where
  core : Nat
  task : Nat
  blk : Nat
  loop : Nat
  x : F32
  ff : F32
  lo : F32
  hi : F32
  reset : Bool
  hold : Bool
  swap : Int
  resp : F32
  /-- instant of the call and t0 of its cycle (R258, R279) -/
  at_ : Nat
  t0 : Nat
deriving DecidableEq, Repr

/-- One loop: banks as records of Table 7-3 (none: passthrough, R273), section states, and its registers. -/
structure LoopSt where
  bankA : List W8 := []
  bankB : List W8 := []
  /-- states s1 and s2 of the sections; a missing section holds zeros -/
  st : List (F32 × F32) := []
  xl : F32 := 0#32
  yPrev : F32 := 0#32
  /-- active bank, true = B -/
  active : Bool := false
  /-- swap requests since the last cycle start: instant, bank, from the host (R275) -/
  reqs : List (Nat × Bool × Bool) := []
  /-- a swap that waits for the end of the evaluation in progress (R276) -/
  swapDue : Option Bool := none
  /-- banks struck by an uncorrectable error and not loaded since; the states wait for a reset (R261) -/
  struckA : Bool := false
  struckB : Bool := false
  needReset : Bool := false
  satHi : Bool := false
  satLo : Bool := false
  fault : Bool := false
  freezeCnt : Nat := 0
  clampCnt : Nat := 0
  nonfinCnt : Nat := 0
  multiCnt : Nat := 0
  /-- calls in this cycle, at most 2 (R265) -/
  calls : Nat := 0
deriving DecidableEq, Repr

/-- States of an injection (Table 7-7a). -/
inductive InjState where
  | idle | running | settling | integrating | done | aborted
deriving DecidableEq, Repr

/-- One engine: its request queue, injection generator and correlator. -/
structure EngineSt where
  queue : List GovReq := []
  /-- calls of cores that found the queue full, in order of arrival (R258) -/
  stalled : List GovReq := []
  queueMax : Nat := 0
  st : InjState := .idle
  loop : Nat := 0
  satSeen : Bool := false
  resultValid : Bool := false
  gain : F32 := 0#32
  phase : W32 := 0#32
  nSamples : Nat := 0
  t0Start : Nat := 0
  /-- cycles since t0_start -/
  cycles : Nat := 0
  prbs : Nat := 0
  /-- the PRBS register of the cycle before, for a call of that cycle (R279) -/
  prbsOld : Nat := 0
  iu : F64 := 0#64
  qu : F64 := 0#64
  ir : F64 := 0#64
  qr : F64 := 0#64
  /-- instants of a START and of an ABORT that wait for the next cycle start (R278, R284) -/
  startAt : Option Nat := none
  abortAt : Option Nat := none
  /-- instant of the last completion -/
  doneAt : Nat := 0
  /-- last injected value and response, the engine's recorder sources -/
  v : F32 := 0#32
  r : F32 := 0#32
deriving DecidableEq, Repr

structure GovSt where
  loops : Tab LoopSt := []
  eng : Tab EngineSt := []
deriving DecidableEq, Repr

end Sys2Proof.Machine
end

