-- ==== Sys2Proof/Machine/Units/Host.lean ====
section
/-!
DEFINITION. State of the host interface (chapter 17): mailboxes, configuration session and stored sets, readback,
UDP transport, MP load and the PCIe function.
-/

namespace Sys2Proof.Machine

/-- A latched mailbox request (Table 17-6). -/
structure MbxReq where
  opcode : Nat := 0
  tag : Nat := 0
  len : Nat := 0
  flags : Nat := 0
  arg0 : Nat := 0
  arg1 : Nat := 0
  payload : List W8 := []
deriving DecidableEq, Repr

/-- A mailbox response (Table 17-6). -/
structure MbxResp where
  opcode : Nat := 0
  tag : Nat := 0
  status : Nat := 0
  cls : Nat := 0
  detail : Nat := 0
  item : Nat := 0
  payload : List W8 := []
deriving DecidableEq, Repr

/-- One mailbox (Table 17-7): MSTATE 0 IDLE, 1 ACCEPTED, 2 RUNNING, 3 DONE. -/
structure MbxSt where
  mstate : Nat := 0
  cls : Nat := 0
  abortResult : Nat := 0
  progress : Nat := 0
  accAt : Nat := 0
  doneAt : Nat := 0
  wrIgn : Nat := 0
  ringIgn : Nat := 0
  req : MbxReq := {}
  resp : MbxResp := {}
  /-- bytes of the request area, 0x000 to 0x7FF -/
  area : Tab W8 := []
  /-- the response of the RUNNING command is discarded when it comes (R625) -/
  discard : Bool := false
  /-- instant of the ABORT that the RUNNING command stops for at its next abort point (R639) -/
  abortAt : Option Nat := none
deriving DecidableEq, Repr

/-- A validated set that waits for its commit instant, or the set in force (R648 to R657). -/
structure CfgSet where
  /-- PARAMS as stored and its scalars; the safety scalars (those that differ from their defaults) -/
  parBytes : List W8 := []
  params : Tab W32 := []
  safety : Tab W32 := []
  banks : Tab (List W8) := []
  windows : Tab (List W8) := []
  portMap : List W8 := []
  cellTab : List W8 := []
  graph : List W8 := []
  tag : List W8 := []
  newPw : List W8 := []
  crcs : List Nat := []
  lens : List Nat := []
deriving DecidableEq, Repr

/-- A flash slot of R657: CFG_SEQ and the stored set; section CRCs in `set`. -/
structure FlashSlot where
  seq : Nat := 0
  set : Option CfgSet := none
deriving DecidableEq, Repr

/-- The store of a committed set in boot flash (R657): the commit instant, its cycle index, the sections applied, and
whether the flash write succeeds. -/
structure Storing where
  at_ : Nat := 0
  index : Nat := 0
  mask : Nat := 0
  flashOk : Bool := true
deriving DecidableEq, Repr

structure HostSt where
  mbx : Tab MbxSt := []
  fwVersion : Nat := 0
  fwSlot : Nat := 0
  twinId : Bool := false
  straps : Nat := 0
  fwReady : Bool := false
  mpOverload : Bool := false
  mpRestarting : Bool := false
  mpRestarts : Nat := 0
  mpLoad : Nat := 0
  mpLoadMax : Nat := 0
  /-- consecutive updates above 900 and below 800 (R667) -/
  loadHigh : Nat := 0
  loadLow : Nat := 0
  session : Bool := false
  sessionMbx : Nat := 0
  committing : Bool := false
  cfgId : Nat := 0
  cfgSeq : Nat := 0
  /-- the set in force, if one has committed -/
  setInForce : Option CfgSet := none
  /-- a validated set, the mailbox that ordered it (8: AUTOLOAD), the converter state at validation -/
  waiting : Option CfgSet := none
  waitMbx : Nat := 8
  waitState : ConvState := .await
  /-- its safety section counts as changed; an AUTOLOAD has tried its first slot; its flash slot -/
  waitSafe : Bool := false
  waitRetry : Bool := false
  waitSlot : Nat := 0
  /-- a set in force whose flash store goes on (R656, R657) -/
  storing : Option Storing := none
  slots : Tab FlashSlot := []
  readback : Tab W32 := []
  /-- PCIe: link up, D3hot, Bus Master Enable (R625, R626) -/
  pcieUp : Bool := false
  d3hot : Bool := false
  busMaster : Bool := false
  /-- UDP requests in progress with their instants, and the last reply (R663 to R665) -/
  udpWait : List (Nat × MbxReq) := []
  udpReply : Option MbxResp := none
deriving DecidableEq, Repr

end Sys2Proof.Machine
end

