-- ==== Sys2Proof/Machine/Units/Twin.lean ====
section
/-!
DEFINITION. State of twin operation (chapter 16): roles, link, image, relay; and what an image and a background record
carry.
-/

namespace Sys2Proof.Machine

/-- The roles of Table 16-1. -/
inductive Role where
  | solo | wait | active | sync | standby | offline
deriving DecidableEq, Repr

/-- What a root PLL takes its reference from (R586, R588). -/
inductive PllRef where
  | refclk
  | lane (n : Nat)
  /-- no lane gives a clock: it holds its last frequency and moves toward REFCLK -/
  | held
deriving DecidableEq, Repr

/-- A variable item of an image (sections 9 to 14 of Table 16-5). -/
inductive VarItem where
  | rpc (r cell : Nat) (a b : F32) (reset : Bool)
  | ramp (c posted : Nat) (x v : F64) (queue : List (F64 × F64))
  | cell (g : Nat) (st : CState) (cause : Nat)
  | ceiling (g ceil : Nat)
  | bank (loop : Nat) (b : Bool) (bytes : List W8) (mbx : Option Nat)
  | param (index : Nat) (value : W32)
deriving DecidableEq, Repr

/-- What the image carries of one cell of an arm: the held state, the edge record, a carrier boundary and duty. -/
structure ImgCell where
  cell : Nat
  held : LState
  lastOn : Tab Nat
  lastOff : Tab Nat
  carrier : Option CarrierSt
deriving DecidableEq, Repr

/-- What the image carries of one arm (sections 1 and 4). -/
structure ImgArm where
  arm : Nat
  sw : Bool
  blockCause : Nat
  blockedCyc : Nat
  dir : Bool
  inDb : Bool
  iPrev : Option F32
  keptNeg : Bool
  kept : List Nat
  residue : F32
  sPrev : Nat
  psc : PscSt
  cells : List ImgCell
deriving DecidableEq, Repr

/-- A state image (R593). -/
structure Image where
  cycle : Nat
  deferred : Bool
  handover : Bool
  cfgCrc : Nat
  t0 : Nat
  seq : SeqSt
  arms : List ImgArm
  setpoints : Tab W32
  cancelled : List Nat
  counters : Tab (Tab Nat)
  loops : Tab LoopSt
  fants : Tab FantSt
  /-- staged next_num, next_den, next_phi, next_tx and next_phase_mode of these Fantails (R321) -/
  staged : Tab (List W32)
  signals : List W32
  tents : List (Nat × TentCell)
  items : List (Nat × VarItem)
deriving DecidableEq, Repr

/-- A background record (R597); `done` closes its kind, 1 to 5. -/
inductive BgRecord where
  | config (set : CfgSet) (at_ : Nat)
  | cell (g : Nat) (st : CState) (tent : TentCell)
  | loop (l : Nat) (x : LoopSt)
  | rpc (r : Nat) (x : RpcSt)
  | ramp (c : Nat) (x v : F64) (queue : List (F64 × F64))
  | done (kind : Nat)
deriving DecidableEq, Repr

/-- A port of the standby as its cycle word shows it (R615). -/
structure PeerPort where
  lock : Bool := false
  brk : Bool := false
  dFar : Nat := 0
deriving DecidableEq, Repr

structure TwinSt where
  role : Role := .solo
  pllRef : PllRef := .refclk
  unitB : Bool := false
  partnerRole : Nat := 0
  partnerAbsent : Bool := false
  frcLock : Bool := false
  cfgMatch : Bool := false
  offCause : Nat := 0
  declCause : Nat := 0
  revertReq : Bool := false
  /-- REVERT_REQ as the last heartbeat sent carried it (R610) -/
  revertSent : Bool := false
  /-- lanes that hold lock, the instant since which all do, and the link state of R582 -/
  lanes : Nat := 0
  allAt : Option Nat := none
  link : Nat := 0
  dTw : Nat := 0
  /-- last 16 round trips -/
  trips : List Nat := []
  frcErr : Int := 0
  relays : List Nat := []
  /-- instant at which each place was taken (R617) -/
  relayAt : Tab Nat := []
  relayRefused : Nat := 0
  imgBytes : Nat := 0
  imgFixed : Nat := 0
  imgErr : Nat := 0
  hbMiss : Nat := 0
  takeovers : Nat := 0
  handovers : Nat := 0
  idConflict : Bool := false
  /-- heartbeats: missing in a row, received in this cycle, last one sent -/
  missRun : Nat := 0
  hbRx : Bool := false
  hbTx : List W8 := []
  imgOk : Bool := false
  /-- a declaration in force, with its instant (R600) -/
  declAt : Option Nat := none
  /-- a DECLARE of the partner with its cause and instant; a GRANT received -/
  declRx : Option (Nat × Nat) := none
  grantRx : Bool := false
  /-- GRANT sent at the last t0; REVERT_REQ in the partner's last heartbeat -/
  granted : Bool := false
  partnerRevert : Bool := false
  yieldDue : Bool := false
  peerConv : Option ConvState := none
  waitAt : Nat := 0
  revertFrom : Option Nat := none
  revertHold : W32 := 0#32
  steadyAt : Nat := 0
  /-- converter state and switching arms that STEADY was last seen with -/
  steadyKey : Option (ConvState × Nat) := none
  /-- timebase: loaded, cycle index to adopt, cycles since the last trim and within 0.4 ns -/
  loaded : Bool := false
  adopt : Option Nat := none
  sinceTrim : Nat := 8
  lockRun : Nat := 0
  /-- the quiet cycle, and that it waits for the handover image (R603, R604) -/
  quiet : Bool := false
  waitImage : Bool := false
  /-- normal cycles since a takeover by heartbeat loss, and a report frame seen (R607) -/
  splitCnt : Option Nat := none
  sawReport : Bool := false
  /-- declared cause of the handover whose first normal cycle comes next (R606) -/
  deblockCause : Option Nat := none
  guard : Bool := false
  /-- image: last one sent, departure of its last granule, items without and with a number that wait, items sent last and
  sent before (R596) -/
  imgTx : Option Image := none
  imageDeparts : Nat := 0
  varNew : List VarItem := []
  varQ : List (Nat × VarItem) := []
  /-- cells whose ceiling change has been queued since the last update took effect (R493, R595) -/
  ceilDone : List Nat := []
  /-- setpoints of the last image applied (R631) -/
  imgSet : Option (Tab W32) := none
  sent1 : List (Nat × VarItem) := []
  sent2 : List (Nat × VarItem) := []
  nextSeq : Nat := 0
  rxSeq : Option Nat := none
  rxHold : List (Nat × VarItem) := []
  tentRot : Nat := 0
  /-- background records: a configuration set and its t0, kinds applied -/
  bgSet : Option (CfgSet × Nat) := none
  bgDone : Nat := 0
  /-- background records that wait for the end of an MP restart (R668) -/
  bgHold : List BgRecord := []
  peer : Tab PeerPort := []
  /-- relay: records sent by port, frames to launch, reports forwarded by port, services passed and returned -/
  relayTx : Tab (List W8) := []
  relayFreeAt : Tab Nat := []
  relayFrames : List (Nat × Nat × List W8) := []
  relayOut : Tab (List W8) := []
  replyOut : List (Nat × List W8) := []
  svcOut : List SvcReq := []
  svcBack : List (Nat × Nat × W32) := []
deriving DecidableEq, Repr

def TwinSt.peerLock (t : TwinSt) (p : Nat) : Bool :=
  match t.peer.find? (fun x => x.1 = p) with | some x => x.2.lock | none => false

end Sys2Proof.Machine
end

