-- ==== Sys2Proof/Syntax.lean ====
section
/-!
DEFINITION. The commands of the block: one constructor per row of the opcode table, in the table's order. Operands are plain
numbers where WellFormed bounds them, and the words, frames and records a command carries.
-/

namespace Sys2Proof

open Machine in
inductive Instr where
  /-- R48: samples at t0: input, value, VALID -/
  | cycStart (smp : List (Nat × F32 × Bool))
  /-- R54 -/
  | adcReady
  /-- R168: port, bytes of the frame -/
  | reportFrame (p : Nat) (l : List W8)
  /-- R61: arm -/
  | reportDeadline (a : Nat)
  /-- R61: cell -/
  | reportCrcErrorLimit (g : Nat)
  /-- R184: arm -/
  | rankDone (a : Nat)
  /-- R337: core; uncorrectable granule error met, 0 none -/
  | blockExecute (c : Nat) (err : Nat)
  /-- R339: core -/
  | blockSourceWaitEnd (c : Nat)
  /-- R210: arm; kind of reference, 0 COUNT, 1 VOLTAGE; the reference -/
  | armInsert (a : Nat) (kind : Nat) (x : F32)
  /-- R235: arm; the halves the write carries -/
  | pscSink (a : Nat) (period : Option F32) (duty : Option F32)
  /-- R236: arm -/
  | pscCommit (a : Nat)
  /-- R239: arm; a cell of its carrier set, or none for the arm boundary -/
  | carrierBoundary (a : Nat) (g : Option Nat)
  /-- R237: arm -/
  | pairOrphan (a : Nat)
  /-- R69: port -/
  | frameLaunch (p : Nat)
  /-- R73: arm -/
  | keepAlive (a : Nat)
  /-- R266: engine; uncorrectable error, 0 none, 1 active bank, 2 states -/
  | govCall (e : Nat) (err : Nat)
  /-- R282: engine -/
  | govInjDone (e : Nat)
  /-- R311: controller; error input, freeze, reset -/
  | rpcCall (r : Nat) (e : F32) (fz : Bool) (reset : Bool)
  /-- R347: channel; posting core; target, cruise speed -/
  | rampPost (c : Nat) (core : Nat) (xt : F32) (vc : F32)
  /-- R300: Fantail, droop in Hz -/
  | ftDroop (i : Nat) (v : F32)
  /-- R348: user event source -/
  | eventPost (n : Nat)
  /-- R350: recorder channel, value -/
  | recTap (k : Nat) (v : W32)
  /-- R350: readback slot, value -/
  | readback (k : Nat) (v : W32)
  /-- R344: queue; first of nine signals that take the entry and VALID -/
  | queueTake (q : Nat) (sig : Nat)
  /-- R375: queue; core whose task posts; the entry -/
  | queuePostBlock (q : Nat) (c : Nat) (w : List W32)
  /-- R375: queue -/
  | queuePostWaitEnd (q : Nat)
  /-- R369: task -/
  | taskCancel (t : Nat)
  /-- R371: task -/
  | taskRearm (t : Nat)
  /-- R371: task -/
  | taskRearmClear (t : Nat)
  /-- R376: queue -/
  | hwSourceRetry (q : Nat)
  /-- R389: channel; error, 0 none, 1 granule code, 2 PCIe; the granule where host memory answers -/
  | dmaDescriptorFetch (c : Nat) (err : Nat) (host : List W8)
  /-- R386: as DMA_DESCRIPTOR_FETCH -/
  | dmaGranuleRead (c : Nat) (err : Nat) (host : List W8)
  /-- R391: word written to DMA_HALT -/
  | dmaHaltClear (m : W32)
  /-- R92: port, count received -/
  | train (p : Nat) (count : Nat)
  /-- R91: port -/
  | seekSettle (p : Nat)
  /-- R91: port -/
  | upstreamLock (p : Nat)
  /-- R110: port; code violations counted, 0 for a loss of clock recovery -/
  | upstreamLockLost (p : Nat) (violations : Nat)
  /-- R111: port -/
  | ringBreak (p : Nat)
  /-- R117: port -/
  | linkLoss (p : Nat)
  /-- R114: cell -/
  | segmentAbsent (g : Nat)
  /-- R118: port -/
  | reportEndShort (p : Nat)
  /-- R98: port, hop position, round trip in 250 ps units -/
  | echo (p : Nat) (hop : Nat) (rtt : Nat)
  /-- R101: port -/
  | timeMark (p : Nat)
  /-- R782: port -/
  | discoverLimit (p : Nat)
  /-- R31: cell -/
  | bypassUnconf (g : Nat)
  /-- R488: cell -/
  | retUnconf (g : Nat)
  /-- R17: port group, or 8 for memory of no port group -/
  | memUncorr (pg : Nat)
  /-- R250: pin TRIPi -/
  | tripAssert (i : Nat)
  /-- R249: pin TRIPi -/
  | tripRelease (i : Nat)
  /-- R246: trip input -/
  | blankingEnd (i : Nat)
  /-- R251: word written to TRIP_LATCH -/
  | tripLatchClear (m : W32)
  /-- R297: Fantail -/
  | ftStreamStep (i : Nat)
  /-- R299: Fantail -/
  | ftLock (i : Nat)
  /-- R306: Fantail -/
  | gearArm (i : Nat)
  /-- R308: Fantail -/
  | gearCancel (i : Nat)
  /-- R313: channel; target, cruise speed -/
  | rampMove (c : Nat) (xt : F32) (vc : F32)
  /-- R319: channel -/
  | rampStop (c : Nat)
  /-- R319: channel -/
  | rampFlush (c : Nat)
  /-- R319: channel, position -/
  | rampSet (c : Nat) (v : F32)
  /-- R278: engine -/
  | injStart (e : Nat)
  /-- R284: engine -/
  | injAbort (e : Nat)
  /-- R405: unit, slot instant, code -/
  | adcConversion (u : Nat) (slot : Nat) (code : Int)
  /-- R413: input, sample of the cycle -/
  | adcStreamSample (k : Nat) (i : Nat)
  /-- R420: unit -/
  | injGroupStart (u : Nat)
  /-- R419: unit -/
  | injGo (u : Nat)
  /-- R408: unit -/
  | refReady (u : Nat)
  /-- R408: unit -/
  | adcRefFault (u : Nat)
  /-- R408: unit -/
  | vanaBad (u : Nat)
  /-- R423: unit; largest skew residual measured, ps -/
  | spareSliceRotation (u : Nat) (skew : Nat)
  /-- R425: unit -/
  | calStart (u : Nat)
  /-- R429: unit -/
  | calAbort (u : Nat)
  /-- R426: unit; what VERIFY finds -/
  | calStateEnd (u : Nat) (pass : Bool)
  /-- R437: comparator, level of its input in microvolts -/
  | cmpInputCross (j : Nat) (v : Int)
  /-- R437: comparator -/
  | cmpLevel1 (j : Nat)
  /-- R451 -/
  | recArm
  /-- R456 -/
  | recStop
  /-- R461 -/
  | recForce
  /-- R467: buffer -/
  | bufferRelease (k : Nat)
  /-- R451 -/
  | preRowsFilled
  /-- R454 -/
  | recDone
  /-- R455 -/
  | recRearm
  /-- R474 -/
  | tentUpdate
  /-- R494: path monitors and slack in ps; SRAM monitors and margin code; die temperature in 1/16 degrees -/
  | siMonitor (paths : List (Nat × Int)) (srams : List (Nat × Nat)) (tj : Int)
  /-- R495: die temperature in 1/16 degrees -/
  | siPlan (tj : Int)
  /-- R495: path monitors and slack in ps -/
  | planStep (paths : List (Nat × Int))
  /-- R499 -/
  | siHistoryWrite
  /-- R516 -/
  | energize
  /-- R521 -/
  | abort
  /-- R526 -/
  | deblock
  /-- R525 -/
  | block
  /-- R531 -/
  | discharge
  /-- R532 -/
  | faultReset
  /-- R526: arm number of CMD_ARM -/
  | deblockArm (a : Nat)
  /-- R525: arm number of CMD_ARM -/
  | blockArm (a : Nat)
  /-- R507: contact -/
  | contactDebounce (c : Nat)
  /-- R508: contact -/
  | contactUnsettled (c : Nat)
  /-- R510: bits written to SC_UNREL_CLR -/
  | scUnrelClr (m : W16)
  /-- R511: levels of the HOST outputs -/
  | cmdHost (v : W8)
  /-- R517 -/
  | mainConfirmTimeout
  /-- R517 -/
  | bypassConfirmTimeout
  /-- R517 -/
  | chargeTimeout
  /-- R518 -/
  | discoveryEnd
  /-- R514 -/
  | bypassOpen
  /-- R515: false MAIN, true BYPASS -/
  | breakerStuck (byp : Bool)
  /-- R531 -/
  | dischargeTimeout
  /-- R540: input, contact A or B, its level -/
  | siChange (k : Nat) (contactB : Bool) (closed : Bool)
  /-- R542: false SPT0, true SPT1 -/
  | testPulse (second : Bool)
  /-- R542: output; inputs whose contact read open in the window -/
  | testWindowEnd (second : Bool) (opened : W8)
  /-- R543: input -/
  | discrepancy (k : Nat)
  /-- R546 -/
  | blockRepeat
  /-- R551: output, level it reads back -/
  | soReadback (j : Nat) (level : Bool)
  /-- R552: feedback input -/
  | feedback (j : Nat)
  /-- R558 -/
  | clock
  /-- R558 -/
  | configCrc
  /-- R558: an uncorrectable error, or a corrected one -/
  | memory (uncorrectable : Bool)
  /-- R560 -/
  | spbChallenge
  /-- R560: the value returned, or none where the MP found the challenge absent or repeated -/
  | challengeReturn (v : Option W16)
  /-- R561: outputs that fail their test, flash copies, contacts that fail theirs -/
  | spbStartupDone (soFail : BitVec 4) (primaryOk : Bool) (mirrorOk : Bool) (tpFail : W16)
  /-- R576 -/
  | waitTimeout
  /-- R584: bytes of the heartbeat -/
  | heartbeatRx (l : List W8)
  /-- R584 -/
  | heartbeatMissing
  /-- R602 -/
  | txdisGuard
  /-- R582: lane -/
  | twinLaneLoss (lane : Nat)
  /-- R582 -/
  | linkFullReturn
  /-- R583: round trip in 250 ps units -/
  | dTw (rt : Nat)
  /-- R587: FRC and cycle index at the launch; error of this unit's FRC, ps -/
  | timeWord (frc : Nat) (idx : W32) (err : Int)
  /-- R592: the image; an uncorrectable granule-code error -/
  | imageRx (i : Image) (bad : Bool)
  /-- R597: the record -/
  | backgroundRecord (r : BgRecord)
  /-- R604 -/
  | handoverImageDeadline
  /-- R607 -/
  | split
  /-- R609 -/
  | revertHoldoff
  /-- R614: bytes of the record -/
  | relayRecordRx (l : List W8)
  /-- R614: port -/
  | relayLaunch (p : Nat)
  /-- R619 -/
  | twinClear
  /-- R625 -/
  | pcieLinkLoss
  /-- R625 -/
  | hotReset
  /-- R625 -/
  | functionLevelReset
  /-- R625 -/
  | fundamentalReset
  /-- R625: entry, or return to D0 -/
  | d3hot (enter : Bool)
  /-- R626: the bit -/
  | busMasterEnable (on : Bool)
  /-- R631: setpoint register, word -/
  | setpointWrite (k : Nat) (v : W32)
  /-- R9: BAR, offset, bytes written -/
  | registerWrite (bar : Nat) (off : Nat) (l : List W8)
  /-- R678 -/
  | frcLoRead
  /-- R680 -/
  | setGo
  /-- R661: word of EVT_PEND, ones written -/
  | evtPendClear (w : Nat) (m : W32)
  /-- R635: mailbox -/
  | mbxRing (m : Nat)
  /-- R639: mailbox -/
  | mbxAbort (m : Nat)
  /-- R634: mailbox -/
  | mbxRelease (m : Nat)
  /-- R651: offset in the staging window, bytes -/
  | stagingWrite (off : Nat) (l : List W8)
  /-- R641: mailbox -/
  | nop (m : Nat)
  /-- R641: mailbox -/
  | identify (m : Nat)
  /-- R646: mailbox -/
  | paramRead (m : Nat)
  /-- R644: mailbox -/
  | paramWrite (m : Nat)
  /-- R641: mailbox -/
  | paramInfo (m : Nat)
  /-- R647: mailbox -/
  | paramFind (m : Nat)
  /-- R651: mailbox -/
  | cfgOpen (m : Nat)
  /-- R652: mailbox -/
  | cfgCommit (m : Nat)
  /-- R653: the flash write succeeds -/
  | cfgApply (flashOk : Bool)
  /-- R651: mailbox -/
  | cfgClose (m : Nat)
  /-- R641: mailbox -/
  | cfgLoad (m : Nat)
  /-- R641: mailbox -/
  | cfgInfo (m : Nat)
  /-- R658: mailbox -/
  | cfgRead (m : Nat)
  /-- R36: mailbox -/
  | cellState (m : Nat)
  /-- R641: mailbox -/
  | cellStatus (m : Nat)
  /-- R490: mailbox -/
  | cellRecordRead (m : Nat)
  /-- R492: mailbox -/
  | cellRecordWrite (m : Nat)
  /-- R641: mailbox -/
  | cellService (m : Nat)
  /-- R125: mailbox -/
  | portDark (m : Nat)
  /-- R116: mailbox -/
  | ringRejoin (m : Nat)
  /-- R372: mailbox -/
  | taskCtrl (m : Nat)
  /-- R384: mailbox -/
  | dmaStart (m : Nat)
  /-- R390: mailbox -/
  | dmaAbort (m : Nat)
  /-- R399: mailbox -/
  | dmaStatus (m : Nat)
  /-- R399: mailbox -/
  | queueStatus (m : Nat)
  /-- R378: mailbox -/
  | queuePost (m : Nat)
  /-- R555: mailbox -/
  | spbAck (m : Nat)
  /-- R567: mailbox -/
  | spbLogRead (m : Nat)
  /-- R611: mailbox -/
  | relinquish (m : Nat)
  /-- R641: mailbox -/
  | logRead (m : Nat)
  /-- R641: mailbox -/
  | selfTest (m : Nat)
  /-- R745: mailbox; the image verifies, its security version -/
  | fwUpdate (m : Nat) (ok : Bool) (version : Nat)
  /-- R663: Ethernet port, source IPv4 address, bytes of the request -/
  | udpRequest (p : Nat) (addr : W32) (l : List W8)
  /-- R667: permille -/
  | mpLoad (load : Nat)
  /-- R668 -/
  | mpRestart
  /-- R668 -/
  | mpRestartDone
  /-- R684: the message -/
  | sync (x : PtpMsg)
  /-- R681: the message -/
  | followUp (x : PtpMsg)
  /-- R681: the message -/
  | delayReq (x : PtpMsg)
  /-- R681: the message -/
  | delayResp (x : PtpMsg)
  /-- R681: the message -/
  | pdelayReq (x : PtpMsg)
  /-- R681: the message -/
  | pdelayResp (x : PtpMsg)
  /-- R681: the message -/
  | pdelayRespFollowUp (x : PtpMsg)
  /-- R683: the data set -/
  | announce (x : PtpAnn)
  /-- R681: the message -/
  | signaling (x : PtpMsg)
  /-- R681: the message -/
  | management (x : PtpMsg)
  /-- R683: Ethernet port -/
  | announceTimeout (p : Nat)
  /-- R683: Ethernet port -/
  | ethLinkLoss (p : Nat)
  /-- R675 -/
  | rateChange
  /-- R681: the message whose interval ends -/
  | ptpTxInterval (k : PtpKind)
  /-- R697 -/
  | pwrReqRun
  /-- R698 -/
  | pwrReqHold
  /-- R703 -/
  | pwrReqDoze
  /-- R707 -/
  | pwrReqOff
  /-- R703: capture bank that a host read of BAR4 holds busy -/
  | pwrEntryStep (bar4 : Option Nat)
  /-- R708: WAKE_CAUSE -/
  | pwrWake (cause : Nat)
  /-- R711: retained banks that fail their check -/
  | wakeComplete (fail : BitVec 13)
  /-- R723: P_est and the estimate of each domain, 0.01 W -/
  | powerEstimate (est : Nat) (doms : List (Nat × Nat))
  /-- R724 -/
  | pwrOver
  /-- R694 -/
  | pllLock
  /-- R719: the write is acknowledged -/
  | vrRetry (ack : Bool)
  /-- R728 -/
  | porstNAssert
  /-- R730: pins sampled -/
  | porstNRelease (twinId : Bool) (straps : W8)
  /-- R728 -/
  | rstNAssert
  /-- R730: pins sampled -/
  | rstNRelease (twinId : Bool) (straps : W8)
  /-- R731: from the PLL, or from a boot retry -/
  | internalWarmReset (pll : Bool)
  /-- R737: what the ROM finds in the boot flash -/
  | start (f : BootFlash)
  /-- R739 -/
  | fwTimeout
  /-- R741: ms since the release; a fatal self-test item; port groups that failed; flash slots whose CRCs fail -/
  | startUpEnd (ms : Nat) (fatal : Bool) (pgFailed : W8) (bad : BitVec 2)
  /-- R742: flash slots whose CRCs fail -/
  | autoload (bad : BitVec 2)
  /-- R749: the response is signed for this challenge and module -/
  | debugResponse (signed : Bool)
  /-- R748: the instruction -/
  | jtagInstruction (i : JtagInstr)
  /-- R582: lane -/
  | twinLaneLock (lane : Nat)
  /-- R552: feedback input, its contact -/
  | fbChange (j : Nat) (closed : Bool)
  /-- R507: contact, level of its pin -/
  | scRawChange (c : Nat) (level : Bool)
  /-- R566 -/
  | passwordLockoutEnd
  /-- R660: EVT_EN or EVT_VEC, word of it, value -/
  | evtEnWrite (vec : Bool) (w : Nat) (v : W32)
  /-- R660: vector -/
  | vectorUnmask (v : Nat)
  /-- R616: bytes of the record; or a service reply: cell, status, data -/
  | relayReportRx (l : List W8) (reply : Option (Nat × Nat × W32))
  /-- R615: port, LOCK, BREAK, D_FAR -/
  | relayPortStatus (l : List (Nat × Bool × Bool × Nat))
  /-- R116: arm -/
  | windowStart (a : Nat)
  /-- R244: arm -/
  | blankingStart (a : Nat)
  /-- R408: unit -/
  | vanaReturn (u : Nat)
deriving DecidableEq, Repr

end Sys2Proof
end

