-- ==== Sys2Proof/WellFormed.lean ====
section
/-!
DEFINITION. Which commands the spec has: numbers of arms, ports, cells, tasks and the other units within their ranges (R3, R5 and
the register and parameter tables), and lengths of entries and granules. A command outside these ranges names no unit and
changes nothing.
-/

namespace Sys2Proof

def Instr.wf : Instr → Bool
  | .cycStart _ => true
  | .adcReady => true
  | .reportFrame p _ => decide (p < 128)
  | .reportDeadline a => decide (a < 12)
  | .reportCrcErrorLimit g => decide (g < 6144)
  | .rankDone a => decide (a < 12)
  | .blockExecute c err => decide (c < 16 ∧ err < 4)
  | .blockSourceWaitEnd c => decide (c < 16)
  | .armInsert a kind _ => decide (a < 12 ∧ kind < 2)
  | .pscSink a _ _ => decide (a < 12)
  | .pscCommit a => decide (a < 12)
  | .carrierBoundary a _ => decide (a < 12)
  | .pairOrphan a => decide (a < 12)
  | .frameLaunch p => decide (p < 128)
  | .keepAlive a => decide (a < 12)
  | .govCall e err => decide (e < 8 ∧ err < 3)
  | .govInjDone e => decide (e < 8)
  | .rpcCall r _ _ _ => decide (r < 16)
  | .rampPost c core _ _ => decide (c < 32 ∧ core < 16)
  | .ftDroop i _ => decide (i < 4)
  | .eventPost n => decide (160 ≤ n ∧ n < 224)
  | .recTap k _ => decide (k < 64)
  | .readback k _ => decide (k < 256)
  | .queueTake q sig => decide (q < 64 ∧ sig < 16375)
  | .queuePostBlock q c w => decide (q < 64 ∧ c < 16 ∧ w.length = 8)
  | .queuePostWaitEnd q => decide (q < 64)
  | .taskCancel t => decide (t < 256)
  | .taskRearm t => decide (t < 256)
  | .taskRearmClear t => decide (t < 256)
  | .hwSourceRetry q => decide (q < 64)
  | .dmaDescriptorFetch c err host => decide (c < 32 ∧ err < 3 ∧ host.length = 32)
  | .dmaGranuleRead c err host => decide (c < 32 ∧ err < 3 ∧ host.length = 32)
  | .dmaHaltClear _ => true
  | .train p count => decide (p < 128 ∧ count < 64)
  | .seekSettle p => decide (p < 128)
  | .upstreamLock p => decide (p < 128)
  | .upstreamLockLost p _ => decide (p < 128)
  | .ringBreak p => decide (p < 128)
  | .linkLoss p => decide (p < 128)
  | .segmentAbsent g => decide (g < 6144)
  | .reportEndShort p => decide (p < 128)
  | .echo p hop _ => decide (p < 128 ∧ hop < 48)
  | .timeMark p => decide (p < 128)
  | .discoverLimit p => decide (p < 128)
  | .bypassUnconf g => decide (g < 6144)
  | .retUnconf g => decide (g < 6144)
  | .memUncorr pg => decide (pg < 9)
  | .tripAssert i => decide (i < 16)
  | .tripRelease i => decide (i < 16)
  | .blankingEnd i => decide (i < 32)
  | .tripLatchClear _ => true
  | .ftStreamStep i => decide (i < 4)
  | .ftLock i => decide (i < 4)
  | .gearArm i => decide (i < 4)
  | .gearCancel i => decide (i < 4)
  | .rampMove c _ _ => decide (c < 32)
  | .rampStop c => decide (c < 32)
  | .rampFlush c => decide (c < 32)
  | .rampSet c _ => decide (c < 32)
  | .injStart e => decide (e < 8)
  | .injAbort e => decide (e < 8)
  | .adcConversion u _ _ => decide (u < 4)
  | .adcStreamSample k i => decide (k < 64 ∧ i < 128)
  | .injGroupStart u => decide (u < 4)
  | .injGo u => decide (u < 4)
  | .refReady u => decide (u < 4)
  | .adcRefFault u => decide (u < 4)
  | .vanaBad u => decide (u < 4)
  | .spareSliceRotation u skew => decide (u < 4 ∧ skew < 65536)
  | .calStart u => decide (u < 4)
  | .calAbort u => decide (u < 4)
  | .calStateEnd u _ => decide (u < 4)
  | .cmpInputCross j _ => decide (j < 16)
  | .cmpLevel1 j => decide (j < 16)
  | .recArm => true
  | .recStop => true
  | .recForce => true
  | .bufferRelease k => decide (k < 8)
  | .preRowsFilled => true
  | .recDone => true
  | .recRearm => true
  | .tentUpdate => true
  | .siMonitor _ _ _ => true
  | .siPlan _ => true
  | .planStep _ => true
  | .siHistoryWrite => true
  | .energize => true
  | .abort => true
  | .deblock => true
  | .block => true
  | .discharge => true
  | .faultReset => true
  | .deblockArm a => decide (a < 16)
  | .blockArm a => decide (a < 16)
  | .contactDebounce c => decide (c < 16)
  | .contactUnsettled c => decide (c < 16)
  | .scUnrelClr _ => true
  | .cmdHost _ => true
  | .mainConfirmTimeout => true
  | .bypassConfirmTimeout => true
  | .chargeTimeout => true
  | .discoveryEnd => true
  | .bypassOpen => true
  | .breakerStuck _ => true
  | .dischargeTimeout => true
  | .siChange k _ _ => decide (k < 8)
  | .testPulse _ => true
  | .testWindowEnd _ _ => true
  | .discrepancy k => decide (k < 8)
  | .blockRepeat => true
  | .soReadback j _ => decide (j < 4)
  | .feedback j => decide (j < 8)
  | .clock => true
  | .configCrc => true
  | .memory _ => true
  | .spbChallenge => true
  | .challengeReturn _ => true
  | .spbStartupDone _ _ _ _ => true
  | .waitTimeout => true
  | .heartbeatRx _ => true
  | .heartbeatMissing => true
  | .txdisGuard => true
  | .twinLaneLoss lane => decide (lane < 16)
  | .linkFullReturn => true
  | .dTw rt => decide (rt < 131072)
  | .timeWord _ _ _ => true
  | .imageRx _ _ => true
  | .backgroundRecord _ => true
  | .handoverImageDeadline => true
  | .split => true
  | .revertHoldoff => true
  | .relayRecordRx _ => true
  | .relayLaunch p => decide (p < 128)
  | .twinClear => true
  | .pcieLinkLoss => true
  | .hotReset => true
  | .functionLevelReset => true
  | .fundamentalReset => true
  | .d3hot _ => true
  | .busMasterEnable _ => true
  | .setpointWrite k _ => decide (k < 64)
  | .registerWrite bar _ _ => decide (bar < 5)
  | .frcLoRead => true
  | .setGo => true
  | .evtPendClear w _ => decide (w < 8)
  | .mbxRing m => decide (m < 8)
  | .mbxAbort m => decide (m < 8)
  | .mbxRelease m => decide (m < 8)
  | .stagingWrite _ _ => true
  | .nop m => decide (m < 8)
  | .identify m => decide (m < 8)
  | .paramRead m => decide (m < 8)
  | .paramWrite m => decide (m < 8)
  | .paramInfo m => decide (m < 8)
  | .paramFind m => decide (m < 8)
  | .cfgOpen m => decide (m < 8)
  | .cfgCommit m => decide (m < 8)
  | .cfgApply _ => true
  | .cfgClose m => decide (m < 8)
  | .cfgLoad m => decide (m < 8)
  | .cfgInfo m => decide (m < 8)
  | .cfgRead m => decide (m < 8)
  | .cellState m => decide (m < 8)
  | .cellStatus m => decide (m < 8)
  | .cellRecordRead m => decide (m < 8)
  | .cellRecordWrite m => decide (m < 8)
  | .cellService m => decide (m < 8)
  | .portDark m => decide (m < 8)
  | .ringRejoin m => decide (m < 8)
  | .taskCtrl m => decide (m < 8)
  | .dmaStart m => decide (m < 8)
  | .dmaAbort m => decide (m < 8)
  | .dmaStatus m => decide (m < 8)
  | .queueStatus m => decide (m < 8)
  | .queuePost m => decide (m < 8)
  | .spbAck m => decide (m < 8)
  | .spbLogRead m => decide (m < 8)
  | .relinquish m => decide (m < 8)
  | .logRead m => decide (m < 8)
  | .selfTest m => decide (m < 8)
  | .fwUpdate m _ _ => decide (m < 8)
  | .udpRequest p _ _ => decide (p < 2)
  | .mpLoad load => decide (load ≤ 1000)
  | .mpRestart => true
  | .mpRestartDone => true
  | .sync _ => true
  | .followUp _ => true
  | .delayReq _ => true
  | .delayResp _ => true
  | .pdelayReq _ => true
  | .pdelayResp _ => true
  | .pdelayRespFollowUp _ => true
  | .announce _ => true
  | .signaling _ => true
  | .management _ => true
  | .announceTimeout p => decide (p < 2)
  | .ethLinkLoss p => decide (p < 2)
  | .rateChange => true
  | .ptpTxInterval _ => true
  | .pwrReqRun => true
  | .pwrReqHold => true
  | .pwrReqDoze => true
  | .pwrReqOff => true
  | .pwrEntryStep _ => true
  | .pwrWake cause => decide (cause < 6)
  | .wakeComplete _ => true
  | .powerEstimate _ _ => true
  | .pwrOver => true
  | .pllLock => true
  | .vrRetry _ => true
  | .porstNAssert => true
  | .porstNRelease _ _ => true
  | .rstNAssert => true
  | .rstNRelease _ _ => true
  | .internalWarmReset _ => true
  | .start _ => true
  | .fwTimeout => true
  | .startUpEnd _ _ _ _ => true
  | .autoload _ => true
  | .debugResponse _ => true
  | .jtagInstruction _ => true
  | .twinLaneLock lane => decide (lane < 16)
  | .fbChange j _ => decide (j < 8)
  | .scRawChange c _ => decide (c < 16)
  | .passwordLockoutEnd => true
  | .evtEnWrite _ w _ => decide (w < 64)
  | .vectorUnmask v => decide (v < 64)
  | .relayReportRx _ _ => true
  | .relayPortStatus _ => true
  | .windowStart a => decide (a < 12)
  | .blankingStart a => decide (a < 12)
  | .vanaReturn u => decide (u < 4)

end Sys2Proof
end

