-- ==== Sys2Proof/Config.lean ====
section
/-!
DEFINITION. What the manual leaves to the implementation, to the outside world, or open: constants without a body, so
that nothing can evaluate them and every statement holds for each of their values.
-/

namespace Sys2Proof.Config

/-- Free values, one for each count of the state's `free` counter. -/
opaque freeWord : Nat → BitVec 64

/-- Build time of a slice for a port, 250 ps units; the model takes at most 400 ns of it (R67, R68). -/
opaque buildTime : Nat → Nat

/-- Time in 250 ps units until a relay record has reached the standby, by port (R615), and until the image of a cycle has
left, at most the bound of R590. -/
opaque relayTime : Nat → Nat
opaque imageTime : Nat → Nat

/-- Identity fixed in the module (R629): REVISION and the serial number. -/
opaque revision : BitVec 8
opaque serial : BitVec 64

/-- Equivalent setpoint recorded at production test, mV (R497, R500). -/
opaque vfreshEq : Nat

/-- Sign (bit 63) and payload (low bits) of a NaN that an operation gives (R7). -/
opaque nanBits : BitVec 64

/-- How far the sine and the cosine of an angle, or of an operand in turns, lie from the nearest binary32 number, in places;
the model takes what the bound of 2 ulp allows of it (R294, Tables 9-4 and 9-6). -/
opaque sinDev : BitVec 32 → Int
opaque cosDev : BitVec 32 → Int

/-- Values that the manual does not give: the logarithm of 0 or of a negative number, the angle of (0, 0) or of an infinite
vector (Table 9-6), of a vector that is not finite (R783), and of the sums of a correlator that are 0 or not finite
(R282). -/
opaque lnF : F32 → F32
opaque atan2F : F32 → F32 → F32
opaque polarAngle : F32 → F32 → W32
opaque corrAngle : F64 → F64 → W32

/-- Lead of a chosen rate-change instant over the servo's run, 250 ps units (R675). -/
opaque rateLead : Nat → Nat
/-- Identity of this PTP clock and the offsetScaledLogVariance it announces. -/
opaque clockId : Nat
opaque clockVar : Nat

/-- Firmware log entries from a number on, and self-test results, at a count of free values (R641). -/
opaque fwLog : Nat → Nat → List W8
opaque selfTest : Nat → List W8
/-- Words of a parameter description that no table gives: codes of types and effects, bounds of an open range (R641). -/
opaque infoWord : Nat → W32

end Sys2Proof.Config
end

