-- ==== Sys2Proof/Machine/Arith.lean ====
section
/-!
DEFINITION. Helpers every unit shares: sparse tables, bit fields, signed fields, saturating counters,
exact integer rounding, and binary32 and binary64 arithmetic over exact dyadic numbers.
-/

namespace Sys2Proof.Machine

/-! ### Sparse tables -/

/-- The entry of a sparse table at an index; the default where nothing is listed. -/
def tget {α : Type} (d : α) : Tab α → Nat → α
  | [], _ => d
  | (j, v) :: t, k => if j = k then v else tget d t k

/-- Removes an index from a sparse table. -/
def tdel {α : Type} : Tab α → Nat → Tab α
  | [], _ => []
  | (j, v) :: t, k => if j = k then tdel t k else (j, v) :: tdel t k

/-- Puts an entry in at its place in the rising order. -/
def tput {α : Type} (k : Nat) (x : α) : Tab α → Tab α
  | [] => [(k, x)]
  | (j, v) :: t =>
    if j = k then (k, x) :: t else if k < j then (k, x) :: (j, v) :: t else (j, v) :: tput k x t

/-- Writes an entry; writing the default removes the entry, so that equal tables are equal lists. -/
def tset {α : Type} [DecidableEq α] (d : α) (t : Tab α) (k : Nat) (x : α) : Tab α :=
  if x = d then tdel t k else tput k x t

/-- Changes one entry by a function. -/
def tmod {α : Type} [DecidableEq α] (d : α) (t : Tab α) (k : Nat) (f : α → α) : Tab α :=
  tset d t k (f (tget d t k))

/-- The form of a sparse table: indexes strictly rising and no entry equal to the default. -/
def twf {α : Type} [DecidableEq α] (d : α) : Tab α → Bool
  | [] => true
  | [(_, v)] => decide (v ≠ d)
  | (j, v) :: (k, w) :: t => decide (v ≠ d) && decide (j < k) && twf d ((k, w) :: t)

/-! ### Lists -/

/-- The numbers 0 to n - 1. -/
def upto (n : Nat) : List Nat := List.range n

/-- Replaces the n-th element of a list, if there is one. -/
def lset {α : Type} : List α → Nat → α → List α
  | [], _, _ => []
  | _ :: t, 0, x => x :: t
  | h :: t, n + 1, x => h :: lset t n x

/-- Keeps the last n elements of a list. -/
def lastN {α : Type} (n : Nat) (l : List α) : List α := l.drop (l.length - n)

/-- Adds an element to a list without repeats, in rising order. -/
def insertNat (k : Nat) : List Nat → List Nat
  | [] => [k]
  | j :: t => if j = k then j :: t else if k < j then k :: j :: t else j :: insertNat k t

/-- The union of a rising list with another list. -/
def unionNat (a b : List Nat) : List Nat := b.foldl (fun l k => insertNat k l) a

/-- The elements of a list that are not in another. -/
def diffNat (a b : List Nat) : List Nat := a.filter (fun k => !b.contains k)

/-- Insertion of an element by a strict order, after its equals: the sort is stable. -/
def insertBy {α : Type} (lt : α → α → Bool) (x : α) : List α → List α
  | [] => [x]
  | y :: t => if lt x y then x :: y :: t else y :: insertBy lt x t

/-- Stable insertion sort. -/
def sortBy {α : Type} (lt : α → α → Bool) : List α → List α
  | [] => []
  | x :: t => insertBy (fun a b => !lt b a) x (sortBy lt t)

/-- Sum of a list of natural numbers. -/
def sumNat (l : List Nat) : Nat := l.foldl (· + ·) 0

/-- Sum of a list of integers. -/
def sumInt (l : List Int) : Int := l.foldl (· + ·) 0

def maxNat (l : List Nat) : Nat := l.foldl max 0

/-! ### Bit fields -/

/-- Bits lo .. lo + n - 1 of a number. -/
def bits (w lo n : Nat) : Nat := (w >>> lo) % 2 ^ n

/-- Bit n of a number. -/
def bitAt (w n : Nat) : Bool := w.testBit n

/-- A number with bit n written. -/
def setBit (w n : Nat) (b : Bool) : Nat :=
  if w.testBit n = b then w else if b then w + 2 ^ n else w - 2 ^ n

def b2n (b : Bool) : Nat := if b then 1 else 0

/-- The two's complement value of an n-bit field. -/
def sext (n w : Nat) : Int :=
  if w % 2 ^ n < 2 ^ (n - 1) then (w % 2 ^ n : Nat) else ((w % 2 ^ n : Nat) : Int) - ((2 ^ n : Nat) : Int)

/-- The low n bits of an integer. -/
def wrapN (n : Nat) (x : Int) : Nat := (x % ((2 ^ n : Nat) : Int)).toNat

/-- A signed integer limited to the range of n bits. -/
def clampS (n : Nat) (x : Int) : Int :=
  let hi : Int := (2 ^ (n - 1) : Nat) - 1
  if hi < x then hi else if x < -hi - 1 then -hi - 1 else x

/-- A natural number limited to n bits. -/
def clampU (n x : Nat) : Nat := min x (2 ^ n - 1)

/-- An integer limited to the range of n unsigned bits. -/
def clampUI (n : Nat) (x : Int) : Nat := clampU n x.toNat

/-- A saturating n-bit counter counts one. -/
def satInc (n x : Nat) : Nat := min (x + 1) (2 ^ n - 1)

/-- A saturating n-bit counter counts by k. -/
def satAdd (n x k : Nat) : Nat := min (x + k) (2 ^ n - 1)

def clampI (lo hi x : Int) : Int := if hi < x then hi else if x < lo then lo else x

def clampN (lo hi x : Nat) : Nat := if hi < x then hi else if x < lo then lo else x

/-- The set of bits listed, as a number. -/
def maskOf (l : List Nat) : Nat := l.foldl (fun w k => setBit w k true) 0

/-- The numbers below n whose bit is set. -/
def onesBelow (w n : Nat) : List Nat := (upto n).filter (fun k => w.testBit k)

/-- Bits cleared of a mask. -/
def clearMask (w m : Nat) : Nat := w - (w &&& m)

/-! ### Bytes -/

/-- The n-byte little-endian reading of a list of bytes; absent bytes read 0. -/
def le (n : Nat) (l : List W8) : Nat :=
  match n, l with
  | 0, _ => 0
  | _ + 1, [] => 0
  | n + 1, b :: t => b.toNat + 256 * le n t

/-- The n little-endian bytes of a number. -/
def leBytes : Nat → Nat → List W8
  | 0, _ => []
  | n + 1, w => BitVec.ofNat 8 w :: leBytes n (w / 256)

/-- The n bytes of a list from an offset, little-endian. -/
def leAt (l : List W8) (off n : Nat) : Nat := le n (l.drop off)

/-- The n big-endian bytes of a list from an offset. -/
def beAt (l : List W8) (off n : Nat) : Nat :=
  ((l.drop off).take n).foldl (fun w b => w * 256 + b.toNat) 0

/-! ### Exact rounding -/

/-- Quotient rounded to nearest, ties to even. -/
def divRne (a b : Nat) : Nat :=
  let q := a / b
  let r := a % b
  if 2 * r < b then q else if b < 2 * r then q + 1 else if q % 2 = 0 then q else q + 1

/-- Quotient of an integer by a natural number, rounded to nearest, ties to even. -/
def idivRne (a : Int) (b : Nat) : Int :=
  if a < 0 then -((divRne a.natAbs b : Nat) : Int) else (divRne a.natAbs b : Nat)

/-- Quotient rounded to nearest, ties away from zero. -/
def idivRna (a : Int) (b : Nat) : Int :=
  let m : Nat := (2 * a.natAbs + b) / (2 * b)
  if a < 0 then -(m : Int) else m

/-- Quotient rounded up. -/
def divCeil (a b : Nat) : Nat := (a + b - 1) / b

/-- Integer square root (the greatest r with r * r ≤ n), by bits from the top. -/
def isqrtLoop (n : Nat) : Nat → Nat → Nat
  | 0, r => r
  | k + 1, r => if (r + 2 ^ k) * (r + 2 ^ k) ≤ n then isqrtLoop n k (r + 2 ^ k) else isqrtLoop n k r

def isqrt (n : Nat) : Nat := isqrtLoop n (Nat.log2 n / 2 + 1) 0

/-! ### Floating point

A number is decoded to an exact dyadic value, computed exactly and rounded once to nearest, ties to even. -/

/-- A decoded number: not a number, an infinity, or sign * mant * 2 ^ exp. -/
inductive FV where
  | nan
  | inf (neg : Bool)
  | fin (neg : Bool) (mant : Nat) (exp : Int)
deriving DecidableEq, Repr

/-- A binary format: fraction bits and exponent bits. -/
structure Fmt where
  mb : Nat
  eb : Nat
deriving DecidableEq, Repr

def fmt32 : Fmt := { mb := 23, eb := 8 }
def fmt64 : Fmt := { mb := 52, eb := 11 }

def Fmt.bias (f : Fmt) : Int := ((2 ^ (f.eb - 1) : Nat) : Int) - 1

/-- The value of the bits of a number. -/
def fdec (f : Fmt) (w : Nat) : FV :=
  let man := bits w 0 f.mb
  let ex := bits w f.mb f.eb
  let neg := bitAt w (f.mb + f.eb)
  if ex = 2 ^ f.eb - 1 then (if man = 0 then .inf neg else .nan)
  else if ex = 0 then .fin neg man (1 - f.bias - f.mb)
  else .fin neg (2 ^ f.mb + man) ((ex : Int) - f.bias - f.mb)

/-- A NaN result. The manual says where a result is NaN and not which: sign and payload of the quiet NaN are free (log entry 4). -/
def fnan (f : Fmt) : Nat :=
  (2 ^ f.eb - 1) * 2 ^ f.mb + 2 ^ (f.mb - 1) + Config.nanBits.toNat % 2 ^ (f.mb - 1) + b2n (bitAt Config.nanBits.toNat 63) * 2 ^ (f.mb + f.eb)

def finf (f : Fmt) (neg : Bool) : Nat := (2 ^ f.eb - 1) * 2 ^ f.mb + b2n neg * 2 ^ (f.mb + f.eb)

/-- mant * 2 ^ (-shift), rounded to nearest even. -/
def shiftRne (m : Nat) (shift : Int) : Nat :=
  if shift ≤ 0 then m * 2 ^ (-shift).toNat else divRne m (2 ^ shift.toNat)

/-- The bits of a value, rounded once to nearest, ties to even. -/
def fenc (f : Fmt) : FV → Nat
  | .nan => fnan f
  | .inf neg => finf f neg
  | .fin neg m e =>
    let sgn := b2n neg * 2 ^ (f.mb + f.eb)
    if m = 0 then sgn else
    let emin : Int := 1 - f.bias - f.mb
    let q : Int := max (e + (Nat.log2 m : Int) - f.mb) emin
    let r := shiftRne m (q - e)
    let r2 := if r = 2 ^ (f.mb + 1) then 2 ^ f.mb else r
    let q2 := if r = 2 ^ (f.mb + 1) then q + 1 else q
    if r2 < 2 ^ f.mb then sgn + r2
    else
      let ex := (q2 + f.bias + f.mb).toNat
      if 2 ^ f.eb - 1 ≤ ex then finf f neg else sgn + ex * 2 ^ f.mb + (r2 - 2 ^ f.mb)

/-- An integer times a power of two as a value; zero is positive. -/
def fvOfInt (x : Int) (e : Int) : FV := .fin (decide (x < 0)) x.natAbs e

/-- The signed mantissa of two values brought to one exponent. -/
def fvAlign (n : Bool) (m : Nat) (e q : Int) : Int :=
  let v : Int := ((m * 2 ^ (e - q).toNat : Nat) : Int)
  if n then -v else v

def fvNeg : FV → FV
  | .nan => .nan
  | .inf n => .inf (!n)
  | .fin n m e => .fin (!n) m e

def fvAbs : FV → FV
  | .nan => .nan
  | .inf _ => .inf false
  | .fin _ m e => .fin false m e

def fvAdd : FV → FV → FV
  | .nan, _ => .nan
  | _, .nan => .nan
  | .inf a, .inf b => if a = b then .inf a else .nan
  | .inf a, _ => .inf a
  | _, .inf b => .inf b
  | .fin n1 m1 e1, .fin n2 m2 e2 =>
    let q := min e1 e2
    let s := fvAlign n1 m1 e1 q + fvAlign n2 m2 e2 q
    if s = 0 then .fin (n1 && n2) 0 q else fvOfInt s q

def fvSub (a b : FV) : FV := fvAdd a (fvNeg b)

def fvMul : FV → FV → FV
  | .nan, _ => .nan
  | _, .nan => .nan
  | .inf a, .inf b => .inf (a != b)
  | .inf a, .fin n m _ => if m = 0 then .nan else .inf (a != n)
  | .fin n m _, .inf b => if m = 0 then .nan else .inf (n != b)
  | .fin n1 m1 e1, .fin n2 m2 e2 => .fin (n1 != n2) (m1 * m2) (e1 + e2)

/-- Quotient with 128 extra bits and a sticky last bit: exact for the one rounding that follows. -/
def fvDiv : FV → FV → FV
  | .nan, _ => .nan
  | _, .nan => .nan
  | .inf _, .inf _ => .nan
  | .inf a, .fin n _ _ => .inf (a != n)
  | .fin n _ _, .inf b => .fin (n != b) 0 0
  | .fin n1 m1 e1, .fin n2 m2 e2 =>
    if m2 = 0 then (if m1 = 0 then .nan else .inf (n1 != n2))
    else
      let k := 128 + Nat.log2 m2
      let a := m1 * 2 ^ k
      .fin (n1 != n2) (2 * (a / m2) + b2n (decide (a % m2 ≠ 0))) (e1 - e2 - k - 1)

/-- Square root with a sticky last bit; of a negative number not a number. -/
def fvSqrt : FV → FV
  | .nan => .nan
  | .inf n => if n then .nan else .inf false
  | .fin n m e =>
    if m = 0 then .fin n 0 0 else if n then .nan else
    let k : Nat := 128 + (if e % 2 = 0 then 0 else 1)
    let a := m * 2 ^ k
    let r := isqrt a
    .fin false (2 * r + b2n (decide (r * r ≠ a))) ((e - k) / 2 - 1)

/-- Strictly less; false where either is not a number. -/
def fvLt : FV → FV → Bool
  | .nan, _ => false
  | _, .nan => false
  | .inf a, .inf b => a && !b
  | .inf a, _ => a
  | _, .inf b => !b
  | .fin n1 m1 e1, .fin n2 m2 e2 =>
    decide (fvAlign n1 m1 e1 (min e1 e2) < fvAlign n2 m2 e2 (min e1 e2))

/-- Equal as numbers; false where either is not a number. -/
def fvEq (a b : FV) : Bool :=
  match a, b with
  | .nan, _ => false
  | _, .nan => false
  | a, b => !fvLt a b && !fvLt b a

def fvLe (a b : FV) : Bool := fvLt a b || fvEq a b

def fvFinite : FV → Bool
  | .fin .. => true
  | _ => false

/-- The integer nearest to a finite value, ties to even; 0 for other values. -/
def fvRne : FV → Int
  | .fin n m e => let r : Int := ((shiftRne m (-e) : Nat) : Int); if n then -r else r
  | _ => 0

/-- The integer part of a finite value, toward minus infinity; 0 for other values. -/
def fvFloor : FV → Int
  | .fin n m e =>
    let v : Int := if n then -(m : Int) else m
    if 0 ≤ e then v * ((2 ^ e.toNat : Nat) : Int) else v / ((2 ^ (-e).toNat : Nat) : Int)
  | _ => 0

/-- The integer part of a finite value, toward zero; 0 for other values. -/
def fvTrunc : FV → Int
  | .fin n m e =>
    let r : Nat := if 0 ≤ e then m * 2 ^ e.toNat else m / 2 ^ (-e).toNat
    if n then -(r : Int) else r
  | _ => 0

/-- An integer quotient a / b as a value, exact up to a sticky last bit. -/
def fvRatio (a : Int) (b : Nat) : FV := fvDiv (fvOfInt a 0) (fvOfInt b 0)

/-! ### binary32 and binary64 operations by their bits -/

def v32 (x : F32) : FV := fdec fmt32 x.toNat
def v64 (x : F64) : FV := fdec fmt64 x.toNat
def r32 (v : FV) : F32 := BitVec.ofNat 32 (fenc fmt32 v)
def r64 (v : FV) : F64 := BitVec.ofNat 64 (fenc fmt64 v)

/-- A subnormal binary32 number replaced by zero of its sign (R266). -/
def flush32 (x : F32) : F32 :=
  if bits x.toNat 23 8 = 0 then BitVec.ofNat 32 (b2n (bitAt x.toNat 31) * 2 ^ 31) else x

def fadd (a b : F32) : F32 := r32 (fvAdd (v32 a) (v32 b))
def fsub (a b : F32) : F32 := r32 (fvSub (v32 a) (v32 b))
def fmul (a b : F32) : F32 := r32 (fvMul (v32 a) (v32 b))
def fdiv (a b : F32) : F32 := r32 (fvDiv (v32 a) (v32 b))
def fsqrt (a : F32) : F32 := r32 (fvSqrt (v32 a))
def fneg (a : F32) : F32 := a ^^^ 0x80000000#32
def fabs (a : F32) : F32 := a &&& 0x7FFFFFFF#32
def flt (a b : F32) : Bool := fvLt (v32 a) (v32 b)
def fle (a b : F32) : Bool := fvLe (v32 a) (v32 b)
def feq (a b : F32) : Bool := fvEq (v32 a) (v32 b)
def fmax (a b : F32) : F32 := if flt a b then b else a
def fmin (a b : F32) : F32 := if flt b a then b else a
def fofInt (x : Int) : F32 := r32 (fvOfInt x 0)
def fofNat (x : Nat) : F32 := fofInt x
/-- The binary32 number nearest to a / b. -/
def fratio (a : Int) (b : Nat) : F32 := r32 (fvRatio a b)
def isFinite32 (a : F32) : Bool := fvFinite (v32 a)
def isNaN32 (a : F32) : Bool := decide (v32 a = .nan)
def f32Zero : F32 := 0#32
def f32One : F32 := 0x3F800000#32

def dadd (a b : F64) : F64 := r64 (fvAdd (v64 a) (v64 b))
def dsub (a b : F64) : F64 := r64 (fvSub (v64 a) (v64 b))
def dmul (a b : F64) : F64 := r64 (fvMul (v64 a) (v64 b))
def ddiv (a b : F64) : F64 := r64 (fvDiv (v64 a) (v64 b))
def dneg (a : F64) : F64 := a ^^^ 0x8000000000000000#64
def dlt (a b : F64) : Bool := fvLt (v64 a) (v64 b)
def d2f (a : F64) : F32 := r32 (v64 a)
def f2d (a : F32) : F64 := r64 (v32 a)

end Sys2Proof.Machine
end

