-- ==== Sys2Proof/Machine/Quot.lean ====
section
/-!
DEFINITION. Exact fractions for the formulas that the manual gives without an arithmetic of their own.
-/

namespace Sys2Proof.Machine

/-- A fraction; the denominator is never 0 where the model builds one. -/
structure Q where
  num : Int
  den : Nat
deriving DecidableEq, Repr

def qi (n : Int) : Q := { num := n, den := 1 }
def qf (n : Int) (d : Nat) : Q := { num := n, den := d }
def qadd (a b : Q) : Q := { num := a.num * b.den + b.num * a.den, den := a.den * b.den }
def qneg (a : Q) : Q := { a with num := -a.num }
def qsub (a b : Q) : Q := qadd a (qneg b)
def qmul (a b : Q) : Q := { num := a.num * b.num, den := a.den * b.den }
/-- Quotient; 0 where the divisor is 0. -/
def qdiv (a b : Q) : Q :=
  if b.num = 0 then qi 0
  else if b.num < 0 then { num := -(a.num * b.den), den := a.den * b.num.natAbs }
  else { num := a.num * b.den, den := a.den * b.num.natAbs }
def qlt (a b : Q) : Bool := decide (a.num * b.den < b.num * a.den)
def qle (a b : Q) : Bool := decide (a.num * b.den ≤ b.num * a.den)
def qmin (a b : Q) : Q := if qlt b a then b else a
def qmax (a b : Q) : Q := if qlt a b then b else a
def qabs (a : Q) : Q := { a with num := (a.num.natAbs : Int) }
def qfloor (a : Q) : Int := a.num / (a.den : Int)
def qceil (a : Q) : Int := -((-a.num) / (a.den : Int))
/-- Nearest integer, ties to even. -/
def qround (a : Q) : Int := idivRne a.num a.den
/-- Nearest integer, ties up. -/
def qroundUp (a : Q) : Int := (2 * a.num + a.den) / (2 * (a.den : Int))

/-- The exact value of a finite binary32 number; 0 for others. -/
def qOfFV : FV → Q
  | .fin neg m e =>
    let v : Int := if neg then -(m : Int) else m
    if 0 ≤ e then qi (v * (2 ^ e.toNat : Nat)) else qf v (2 ^ (-e).toNat)
  | _ => qi 0

def q32 (x : F32) : Q := qOfFV (v32 x)
def q64 (x : F64) : Q := qOfFV (v64 x)
/-- The binary32 number nearest to a fraction. -/
def f32OfQ (a : Q) : F32 := if a.num = 0 then f32Zero else r32 (fvRatio a.num a.den)
def f64OfQ (a : Q) : F64 := if a.num = 0 then 0#64 else r64 (fvRatio a.num a.den)

end Sys2Proof.Machine
end

