-- ==== Sys2Proof/Machine/Elem.lean ====
section
/-!
DEFINITION. Elementary functions: series in fixed point with 256 fraction bits, from which a result is rounded once. The
error of a series is below 2^-240, and no value of these functions lies so near the middle of two binary32, binary64 or
angle values without being it, so the rounding is that of the exact value.
-/

namespace Sys2Proof.Machine

/-! ### Fixed point -/

/-- 1.0. -/
def fixOne : Int := 2 ^ 256

def fixMul (a b : Int) : Int := a * b / fixOne

/-- m * 2 ^ e as fixed point, cut off below. -/
def fixOfDyadic (neg : Bool) (m : Nat) (e : Int) : Int :=
  let k := e + 256
  let v : Nat := if 0 ≤ k then m * 2 ^ k.toNat else m / 2 ^ (-k).toNat
  if neg then -(v : Int) else v

/-- A fraction as fixed point. -/
def fixOfQ (a : Q) : Int := a.num * fixOne / (a.den : Int)

/-- Fixed point as a value to be rounded. -/
def fixFV (x : Int) : FV := fvOfInt x (-256)

/-! ### Series -/

/-- The sum of a series whose term k + 1 is term k times x / ((step k)): exp for step k = k + 1. -/
def serExp (x : Int) : Nat → Nat → Int → Int
  | 0, _, _ => 0
  | n + 1, k, t => t + serExp x n (k + 1) (fixMul t x / ((k + 1 : Nat) : Int))

/-- e to the x for |x| at most 1. -/
def fixExp (x : Int) : Int := serExp x 90 0 fixOne

/-- t + t^3 s / 3 + t^5 s^2 / 5 ..., with s = sq / t^2 = 1 for atanh and -1 for atan; p is the power so far. -/
def serOdd (sq : Int) : Nat → Nat → Int → Int
  | 0, _, _ => 0
  | n + 1, k, p => p / ((2 * k + 1 : Nat) : Int) + serOdd sq n (k + 1) (fixMul p sq)

def fixAtanh (t : Int) : Int := serOdd (fixMul t t) 140 0 t
def fixAtanSer (t : Int) : Int := serOdd (-(fixMul t t)) 140 0 t

def fixLn2 : Int := 2 * fixAtanh (fixOne / 3)

/-- π by Machin's formula. -/
def fixPi : Int := 16 * fixAtanSer (fixOne / 5) - 4 * fixAtanSer (fixOne / 239)

/-- Terms of sine and cosine: term k + 1 from term k with the two next factors. -/
def serSin (sq : Int) : Nat → Nat → Int → Int
  | 0, _, _ => 0
  | n + 1, k, t => t + serSin sq n (k + 2) (-(fixMul t sq / (((k + 1) * (k + 2) : Nat) : Int)))

def fixSin (x : Int) : Int := serSin (fixMul x x) 50 1 x
def fixCos (x : Int) : Int := serSin (fixMul x x) 50 0 fixOne

/-- The arc tangent of t for 0 ≤ t ≤ 1. -/
def fixAtan (t : Int) : Int :=
  if 2 * t ≤ fixOne then fixAtanSer t
  else fixPi / 4 - fixAtanSer ((fixOne - t) * fixOne / (fixOne + t))

/-! ### Sine and cosine of a turn -/

/-- Sine and cosine of 2 π q for a fraction q of a turn, by octants. -/
def turnSinCos (q : Q) : Int × Int :=
  let r := q.num % (q.den : Int)
  let d : Int := q.den
  let oct := (8 * r) / d
  let arg := fun (n : Int) => 2 * fixPi * n / d
  match oct.toNat with
  | 0 => (fixSin (arg r), fixCos (arg r))
  | 1 => (fixCos (arg d / 4 - arg r), fixSin (arg d / 4 - arg r))
  | 2 => (fixCos (arg r - arg d / 4), -(fixSin (arg r - arg d / 4)))
  | 3 => (fixSin (arg d / 2 - arg r), -(fixCos (arg d / 2 - arg r)))
  | 4 => (-(fixSin (arg r - arg d / 2)), -(fixCos (arg r - arg d / 2)))
  | 5 => (-(fixCos (3 * arg d / 4 - arg r)), -(fixSin (3 * arg d / 4 - arg r)))
  | 6 => (-(fixCos (arg r - 3 * arg d / 4)), fixSin (arg r - 3 * arg d / 4))
  | _ => (-(fixSin (arg d - arg r)), fixCos (arg d - arg r))

/-- A value so near 0 that only the cut of the series lies between is 0. -/
def fixClean (x : Int) : Int := if x.natAbs < 2 ^ 20 then 0 else x

/-- 2 ulp of the binade of a fixed-point value: 2^(E - 22). -/
def twoUlp (x : Int) : Nat := 2 ^ (max 108 (Nat.log2 x.natAbs - 22))

/-- A binary32 number lies within 2 ulp of a value. -/
def nearUlp (x : Int) (y : F32) : Bool :=
  match v32 y with
  | .fin g m e => decide ((fixOfDyadic g m e - x).natAbs ≤ twoUlp x)
  | _ => false

/-- A binary32 number moved by some places away from 0, or toward it; none where it would leave the normal numbers. -/
def movePlaces (r : F32) (d : Int) : Option F32 :=
  let n : Nat := r.toNat % 2147483648
  let c : Nat := ((n : Int) + d).toNat
  if decide (8388608 ≤ n) && decide (8388608 ≤ c) && decide (c < 2139095040) then some (BitVec.ofNat 32 (r.toNat - n + c))
  else none

/-- The binary32 numbers within 2 ulp of a value: the nearest one, moved by up to two places where the bound allows it
(R294, Tables 9-4 and 9-6). -/
def within2Ulp (x dev : Int) : F32 :=
  let r := flush32 (r32 (fixFV (fixClean x)))
  match movePlaces r (max (-2) (min 2 dev)) with
  | some y => if nearUlp x y then y else r
  | none => r

/-- Sine and cosine of an angle, within the bound of R294; where in it is free (log entry 4). -/
def sinTurn (th : W32) : F32 := within2Ulp (turnSinCos (qf th.toNat (2 ^ 32))).1 (Config.sinDev th)
def cosTurn (th : W32) : F32 := within2Ulp (turnSinCos (qf th.toNat (2 ^ 32))).2 (Config.cosDev th)

/-- Sine and cosine of 2 π a for a in turns (Table 9-6). -/
def sinF (a : F32) : F32 :=
  if isFinite32 a then within2Ulp (turnSinCos (q32 (flush32 a))).1 (Config.sinDev a) else r32 .nan
def cosF (a : F32) : F32 :=
  if isFinite32 a then within2Ulp (turnSinCos (q32 (flush32 a))).2 (Config.cosDev a) else r32 .nan

/-! ### Exponential and logarithm -/

/-- e to the x as a value, for x = k ln 2 + r. -/
def expFV (x : FV) : FV :=
  match x with
  | .nan => .nan
  | .inf n => if n then .fin false 0 0 else .inf false
  | .fin neg m e =>
    if m = 0 then .fin false 1 0
    else if 11 < e + (Nat.log2 m : Int) then (if neg then .fin false 0 0 else .inf false)
    else
      let v := fixOfDyadic neg m e
      let k := v / fixLn2
      .fin false (fixExp (v - k * fixLn2)).toNat (k - 256)

/-- 2 to the x as a value. -/
def pow2FV (x : FV) : FV :=
  match x with
  | .nan => .nan
  | .inf n => if n then .fin false 0 0 else .inf false
  | .fin neg m e =>
    if m ≠ 0 ∧ 11 < e + (Nat.log2 m : Int) then (if neg then .fin false 0 0 else .inf false)
    else
      let v := fixOfDyadic neg m e
      let k := v / fixOne
      .fin false (fixExp (fixMul (v - k * fixOne) fixLn2)).toNat (k - 256)

/-- ln of a positive finite value m * 2 ^ e. -/
def lnFix (m : Nat) (e : Int) : Int :=
  let l := Nat.log2 m
  -- the mantissa goes to 3/4 to 3/2, so that ln of a number near 1 keeps its bits
  let up := decide (3 * 2 ^ l < 2 * m)
  let d : Nat := if up then 2 ^ (l + 1) else 2 ^ l
  2 * fixAtanh (((m : Int) - d) * fixOne / ((m : Int) + d)) + (e + l + (if up then 1 else 0)) * fixLn2

/-- EXP, rounded once (R266). -/
def expF (a : F32) : F32 := flush32 (r32 (expFV (v32 (flush32 a))))
def expD (a : F64) : F64 := r64 (expFV (v64 a))
def pow2D (a : F64) : F64 := r64 (pow2FV (v64 a))

/-- LN, rounded once; the manual gives no logarithm of 0 or of a negative number, so that is free (log entry 4). -/
def lnF (a : F32) : F32 :=
  match v32 (flush32 a) with
  | .nan => r32 .nan
  | .inf false => 0x7F800000#32
  | .inf true => Config.lnF a
  | .fin neg m e => if neg || m = 0 then Config.lnF a else flush32 (r32 (fixFV (fixClean (lnFix m e))))

/-! ### Angle of a vector -/

/-- The angle of (x, y), not both 0, in turns from -1/2 to 1/2, fixed point; m * 2 ^ e each. -/
def angleFix (ny : Bool) (my : Nat) (ey : Int) (nx : Bool) (mx : Nat) (ex : Int) : Int :=
  let a := my * 2 ^ (ey - ex).toNat
  let b := mx * 2 ^ (ex - ey).toNat
  let turn := fun (t : Int) => t * fixOne / (2 * fixPi)
  let t := if a ≤ b then turn (fixAtan ((a : Int) * fixOne / b)) else fixOne / 4 - turn (fixAtan ((b : Int) * fixOne / a))
  let t := if nx then fixOne / 2 - t else t
  if ny then -t else t

/-- ATAN2 in turns, rounded once; (0, 0) and infinities have no value in the manual (log entry 4). -/
def atan2F (y x : F32) : F32 :=
  match v32 (flush32 y), v32 (flush32 x) with
  | .nan, _ => r32 .nan
  | _, .nan => r32 .nan
  | .fin ny my ey, .fin nx mx ex =>
    if my = 0 ∧ mx = 0 then Config.atan2F y x
    else if my = 0 ∧ nx = false then flush32 y
    else flush32 (r32 (fixFV (angleFix ny my ey nx mx ex)))
  | _, _ => Config.atan2F y x

/-- Fixed point turns as the nearest angle value, ties to even. -/
def angleOfFix (t : Int) : W32 := BitVec.ofInt 32 (idivRne (t * 2 ^ 32) (2 ^ 256))

/-- ANG of POLAR (R783); the manual gives none for a vector that is not finite (log entry 4). -/
def polarAngle (x y : F32) : W32 :=
  match v32 (flush32 x), v32 (flush32 y) with
  | .fin nx mx ex, .fin ny my ey => if my = 0 ∧ mx = 0 then 0#32 else angleOfFix (angleFix ny my ey nx mx ex)
  | _, _ => Config.polarAngle x y

/-- The angle of (i, q) of the correlator in turns; 0 for (0, 0), free where one is not finite. -/
def corrAngle (i q : F64) : Int :=
  match v64 q, v64 i with
  | .fin nq mq eq, .fin ni mi ei =>
    if mq = 0 ∧ mi = 0 then (Config.corrAngle i q).toNat * 2 ^ 224 else angleFix nq mq eq ni mi ei
  | _, _ => (Config.corrAngle i q).toNat * 2 ^ 224

/-- PHASE (R282): the difference of the two angles, under R6. -/
def injPhase (ir qr iu qu : F64) : W32 := angleOfFix (corrAngle ir qr - corrAngle iu qu)

/-- Sine and cosine of 2 π times a fraction of a turn in binary64 (R282). -/
def sinD (q : Q) : F64 := r64 (fixFV (fixClean (turnSinCos q).1))
def cosD (q : Q) : F64 := r64 (fixFV (fixClean (turnSinCos q).2))

/-- A sin 2 π q in binary32 (Table 7-5). -/
def sineOf (a : F32) (q : Q) : F32 :=
  match v32 a with
  | .fin n m e =>
    match fixFV (fixClean (turnSinCos q).1) with
    | .fin n2 m2 e2 => r32 (.fin (n != n2) (m * m2) (e + e2))
    | _ => a
  | _ => a

end Sys2Proof.Machine
end

