-- ==== Sys2Proof/Machine/Params.lean ====
section
/-!
DEFINITION. The parameter tables of every chapter (R10, R643): index, name, type, range, default, unit and when a
write takes effect, and the checks of one value (R7, R644, R779).
-/

namespace Sys2Proof.Machine

/-- The types of the parameter tables. -/
inductive PType where
  | bool | enum | u8 | i8 | u16 | i16 | u32 | f32 | record
deriving DecidableEq, Repr

/-- The range column: integer ranges, a binary32 range, a range that also takes 0, greater than 0, finite, or a record. -/
inductive PCheck where
  | ints (rs : List (Int × Int))
  | flt (lo hi : F32)
  | fltZ (lo hi : F32)
  | fltPos
  | fltFin
  | record
deriving DecidableEq, Repr

/-- When a write takes effect (Table 0-6). -/
inductive PEffect where
  | now | nextCycle | atCommit | readyOnly
deriving DecidableEq, Repr

/-- One row of a parameter table; index base + i * s1 + j * s2 for i < n1 and j < n2. -/
structure PRow where
  base : Nat
  n1 : Nat
  s1 : Nat
  n2 : Nat
  s2 : Nat
  name : String
  ty : PType
  check : PCheck
  dflt : Nat
  step : Option (Nat × Nat)
  eff : PEffect
  unit : String
deriving DecidableEq, Repr

def prow (base n1 s1 n2 s2 : Nat) (name : String) (ty : PType) (check : PCheck) (dflt : Nat)
    (step : Option (Nat × Nat)) (eff : PEffect) (unit : String) : PRow :=
  { base := base, n1 := n1, s1 := s1, n2 := n2, s2 := s2, name := name, ty := ty, check := check, dflt := dflt,
    step := step, eff := eff, unit := unit }

/-- Parameter rows, part 1, in rising index. -/
def paramRows1 : List PRow := [
  prow 0x0010 1 0 1 0 "cycle.n" .u8 (.ints [(8, 128)]) 16 (none) .readyOnly "",
  prow 0x0011 1 0 1 0 "cycle.phase" .u16 (.ints [(0, 31999)]) 0 (none) .readyOnly "FRC ticks",
  prow 0x0012 1 0 1 0 "cycle.overrun_block" .u8 (.ints [(1, 16)]) 3 (none) .nextCycle "overruns",
  prow 0x0013 1 0 1 0 "cycle.keepalive" .f32 (.flt 0x40A00000#32 0x42200000#32) 0x41A00000 (none) .nextCycle "µs",
  prow 0x0020 12 1 1 0 "cycle.arm[#].rep_deadline" .f32 (.fltZ 0x3F000000#32 0x42800000#32) 0x00000000 (none) .nextCycle "µs after t0",
  prow 0x1000 1 0 1 0 "model.side0.arrangement" .enum (.ints [(0, 4)]) 0 (none) .readyOnly "",
  prow 0x1001 1 0 1 0 "model.side1.arrangement" .enum (.ints [(0, 4)]) 0 (none) .readyOnly "",
  prow 0x1002 1 0 1 0 "model.coupling" .enum (.ints [(0, 2)]) 0 (none) .readyOnly "",
  prow 0x1010 12 1 1 0 "model.arm[#].enable" .bool (.ints [(0, 1)]) 0 (none) .readyOnly "",
  prow 0x1020 12 1 1 0 "model.arm[#].reserve_promote" .enum (.ints [(0, 1)]) 1 (none) .nextCycle "",
  prow 0x1030 12 1 1 0 "model.arm[#].min_available" .u16 (.ints [(1, 1024)]) 1 (none) .nextCycle "cells",
  prow 0x1040 12 1 1 0 "model.arm[#].bypass_confirm" .f32 (.flt 0x3DCCCCCD#32 0x42480000#32) 0x40A00000 (none) .nextCycle "ms",
  prow 0x1100 1 0 1 0 "link.echo_avg" .u8 (.ints [(16, 64)]) 16 (none) .nextCycle "samples",
  prow 0x1101 1 0 1 0 "link.loss_time" .f32 (.flt 0x3E4CCCCD#32 0x41200000#32) 0x3F800000 (none) .nextCycle "µs",
  prow 0x1102 1 0 1 0 "link.timemark_interval" .f32 (.flt 0x3DCCCCCD#32 0x42C80000#32) 0x3F800000 (none) .nextCycle "ms",
  prow 0x1103 1 0 1 0 "link.ring_reverse" .bool (.ints [(0, 1)]) 1 (none) .nextCycle "",
  prow 0x1104 1 0 1 0 "link.rev_max_age" .f32 (.flt 0x3F800000#32 0x447A0000#32) 0x42C80000 (none) .nextCycle "ms",
  prow 0x1105 1 0 1 0 "link.corr_gap" .u16 (.ints [(1, 1000)]) 8 (none) .nextCycle "cycles",
  prow 0x1106 1 0 1 0 "link.code_err_limit" .u8 (.ints [(1, 255)]) 8 (none) .nextCycle "violations per µs",
  prow 0x2000 12 1 1 0 "rank.arm[#].i_src" .u8 (.ints [(0, 47)]) 0 (none) .readyOnly "",
  prow 0x2010 12 1 1 0 "rank.arm[#].i_invert" .bool (.ints [(0, 1)]) 0 (none) .readyOnly "",
  prow 0x2020 12 1 1 0 "rank.arm[#].i_mode" .enum (.ints [(0, 1)]) 0 (none) .nextCycle "",
  prow 0x2030 12 1 1 0 "rank.arm[#].deadband" .f32 (.flt 0x00000000#32 0x41200000#32) 0x3F000000 (none) .nextCycle "% of input full scale",
  prow 0x2040 12 1 1 0 "rank.arm[#].hold_band" .f32 (.flt 0x00000000#32 0x41A00000#32) 0x3F800000 (none) .nextCycle "% of ceiling",
  prow 0x2050 12 1 1 0 "rank.arm[#].w_temp" .f32 (.flt 0x00000000#32 0x3F800000#32) 0x3CA3D70A (none) .nextCycle "% of ceiling per K",
  prow 0x2060 12 1 1 0 "rank.arm[#].temp_ref" .f32 (.flt 0xC2200000#32 0x43160000#32) 0x42A00000 (none) .nextCycle "°C",
  prow 0x2070 12 1 1 0 "rank.arm[#].w_wear" .f32 (.flt 0x00000000#32 0x41200000#32) 0x3F800000 (none) .nextCycle "% of ceiling at wear index 65,535",
  prow 0x2080 12 1 1 0 "rank.arm[#].pen_max" .f32 (.flt 0x00000000#32 0x41200000#32) 0x40400000 (none) .nextCycle "% of ceiling",
  prow 0x2090 12 1 1 0 "rank.arm[#].reserve_offset" .f32 (.flt 0x00000000#32 0x41A00000#32) 0x40000000 (none) .nextCycle "% of ceiling",
  prow 0x3000 12 1 1 0 "mod.arm[#].mode" .enum (.ints [(0, 1)]) 0 (none) .readyOnly "",
  prow 0x3010 12 1 1 0 "edge.arm[#].dead_time" .f32 (.flt 0x00000000#32 0x41800000#32) 0x40000000 (some (1, 4000)) .readyOnly "µs",
  prow 0x3020 12 1 1 0 "edge.arm[#].min_on" .f32 (.flt 0x00000000#32 0x41800000#32) 0x3F000000 (none) .nextCycle "µs",
  prow 0x3030 12 1 1 0 "edge.arm[#].min_off" .f32 (.flt 0x00000000#32 0x41800000#32) 0x3F000000 (none) .nextCycle "µs",
  prow 0x3040 12 1 1 0 "edge.arm[#].pulse_policy" .enum (.ints [(0, 2)]) 0 (none) .nextCycle "",
  prow 0x3050 12 1 1 0 "edge.arm[#].res_max" .f32 (.flt 0x00000000#32 0x40800000#32) 0x3F800000 (none) .nextCycle "cell-equivalents",
  prow 0x3060 12 1 1 0 "psc.arm[#].k_bal" .f32 (.flt 0x00000000#32 0x3F800000#32) 0x3D4CCCCD (none) .nextCycle "",
  prow 0x3070 12 1 1 0 "psc.arm[#].period0" .f32 (.flt 0x41000000#32 0x47C35000#32) 0x44FA0000 (none) .readyOnly "µs",
  prow 0x3100 12 8 4 1 "edge.arm[#].rise[#]" .f32 (.flt 0x00000000#32 0x41800000#32) 0x00000000 (some (1, 4000)) .readyOnly "µs",
  prow 0x3104 12 8 4 1 "edge.arm[#].fall[#]" .f32 (.flt 0x00000000#32 0x41800000#32) 0x00000000 (some (1, 4000)) .readyOnly "µs",
  prow 0x3200 32 1 1 0 "trip.in[#].filter" .f32 (.flt 0x00000000#32 0x40000000#32) 0x3DCCCCCD (none) .nextCycle "µs"]

/-- Parameter rows, part 2, in rising index. -/
def paramRows2 : List PRow := [
  prow 0x3220 32 1 1 0 "trip.in[#].polarity" .enum (.ints [(0, 1)]) 0 (none) .nextCycle "",
  prow 0x3240 32 1 1 0 "trip.in[#].blank" .f32 (.flt 0x00000000#32 0x41200000#32) 0x00000000 (none) .nextCycle "µs",
  prow 0x3260 32 1 1 0 "trip.in[#].blank_arms" .u16 (.ints [(0, 4095)]) 0x0000 (none) .nextCycle "",
  prow 0x3280 32 1 1 0 "trip.in[#].open_cmd" .u8 (.ints [(0, 7)]) 0 (none) .nextCycle "",
  prow 0x3400 32 16 13 1 "trip.map[#][#]" .enum (.ints [(0, 3)]) 0 (none) .nextCycle "",
  prow 0x4000 64 1 1 0 "gov.loop[#].n_sec" .u8 (.ints [(1, 32)]) 1 (none) .readyOnly "sections",
  prow 0x4040 64 1 1 0 "gov.loop[#].int_sec" .u8 (.ints [(0, 31), (255, 255)]) 255 (none) .readyOnly "",
  prow 0x4080 64 1 1 0 "gov.loop[#].int_sign" .enum (.ints [(0, 1)]) 0 (none) .nextCycle "",
  prow 0x40C0 64 1 1 0 "gov.loop[#].bumpless" .bool (.ints [(0, 1)]) 1 (none) .nextCycle "",
  prow 0x4100 64 1 1 0 "gov.loop[#].lim_src" .enum (.ints [(0, 1)]) 0 (none) .nextCycle "",
  prow 0x4140 64 1 1 0 "gov.loop[#].init_bank" .enum (.ints [(0, 1)]) 0 (none) .atCommit "",
  prow 0x4180 64 1 1 0 "gov.loop[#].bank_req" .enum (.ints [(0, 1)]) 0 (none) .nextCycle "",
  prow 0x41C0 64 1 1 0 "gov.loop[#].twin_copy" .bool (.ints [(0, 1)]) 1 (none) .readyOnly "",
  prow 0x4200 64 2 2 1 "gov.loop[#].bank[#]" .record (.record) 0 (none) .now "",
  prow 0x4400 8 16 1 0 "gov.inj[#].loop" .u8 (.ints [(0, 7)]) 0 (none) .now "",
  prow 0x4401 8 16 1 0 "gov.inj[#].point" .enum (.ints [(0, 2)]) 0 (none) .now "",
  prow 0x4402 8 16 1 0 "gov.inj[#].mode" .enum (.ints [(0, 3)]) 3 (none) .now "",
  prow 0x4403 8 16 1 0 "gov.inj[#].amp" .f32 (.fltFin) 0x00000000 (none) .now "loop units",
  prow 0x4404 8 16 1 0 "gov.inj[#].f0" .f32 (.flt 0x3C23D70A#32 0x47742400#32) 0x42480000 (none) .now "Hz",
  prow 0x4405 8 16 1 0 "gov.inj[#].f1" .f32 (.flt 0x3C23D70A#32 0x47742400#32) 0x447A0000 (none) .now "Hz",
  prow 0x4406 8 16 1 0 "gov.inj[#].duration" .f32 (.flt 0x00000000#32 0x49127C00#32) 0x00000000 (none) .now "ms",
  prow 0x4407 8 16 1 0 "gov.inj[#].prbs_bits" .u8 (.ints [(7, 15)]) 11 (none) .now "stages",
  prow 0x4408 8 16 1 0 "gov.inj[#].prbs_div" .u8 (.ints [(1, 255)]) 1 (none) .now "cycles",
  prow 0x4409 8 16 1 0 "gov.inj[#].n_settle" .u16 (.ints [(0, 1000)]) 10 (none) .now "periods",
  prow 0x440A 8 16 1 0 "gov.inj[#].n_int" .u16 (.ints [(1, 10000)]) 20 (none) .now "periods",
  prow 0x440B 8 16 1 0 "gov.inj[#].resp" .enum (.ints [(0, 2)]) 1 (none) .now "",
  prow 0x440C 8 16 1 0 "gov.inj[#].cmd" .enum (.ints [(0, 2)]) 0 (none) .nextCycle "",
  prow 0x5000 4 64 1 0 "ft.unit[#].mode" .enum (.ints [(0, 2)]) 0 (none) .readyOnly "",
  prow 0x5001 4 64 1 0 "ft.unit[#].form" .enum (.ints [(0, 1)]) 0 (none) .nextCycle "",
  prow 0x5002 4 64 1 0 "ft.unit[#].ain_a" .u8 (.ints [(0, 47)]) 0 (none) .readyOnly "",
  prow 0x5003 4 64 1 0 "ft.unit[#].ain_b" .u8 (.ints [(0, 47)]) 1 (none) .readyOnly "",
  prow 0x5004 4 64 1 0 "ft.unit[#].ain_c" .u8 (.ints [(0, 47)]) 2 (none) .readyOnly "",
  prow 0x5005 4 64 1 0 "ft.unit[#].src" .enum (.ints [(0, 1)]) 0 (none) .readyOnly "",
  prow 0x5006 4 64 1 0 "ft.unit[#].f_nom" .f32 (.flt 0x3F800000#32 0x447A0000#32) 0x42480000 (none) .readyOnly "Hz",
  prow 0x5007 4 64 1 0 "ft.unit[#].f_min" .f32 (.flt 0x3F800000#32 0x447A0000#32) 0x42340000 (none) .nextCycle "Hz",
  prow 0x5008 4 64 1 0 "ft.unit[#].f_max" .f32 (.flt 0x3F800000#32 0x447A0000#32) 0x425C0000 (none) .nextCycle "Hz",
  prow 0x5009 4 64 1 0 "ft.unit[#].k_sogi" .f32 (.flt 0x3DCCCCCD#32 0x40800000#32) 0x3FB4FDF4 (none) .nextCycle "",
  prow 0x500A 4 64 1 0 "ft.unit[#].kp" .f32 (.flt 0x00000000#32 0x447A0000#32) 0x41A00000 (none) .nextCycle "Hz per unit",
  prow 0x500B 4 64 1 0 "ft.unit[#].ki" .f32 (.flt 0x00000000#32 0x47C35000#32) 0x43C80000 (none) .nextCycle "Hz/s per unit",
  prow 0x500C 4 64 1 0 "ft.unit[#].a_min" .f32 (.flt 0x3A83126F#32 0x3F000000#32) 0x3D4CCCCD (none) .nextCycle "per unit of full scale"]

/-- Parameter rows, part 3, in rising index. -/
def paramRows3 : List PRow := [
  prow 0x500D 4 64 1 0 "ft.unit[#].lock_err" .f32 (.flt 0x3A83126F#32 0x3F000000#32) 0x3CA3D70A (none) .nextCycle "per unit",
  prow 0x500E 4 64 1 0 "ft.unit[#].lock_time" .f32 (.flt 0x3F800000#32 0x461C4000#32) 0x42C80000 (none) .nextCycle "ms",
  prow 0x500F 4 64 1 0 "ft.unit[#].rmp" .u8 (.ints [(0, 31)]) 0 (none) .readyOnly "",
  prow 0x5010 4 64 1 0 "ft.unit[#].k_droop" .f32 (.flt 0x00000000#32 0x447A0000#32) 0x00000000 (none) .nextCycle "Hz per droop unit",
  prow 0x5011 4 64 1 0 "ft.unit[#].seed_ramp" .bool (.ints [(0, 1)]) 1 (none) .nextCycle "",
  prow 0x5012 4 64 1 0 "ft.unit[#].master" .u8 (.ints [(0, 3)]) 0 (none) .readyOnly "",
  prow 0x5013 4 64 1 0 "ft.unit[#].num" .i8 (.ints [(-64, -1), (1, 64)]) 1 (none) .readyOnly "",
  prow 0x5014 4 64 1 0 "ft.unit[#].den" .u8 (.ints [(1, 64)]) 1 (none) .readyOnly "",
  prow 0x5015 4 64 1 0 "ft.unit[#].phi" .u32 (.ints [(0, 4294967295)]) 0 (none) .readyOnly "",
  prow 0x5016 4 64 1 0 "ft.unit[#].next_num" .i8 (.ints [(-64, -1), (1, 64)]) 1 (none) .now "",
  prow 0x5017 4 64 1 0 "ft.unit[#].next_den" .u8 (.ints [(1, 64)]) 1 (none) .now "",
  prow 0x5018 4 64 1 0 "ft.unit[#].next_phi" .u32 (.ints [(0, 4294967295)]) 0 (none) .now "",
  prow 0x5019 4 64 1 0 "ft.unit[#].next_tx" .u32 (.ints [(0, 4294967295)]) 0 (none) .now "",
  prow 0x501A 4 64 1 0 "ft.unit[#].next_phase_mode" .enum (.ints [(0, 1)]) 1 (none) .now "",
  prow 0x501B 4 64 1 0 "ft.unit[#].gear_cmd" .enum (.ints [(0, 2)]) 0 (none) .now "",
  prow 0x5100 16 16 1 0 "rpc[#].fantail" .u8 (.ints [(0, 3)]) 0 (none) .readyOnly "",
  prow 0x5101 16 16 1 0 "rpc[#].len" .u16 (.ints [(16, 4096)]) 1024 (none) .readyOnly "cells",
  prow 0x5102 16 16 1 0 "rpc[#].k_r" .f32 (.flt 0x00000000#32 0x3F800000#32) 0x3CA3D70A (none) .nextCycle "",
  prow 0x5103 16 16 1 0 "rpc[#].q" .f32 (.flt 0x3F666666#32 0x3F800000#32) 0x3F7EB852 (none) .nextCycle "",
  prow 0x5104 16 16 1 0 "rpc[#].lead" .f32 (.flt 0x00000000#32 0x42800000#32) 0x00000000 (none) .nextCycle "calls",
  prow 0x5105 16 16 1 0 "rpc[#].y_max" .f32 (.fltPos) 0x3F800000 (none) .nextCycle "output units",
  prow 0x5106 16 16 1 0 "rpc[#].freeze_unlock" .bool (.ints [(0, 1)]) 1 (none) .nextCycle "",
  prow 0x5200 32 16 1 0 "ramp.rmp[#].v_start" .f32 (.fltPos) 0x3F800000 (none) .nextCycle "unit/s",
  prow 0x5201 32 16 1 0 "ramp.rmp[#].v_stop" .f32 (.fltPos) 0x3F800000 (none) .nextCycle "unit/s",
  prow 0x5202 32 16 1 0 "ramp.rmp[#].v_knee" .f32 (.fltPos) 0x41200000 (none) .nextCycle "unit/s",
  prow 0x5203 32 16 1 0 "ramp.rmp[#].a1" .f32 (.fltPos) 0x41200000 (none) .nextCycle "unit/s²",
  prow 0x5204 32 16 1 0 "ramp.rmp[#].a2" .f32 (.fltPos) 0x41200000 (none) .nextCycle "unit/s²",
  prow 0x5205 32 16 1 0 "ramp.rmp[#].d1" .f32 (.fltPos) 0x41200000 (none) .nextCycle "unit/s²",
  prow 0x5206 32 16 1 0 "ramp.rmp[#].d2" .f32 (.fltPos) 0x41200000 (none) .nextCycle "unit/s²",
  prow 0x5207 32 16 1 0 "ramp.rmp[#].x_init" .f32 (.fltFin) 0x00000000 (none) .atCommit "unit",
  prow 0x5208 32 16 1 0 "ramp.rmp[#].move" .record (.record) 0 (none) .now "unit, unit/s",
  prow 0x5209 32 16 1 0 "ramp.rmp[#].cmd" .enum (.ints [(0, 3)]) 0 (none) .now "",
  prow 0x520A 32 16 1 0 "ramp.rmp[#].set_value" .f32 (.fltFin) 0x00000000 (none) .now "unit",
  prow 0x6000 64 1 1 0 "queue[#].depth" .u16 (.ints [(0, 0), (4, 256)]) 0 (none) .readyOnly "entries",
  prow 0x6040 64 1 1 0 "queue[#].base" .u32 (.ints [(0, 4294967295)]) 0 (none) .readyOnly "",
  prow 0x6080 64 1 1 0 "queue[#].hw_src" .enum (.ints [(0, 3)]) 0 (none) .readyOnly "",
  prow 0x60C0 64 1 1 0 "queue[#].hw_arg" .u16 (.ints [(0, 65535)]) 0 (none) .readyOnly "",
  prow 0x6120 15 32 32 1 "part[#].win[#]" .record (.record) 0 (none) .readyOnly "",
  prow 0x6300 32 1 1 0 "dma.ch[#].owner" .u16 (.ints [(0, 255), (65535, 65535)]) 0xFFFF (none) .readyOnly "",
  prow 0x6320 32 1 1 0 "dma.ch[#].class" .enum (.ints [(0, 1)]) 1 (none) .nextCycle ""]

/-- Parameter rows, part 4, in rising index. -/
def paramRows4 : List PRow := [
  prow 0x6340 32 1 1 0 "dma.ch[#].max_out" .u8 (.ints [(1, 16)]) 8 (none) .nextCycle "reads",
  prow 0x7000 4 1 1 0 "adc.unit[#].ref_mode" .enum (.ints [(0, 1)]) 0 (none) .readyOnly "",
  prow 0x7004 4 1 1 0 "adc.unit[#].seq_len" .u8 (.ints [(1, 32)]) 16 (none) .readyOnly "entries",
  prow 0x7008 4 1 1 0 "adc.unit[#].bg_cal" .bool (.ints [(0, 1)]) 1 (none) .nextCycle "",
  prow 0x700C 4 1 1 0 "adc.unit[#].cal_cmd" .enum (.ints [(0, 2)]) 0 (none) .now "",
  prow 0x7010 4 1 1 0 "adc.test[#].input" .u8 (.ints [(0, 63), (255, 255)]) 0xFF (none) .nextCycle "",
  prow 0x7014 4 1 1 0 "adc.test[#].code" .i16 (.ints [(-8192, 8191)]) 0 (none) .nextCycle "",
  prow 0x7100 4 32 32 1 "adc.unit[#].seq[#]" .u8 (.ints [(0, 63)]) 0 (none) .readyOnly "",
  prow 0x7200 4 16 4 1 "adc.inj[#].entry[#]" .u8 (.ints [(0, 63), (255, 255)]) 0xFF (none) .nextCycle "",
  prow 0x7204 4 16 1 0 "adc.inj[#].trig" .enum (.ints [(0, 5)]) 0 (none) .nextCycle "",
  prow 0x7205 4 16 1 0 "adc.inj[#].trig_arg" .u8 (.ints [(0, 255)]) 0 (none) .nextCycle "",
  prow 0x7206 4 16 1 0 "adc.inj[#].delay" .f32 (.flt 0x00000000#32 0x41200000#32) 0x00000000 (none) .nextCycle "µs",
  prow 0x7300 64 1 1 0 "adc.in[#].ratio" .bool (.ints [(0, 1)]) 0 (none) .readyOnly "",
  prow 0x7340 64 1 1 0 "adc.in[#].ow_current" .enum (.ints [(0, 3)]) 0 (none) .nextCycle "",
  prow 0x7380 64 1 1 0 "adc.in[#].ow_limit" .f32 (.flt 0x3C23D70A#32 0x3F800000#32) 0x3F000000 (none) .nextCycle "per unit",
  prow 0x73C0 64 1 1 0 "adc.in[#].ext_delay" .f32 (.flt 0x00000000#32 0x42C80000#32) 0x00000000 (none) .nextCycle "µs",
  prow 0x7400 16 16 1 0 "adc.cmp[#].enable" .bool (.ints [(0, 1)]) 0 (none) .nextCycle "",
  prow 0x7401 16 16 1 0 "adc.cmp[#].ain" .u8 (.ints [(0, 47)]) 0 (none) .nextCycle "",
  prow 0x7402 16 16 1 0 "adc.cmp[#].lo1" .f32 (.flt 0xC003126F#32 0x4003020C#32) 0xC003126F (none) .nextCycle "V",
  prow 0x7403 16 16 1 0 "adc.cmp[#].hi1" .f32 (.flt 0xC003126F#32 0x4003020C#32) 0x4003020C (none) .nextCycle "V",
  prow 0x7404 16 16 1 0 "adc.cmp[#].lo2" .f32 (.flt 0xC003126F#32 0x4003020C#32) 0xC003126F (none) .nextCycle "V",
  prow 0x7405 16 16 1 0 "adc.cmp[#].hi2" .f32 (.flt 0xC003126F#32 0x4003020C#32) 0x4003020C (none) .nextCycle "V",
  prow 0x7406 16 16 1 0 "adc.cmp[#].hyst" .f32 (.flt 0x00000000#32 0x3E4CCCCD#32) 0x3C23D70A (none) .nextCycle "V",
  prow 0x7407 16 16 1 0 "adc.cmp[#].filter1" .f32 (.flt 0x00000000#32 0x40000000#32) 0x3DCCCCCD (none) .nextCycle "µs",
  prow 0x8000 1 0 1 0 "rec.buffers" .enum (.ints [(0, 3)]) 0 (none) .now "",
  prow 0x8001 1 0 1 0 "rec.row_div" .u16 (.ints [(1, 1024)]) 1 (none) .now "cycles",
  prow 0x8002 1 0 1 0 "rec.pre_frac" .f32 (.flt 0x00000000#32 0x3F800000#32) 0x3E800000 (none) .now "",
  prow 0x8003 1 0 1 0 "rec.post" .u32 (.ints [(1, 2147483647)]) 1000 (none) .now "rows",
  prow 0x8004 1 0 1 0 "rec.rearm" .bool (.ints [(0, 1)]) 0 (none) .now "",
  prow 0x8100 64 1 1 0 "rec.ch[#].src" .enum (.ints [(0, 10)]) 0 (none) .now "",
  prow 0x8140 64 1 1 0 "rec.ch[#].arg" .u16 (.ints [(0, 65535)]) 0 (none) .now "",
  prow 0x8180 64 1 1 0 "rec.ch[#].arg2" .u16 (.ints [(0, 65535)]) 1 (none) .now "",
  prow 0x8200 16 8 1 0 "rec.trg[#].type" .enum (.ints [(0, 9)]) 0 (none) .now "",
  prow 0x8201 16 8 1 0 "rec.trg[#].ch" .u8 (.ints [(0, 63)]) 0 (none) .now "",
  prow 0x8202 16 8 1 0 "rec.trg[#].arg" .u16 (.ints [(0, 65535)]) 0 (none) .now "",
  prow 0x8203 16 8 1 0 "rec.trg[#].a" .f32 (.fltFin) 0x00000000 (none) .now "channel units",
  prow 0x8204 16 8 1 0 "rec.trg[#].b" .f32 (.fltFin) 0x00000000 (none) .now "channel units",
  prow 0x8205 16 8 1 0 "rec.trg[#].span" .u8 (.ints [(1, 64)]) 1 (none) .now "samples",
  prow 0x8206 16 8 1 0 "rec.trg[#].fire" .bool (.ints [(0, 1)]) 0 (none) .now "",
  prow 0x9000 1 0 1 0 "tent.update" .f32 (.flt 0x3DCCCCCD#32 0x41200000#32) 0x3F800000 (none) .nextCycle "s"]

/-- Parameter rows, part 5, in rising index. -/
def paramRows5 : List PRow := [
  prow 0x9001 1 0 1 0 "tent.c_tau" .f32 (.flt 0x3F800000#32 0x45610000#32) 0x41A00000 (none) .nextCycle "s",
  prow 0x9002 1 0 1 0 "tent.c_qual_time" .f32 (.flt 0x41200000#32 0x44160000#32) 0x42700000 (none) .nextCycle "s",
  prow 0x9003 1 0 1 0 "tent.chg_tol" .f32 (.flt 0x3DCCCCCD#32 0x41200000#32) 0x3F000000 (none) .nextCycle "µs",
  prow 0x9010 12 1 1 0 "tent.arm[#].i_fs" .f32 (.flt 0x3F800000#32 0x47C35000#32) 0x459C4000 (none) .nextCycle "A at full scale",
  prow 0x9020 12 1 1 0 "tent.arm[#].i_rated" .f32 (.flt 0x3F800000#32 0x47C35000#32) 0x447A0000 (none) .nextCycle "A RMS",
  prow 0x9030 12 1 1 0 "tent.arm[#].dtj_per_a" .f32 (.flt 0x00000000#32 0x3F800000#32) 0x00000000 (none) .nextCycle "K/A",
  prow 0x9040 12 1 1 0 "tent.arm[#].ceil_k" .f32 (.flt 0x00000000#32 0x40000000#32) 0x3F000000 (none) .nextCycle "",
  prow 0x9050 12 1 1 0 "tent.arm[#].ceil_min" .f32 (.flt 0x42480000#32 0x42C80000#32) 0x42AA0000 (none) .nextCycle "% of V_CEIL",
  prow 0x9060 12 1 1 0 "tent.arm[#].c_eol" .f32 (.flt 0x3F800000#32 0x42480000#32) 0x41200000 (none) .nextCycle "% capacitance loss",
  prow 0x9070 12 1 1 0 "tent.arm[#].von_eol" .f32 (.flt 0x3F800000#32 0x42C80000#32) 0x41A00000 (none) .nextCycle "% rise",
  prow 0x9080 12 1 1 0 "tent.arm[#].life_hours" .f32 (.flt 0x447A0000#32 0x49742400#32) 0x48927C00 (none) .nextCycle "h",
  prow 0x9090 12 1 1 0 "tent.arm[#].temp_life" .f32 (.flt 0xC2200000#32 0x43160000#32) 0x42A00000 (none) .nextCycle "°C",
  prow 0x90A0 12 1 1 0 "tent.arm[#].retire_wear" .u16 (.ints [(1, 65535)]) 62000 (none) .nextCycle "",
  prow 0x90B0 12 1 1 0 "tent.arm[#].retire_mode" .enum (.ints [(0, 2)]) 1 (none) .nextCycle "",
  prow 0x9100 1 0 1 0 "tent.si.slack_target" .f32 (.flt 0x41A00000#32 0x43480000#32) 0x42700000 (none) .nextCycle "ps",
  prow 0x9101 1 0 1 0 "tent.si.guard" .f32 (.flt 0x00000000#32 0x40000000#32) 0x3E99999A (none) .nextCycle "ps/K",
  prow 0x9102 1 0 1 0 "tent.si.v_fb" .f32 (.flt 0x3F266666#32 0x3F59999A#32) 0x3F4CCCCD (none) .readyOnly "V",
  prow 0x9103 1 0 1 0 "tent.si.v_max" .f32 (.flt 0x3F266666#32 0x3F59999A#32) 0x3F59999A (none) .readyOnly "V",
  prow 0x9104 1 0 1 0 "tent.si.fwd_bias" .bool (.ints [(0, 1)]) 1 (none) .readyOnly "",
  prow 0x9105 1 0 1 0 "tent.si.sram_min" .u8 (.ints [(1, 15)]) 3 (none) .nextCycle "margin codes",
  prow 0xA000 16 1 1 0 "seq.sc[#].debounce" .f32 (.flt 0x3F800000#32 0x42C80000#32) 0x41200000 (none) .nextCycle "ms",
  prow 0xA010 16 1 1 0 "seq.sc[#].polarity" .enum (.ints [(0, 1)]) 0 (none) .nextCycle "",
  prow 0xA020 1 0 1 0 "seq.role.main_aux" .u8 (.ints [(0, 15)]) 0 (none) .readyOnly "",
  prow 0xA021 1 0 1 0 "seq.role.bypass_aux" .u8 (.ints [(0, 15)]) 1 (none) .readyOnly "",
  prow 0xA022 1 0 1 0 "seq.role.permit" .u8 (.ints [(0, 15), (255, 255)]) 0xFF (none) .readyOnly "",
  prow 0xA023 1 0 1 0 "seq.cmd.main" .u8 (.ints [(0, 7)]) 0 (none) .readyOnly "",
  prow 0xA024 1 0 1 0 "seq.cmd.bypass" .u8 (.ints [(0, 7)]) 1 (none) .readyOnly "",
  prow 0xA030 1 0 1 0 "seq.breaker_time" .f32 (.flt 0x41200000#32 0x44FA0000#32) 0x43480000 (none) .nextCycle "ms",
  prow 0xA031 1 0 1 0 "seq.discover_time" .f32 (.flt 0x3DCCCCCD#32 0x42700000#32) 0x41200000 (none) .nextCycle "s",
  prow 0xA032 1 0 1 0 "seq.charge_time" .f32 (.flt 0x3DCCCCCD#32 0x44160000#32) 0x41F00000 (none) .nextCycle "s",
  prow 0xA033 1 0 1 0 "seq.v_safe" .f32 (.flt 0x00000000#32 0x457FF000#32) 0x42480000 (none) .nextCycle "V",
  prow 0xA034 1 0 1 0 "seq.discharge_time" .f32 (.flt 0x3F800000#32 0x45610000#32) 0x44160000 (none) .nextCycle "s",
  prow 0xA040 12 1 1 0 "seq.arm[#].v_bypass" .f32 (.flt 0x00000000#32 0x4A800000#32) 0x00000000 (none) .nextCycle "V",
  prow 0xB000 8 1 1 0 "spb.si[#].enable" .bool (.ints [(0, 1)]) 0 (none) .atCommit "",
  prow 0xB008 8 1 1 0 "spb.si[#].mode" .enum (.ints [(0, 1)]) 0 (none) .atCommit "",
  prow 0xB010 8 1 1 0 "spb.si[#].discrepancy" .f32 (.flt 0x40A00000#32 0x44FA0000#32) 0x42C80000 (none) .atCommit "ms",
  prow 0xB018 8 1 1 0 "spb.si[#].filter" .f32 (.flt 0x3F800000#32 0x40A00000#32) 0x40400000 (none) .atCommit "µs",
  prow 0xB020 8 1 1 0 "spb.si[#].so_mask" .u8 (.ints [(0, 15)]) 0xF (none) .atCommit "",
  prow 0xB028 8 1 1 0 "spb.si[#].restart" .enum (.ints [(0, 1)]) 0 (none) .atCommit "",
  prow 0xB030 4 1 1 0 "spb.so[#].enable" .bool (.ints [(0, 1)]) 0 (none) .atCommit ""]

/-- Parameter rows, part 6, in rising index. -/
def paramRows6 : List PRow := [
  prow 0xB038 8 1 1 0 "spb.fb[#].enable" .bool (.ints [(0, 1)]) 0 (none) .atCommit "",
  prow 0xB040 8 1 1 0 "spb.fb[#].so" .u8 (.ints [(0, 3)]) 0 (none) .atCommit "",
  prow 0xB048 8 1 1 0 "spb.fb[#].polarity" .enum (.ints [(0, 1)]) 1 (none) .atCommit "",
  prow 0xB050 8 1 1 0 "spb.fb[#].mode" .enum (.ints [(0, 1)]) 0 (none) .atCommit "",
  prow 0xB058 8 1 1 0 "spb.fb[#].time" .f32 (.flt 0x41200000#32 0x43FA0000#32) 0x42C80000 (none) .atCommit "ms",
  prow 0xB060 1 0 1 0 "spb.ack_sc" .u8 (.ints [(0, 15), (255, 255)]) 0xFF (none) .atCommit "",
  prow 0xB061 1 0 1 0 "spb.block_repeat" .f32 (.flt 0x41200000#32 0x447A0000#32) 0x42C80000 (none) .atCommit "µs",
  prow 0xC000 1 0 1 0 "twin.enable" .bool (.ints [(0, 1)]) 0 (none) .readyOnly "",
  prow 0xC001 1 0 1 0 "twin.revert_holdoff" .f32 (.flt 0x3F800000#32 0x45610000#32) 0x41F00000 (none) .nextCycle "s",
  prow 0xC002 1 0 1 0 "twin.revert_inhibit" .bool (.ints [(0, 1)]) 0 (none) .now "",
  prow 0xC003 1 0 1 0 "twin.steady_time" .f32 (.flt 0x3DCCCCCD#32 0x44160000#32) 0x40A00000 (none) .nextCycle "s",
  prow 0xC004 1 0 1 0 "twin.declare_mask" .u8 (.ints [(0, 15)]) 0x7 (none) .nextCycle "",
  prow 0xD000 1 0 1 0 "host.udp_enable" .bool (.ints [(0, 1)]) 0 (none) .now "",
  prow 0xD001 1 0 1 0 "host.udp_port" .u16 (.ints [(1024, 65535)]) 50144 (none) .now "",
  prow 0xD002 1 0 1 0 "host.udp_eth" .enum (.ints [(0, 2)]) 0 (none) .now "",
  prow 0xD003 1 0 1 0 "host.udp_allow_addr" .u32 (.ints [(0, 4294967295)]) 0 (none) .now "",
  prow 0xD004 1 0 1 0 "host.udp_allow_mask" .u32 (.ints [(0, 4294967295)]) 0xFFFFFFFF (none) .now "",
  prow 0xD008 2 1 1 0 "host.ip_addr[#]" .u32 (.ints [(0, 4294967295)]) 0 (none) .now "",
  prow 0xD00A 2 1 1 0 "host.ip_mask[#]" .u32 (.ints [(0, 4294967295)]) 0xFFFFFF00 (none) .now "",
  prow 0xE000 1 0 1 0 "ptp.mode" .enum (.ints [(0, 3)]) 0 (none) .now "",
  prow 0xE001 1 0 1 0 "ptp.profile" .enum (.ints [(0, 1)]) 0 (none) .now "",
  prow 0xE002 1 0 1 0 "ptp.transport" .enum (.ints [(0, 1)]) 0 (none) .now "",
  prow 0xE003 1 0 1 0 "ptp.domain" .u8 (.ints [(0, 127)]) 0 (none) .now "",
  prow 0xE004 1 0 1 0 "ptp.port" .enum (.ints [(0, 1)]) 0 (none) .now "",
  prow 0xE005 1 0 1 0 "ptp.backup" .bool (.ints [(0, 1)]) 1 (none) .now "",
  prow 0xE006 1 0 1 0 "ptp.priority1" .u8 (.ints [(0, 255)]) 128 (none) .now "",
  prow 0xE007 1 0 1 0 "ptp.priority2" .u8 (.ints [(0, 255)]) 128 (none) .now "",
  prow 0xE008 1 0 1 0 "ptp.log_sync" .i8 (.ints [(-4, 1)]) 0 (none) .now "log2 s",
  prow 0xE009 1 0 1 0 "ptp.log_announce" .i8 (.ints [(0, 3)]) 0 (none) .now "log2 s",
  prow 0xE00A 1 0 1 0 "ptp.announce_timeout" .u8 (.ints [(2, 10)]) 3 (none) .now "intervals",
  prow 0xE00B 1 0 1 0 "ptp.log_min_delay" .i8 (.ints [(-4, 5)]) 0 (none) .now "log2 s",
  prow 0xE00C 1 0 1 0 "ptp.vlan" .u16 (.ints [(0, 4094)]) 0 (none) .now "",
  prow 0xE00D 1 0 1 0 "ptp.vlan_prio" .u8 (.ints [(0, 7)]) 4 (none) .now "",
  prow 0xE010 1 0 1 0 "time.step_limit" .f32 (.flt 0x3F800000#32 0x49742400#32) 0x42C80000 (none) .now "µs",
  prow 0xE011 1 0 1 0 "time.slew_max" .f32 (.flt 0x3F800000#32 0x43FA0000#32) 0x42C80000 (none) .now "ppm",
  prow 0xE012 1 0 1 0 "ptp.kp" .f32 (.flt 0x00000000#32 0x3F800000#32) 0x3F333333 (none) .now "",
  prow 0xE013 1 0 1 0 "ptp.ki" .f32 (.flt 0x00000000#32 0x3F800000#32) 0x3E99999A (none) .now "",
  prow 0xE014 1 0 1 0 "ptp.lock_thr" .f32 (.flt 0x41200000#32 0x47C35000#32) 0x447A0000 (none) .now "ns",
  prow 0xE015 1 0 1 0 "ptp.qualify" .u8 (.ints [(1, 64)]) 8 (none) .now "measurements",
  prow 0xE020 2 1 1 0 "ptp.eth[#].asym" .f32 (.flt 0xC61C4000#32 0x461C4000#32) 0x00000000 (none) .now "ns"]

/-- Parameter rows, part 7, in rising index. -/
def paramRows7 : List PRow := [
  prow 0xF000 1 0 1 0 "pwr.budget" .f32 (.flt 0x41F00000#32 0x42A00000#32) 0x42900000 (some (1, 4)) .now "W",
  prow 0xF001 1 0 1 0 "pwr.margin" .f32 (.flt 0x3E800000#32 0x40A00000#32) 0x3F800000 (none) .now "W",
  prow 0xF002 1 0 1 0 "pwr.doze_retain" .u16 (.ints [(0, 4095)]) 0x0FFF (none) .now "",
  prow 0xF003 1 0 1 0 "pwr.wake_en" .u8 (.ints [(0, 31)]) 0x03 (none) .now "",
  prow 0xF004 1 0 1 0 "pwr.quiesce_time" .f32 (.flt 0x3C23D70A#32 0x41200000#32) 0x3F800000 (none) .now "ms",
  prow 0xF005 1 0 1 0 "pwr.v_doze" .f32 (.flt 0x3F266666#32 0x3F59999A#32) 0x3F3851EC (none) .nextCycle "V",
  prow 0xF006 1 0 1 0 "pwr.vr_mode" .enum (.ints [(0, 1)]) 0 (none) .readyOnly "",
  prow 0xF007 1 0 1 0 "pwr.pmbus_addr" .u8 (.ints [(8, 119)]) 0x40 (none) .readyOnly "",
  prow 0xF008 1 0 1 0 "pwr.pmbus_telemetry" .bool (.ints [(0, 1)]) 0 (none) .nextCycle "",
  prow 0xF100 30 1 1 0 "pwr.dom[#].floor" .f32 (.flt 0x00000000#32 0x41A00000#32) 0 (some (1, 4)) .atCommit "W",
  prow 0xF140 30 1 1 0 "pwr.dom[#].ceil" .f32 (.flt 0x3E800000#32 0x42A00000#32) 0x42A00000 (none) .nextCycle "W"]

/-- Every parameter row of the manual's parameter tables. -/
def paramRows : List PRow :=
  paramRows1 ++ paramRows2 ++ paramRows3 ++ paramRows4 ++ paramRows5 ++ paramRows6 ++ paramRows7

/-- The two array positions of an index within a row, if the index belongs to the row. -/
def PRow.pos (r : PRow) (idx : Nat) : Option (Nat × Nat) :=
  if idx < r.base then none
  else
    let d := idx - r.base
    let i := if r.n1 = 1 then 0 else if r.n2 = 1 then d / r.s1 else d / r.s1
    let j := d - i * r.s1
    if r.n2 = 1 then (if i < r.n1 ∧ d = i * r.s1 then some (i, 0) else none)
    else if i < r.n1 ∧ j < r.n2 * r.s2 ∧ j % r.s2 = 0 then some (i, j / r.s2) else none

/-- The row of an index and the array positions. -/
def paramRowIn : List PRow → Nat → Option (PRow × Nat × Nat)
  | [], _ => none
  | r :: t, idx =>
    match r.pos idx with
    | some (i, j) => some (r, i, j)
    | none => paramRowIn t idx

def paramRow (idx : Nat) : Option (PRow × Nat × Nat) := paramRowIn paramRows idx

/-- Default floor of each power domain in quarter watts (Table 19-2). -/
def domFloorQ (d : Nat) : Nat :=
  if d = 0 then 26 else if d ≤ 4 then 14 else if d = 5 then 24 else if d ≤ 17 then 6 else if d ≤ 25 then 2 else 3

/-- The default of an index: the table's, the regular sequence of R442, the floors of Table 19-2. -/
def paramDefault (idx : Nat) : W32 :=
  if 0x7100 ≤ idx ∧ idx < 0x7180 then
    -- the unit's inputs: 12 of 0 to 47 and 4 of 48 to 63 in the local order of Table 11-2
    let u := (idx - 0x7100) / 32
    let l := (idx - 0x7100) % 16
    BitVec.ofNat 32 (if l < 12 then 12 * u + l else 48 + 4 * u + (l - 12))
  else if 0xF100 ≤ idx ∧ idx < 0xF11E then fratio (domFloorQ (idx - 0xF100)) 4
  else match paramRow idx with
    | some (r, _, _) => BitVec.ofNat 32 r.dflt
    | none => 0#32

/-- The signed or unsigned reading of a scalar item by its type (R643). -/
def PType.toInt (t : PType) (v : W32) : Int :=
  match t with
  | .i8 | .i16 => v.toInt
  | _ => (v.toNat : Int)

/-- A written binary32 value rounded to the nearest step, halves away from zero, as the nearest binary32 (R779). -/
def roundStep (v : F32) (n d : Nat) : F32 :=
  match v32 v with
  | .fin neg m e =>
    -- k = v / (n/d) = m * 2^e * d / n
    let num := m * d * (if 0 ≤ e then 2 ^ e.toNat else 1)
    let den := n * (if 0 ≤ e then 1 else 2 ^ (-e).toNat)
    let k : Nat := (2 * num + den) / (2 * den)
    if k = 0 then f32Zero else fratio (if neg then -((k * n : Nat) : Int) else ((k * n : Nat) : Int)) d
  | _ => v

/-- The value a write puts in force: the step of R779 applied. -/
def PRow.held (r : PRow) (v : W32) : W32 :=
  match r.step with
  | some (n, d) => if isFinite32 v then roundStep v n d else v
  | none => v

/-- A scalar value passes its range; NaN never does (R7, R644). -/
def PRow.inRange (r : PRow) (v : W32) : Bool :=
  match r.check with
  | .ints rs => rs.any fun (lo, hi) => decide (lo ≤ r.ty.toInt v) && decide (r.ty.toInt v ≤ hi)
  | .flt lo hi => isFinite32 v && fle lo v && fle v hi
  | .fltZ lo hi => isFinite32 v && (feq v f32Zero || (fle lo v && fle v hi))
  | .fltPos => isFinite32 v && flt f32Zero v
  | .fltFin => isFinite32 v
  | .record => false

/-- Decimal digits of a number. -/
def decimalOf (n : Nat) : String := toString n

/-- Fills the array positions into a name pattern. -/
def fillName : List Char → List Nat → List Char
  | [], _ => []
  | '#' :: t, i :: is => (decimalOf i).toList ++ fillName t is
  | c :: t, is => c :: fillName t is

/-- The dotted name of an index (R647); partitions count from 1. -/
def paramName (r : PRow) (i j : Nat) : String :=
  let i := if r.base = 0x6120 then i + 1 else i
  String.ofList (fillName r.name.toList [i, j])

/-- Every index of a row with its positions, in ascending index. -/
def PRow.all (r : PRow) : List (Nat × Nat × Nat) :=
  (upto r.n1).flatMap fun i => (upto r.n2).map fun j => (r.base + i * r.s1 + j * r.s2, i, j)

/-- The index of a dotted name, matched exactly and with case (R647). -/
def paramFind (name : String) : Option Nat :=
  paramRows.findSome? fun r => (r.all.find? fun (_, i, j) => paramName r i j == name).map (·.1)

end Sys2Proof.Machine
end

