-- ==== Sys2Proof/Machine/Units/Adc.lean ====
section
/-!
DEFINITION. State of the measurement units (chapter 11): inputs with their cycle-value mirror, units, comparators.
-/

namespace Sys2Proof.Machine

/-- One input: its mirror entry (Table 11-7) and what the cycle values are made from. -/
structure InSt where
  avg : F32 := 0#32
  inst : F32 := 0#32
  nConv : Nat := 0
  valid : Bool := false
  calIn : Bool := false
  extrap : Bool := false
  clip : Bool := false
  opened : Bool := false
  test : Bool := false
  cycle : Nat := 0
  /-- regular conversions, oldest first: slot instant and code (R411, R412) -/
  convs : List (Nat × Int) := []
  /-- value the procedure of R412 gave last -/
  last : F32 := 0#32
  /-- AVG and INST of the cycle before, not averaged for open wire (R434) -/
  prev : Option (F32 × F32) := none
deriving DecidableEq, Repr

/-- A triggered injected group: slot of entry 0, trigger code, window start of an edge trigger (R419). -/
structure InjPend where
  slot : Nat
  trig : Nat
  win : Option Nat
deriving DecidableEq, Repr

/-- A converting group: slot of entry 0, entries, cycle index, calibration flag and the codes so far (R420). -/
structure InjConv where
  slot : Nat
  trig : Nat
  inputs : List Nat
  cyc : Nat
  cal : Bool
  codes : List Int
deriving DecidableEq, Repr

/-- One ADC unit (Table 11-8). -/
structure AdcUnit where
  /-- the unit's power domain is on -/
  on : Bool := true
  refReady : Bool := false
  /-- instants at which REF_READY last rose and fell -/
  refAt : Nat := 0
  refFell : Nat := 0
  vanaBad : Bool := false
  calState : Nat := 0
  /-- instant the present calibration state began -/
  calAt : Nat := 0
  /-- the state was pre-empted and restarts when no group is pending (R427) -/
  calHeld : Bool := false
  /-- instant the most recent calibration since REF_READY rose ended DONE (R414) -/
  calDone : Option Nat := none
  outcome : Nat := 0
  cause : Nat := 0
  spare : Nat := 8
  /-- instant of the last rotation of the spare slice -/
  rotAt : Nat := 0
  skewRes : Nat := 0
  injLost : Nat := 0
  restarts : Nat := 0
  injTime : Nat := 0
  injVal : List F32 := []
  pend : Option InjPend := none
  conv : Option InjConv := none
  /-- S of the window that last triggered the group -/
  trigS : Option Nat := none
  /-- test selection in force now and in the cycle before, 0xFF none (R430) -/
  test : Nat := 255
  testPrev : Nat := 255
  testCode : Int := 0
deriving DecidableEq, Repr

/-- One window comparator (R435 to R438). -/
structure CmpSt where
  /-- level 1 has held since this instant -/
  l1 : Option Nat := none
  /-- level 1 has held for filter1 -/
  l1Out : Bool := false
  l2 : Bool := false
deriving DecidableEq, Repr

structure AdcSt where
  inputs : Tab InSt := []
  units : Tab AdcUnit := []
  cmps : Tab CmpSt := []
  /-- stream samples by input, oldest first: instant and value (R413) -/
  stream : Tab (List (Nat × F32)) := []
  /-- the open-wire currents pull up in this cycle (R433) -/
  pullUp : Bool := true
  /-- the values have been initialised by a commit (R414) -/
  ready : Bool := false
deriving DecidableEq, Repr

end Sys2Proof.Machine
end

