-- ==== Sys2Proof/Machine/Units/Misc.lean ====
section
/-!
DEFINITION. State of the control cycle, the parameters in force, the converter model in force and the events.
-/

namespace Sys2Proof.Machine

/-- The control cycle (R47 to R51, R65, Table 2-3a). -/
structure CycSt where
  index : Nat := 0
  n : Nat := 16
  phase : Nat := 0
  /-- N, phase and commit instant of a rhythm that waits for its first t0 (R50) -/
  newRhythm : Option (Nat × Nat × Nat) := none
  t0 : Nat := 0
  /-- a cycle start has taken place since the start of the FRC -/
  started : Bool := false
  /-- length of the cycle that ended at t0, 250 ps units -/
  lastLen : Nat := 8000
  /-- host setpoint registers and the values latched for the cycle (R65) -/
  setpoints : Tab W32 := []
  latched : Tab W32 := []
  /-- register writes since the last latch: register, value, instant (R65) -/
  setWrites : List (Nat × W32 × Nat) := []
  /-- ADC_READY has been posted in this cycle (R54) -/
  adcReady : Bool := false
  /-- Fantail and ramp outputs of this cycle are published (R292) -/
  published : Bool := false
deriving DecidableEq, Repr

/-- Parameters in force: scalars that differ from their defaults, window records by 32 partition + window, and
NEXT CYCLE values pending (R10, R645). -/
structure ParSt where
  val : Tab W32 := []
  wins : Tab (List W8) := []
  next : Tab W32 := []
  /-- instant each pending value was written (R11) -/
  nextAt : Tab Nat := []
  /-- pending values written in an earlier fabric cycle that a later write of the same index replaced (R11) -/
  older : Tab W32 := []
deriving DecidableEq, Repr

/-- Port map and cell table in force (R39, R42). -/
structure ModelSt where
  ports : Tab Nat := []
  cellTab : Tab Nat := []
  /-- port groups that have stopped serving their arms, bit g (R17, R84) -/
  pgStopped : Nat := 0
deriving DecidableEq, Repr

/-- Events (R659 to R661) and the sources raised by the command in progress. -/
structure EvSt where
  /-- sources raised and not yet evaluated by the Damsel and the triggers -/
  raised : List Nat := []
  pend : Nat := 0
  en : Nat := 0
  vec : Tab Nat := []
  /-- MSI-X table mask bits (1 = masked), PBA, and vectors whose message is sent and not yet re-armed -/
  mask : Nat := 2 ^ 64 - 1
  pba : Nat := 0
  active : Nat := 0
  /-- messages sent per vector, modulo 2^32 -/
  sent : Tab Nat := []
  /-- address and data words of the MSI-X table, by word -/
  tab : Tab W32 := []
  /-- the last fabric cycle in which a source was raised, and the sources raised in it (R661) -/
  lastAt : Nat := 0
  lastSet : Nat := 0
deriving DecidableEq, Repr

end Sys2Proof.Machine
end

