-- ==== Sys2Proof/Machine/Units/Power.lean ====
section
/-!
DEFINITION. State of the power states, the arbiter and the core regulator (chapter 19).
-/

namespace Sys2Proof.Machine

/-- The device power states (Table 19-3). -/
inductive PowerState where
  | run | hold | doze | off
deriving DecidableEq, Repr

/-- PHASE of Table 19-6. -/
inductive PowerPhase where
  | steady | entering | abandoning | waking
deriving DecidableEq, Repr

structure PwrSt where
  state : PowerState := .run
  phase : PowerPhase := .steady
  result : Nat := 0
  refuseDom : Nat := 0x1F
  wakeCause : Nat := 0
  domOn : Nat := 1
  domStopped : Nat := 0
  retFail : Nat := 0
  pEst : Nat := 0
  pMax : Nat := 0
  throttle : Nat := 0
  excess : Bool := false
  pllLock : Bool := false
  vrFault : Bool := false
  entries : Nat := 0
  refusals : Nat := 0
  /-- the entry in progress: target state, next step of Table 19-4, instant at which that step began -/
  target : PowerState := .run
  step : Nat := 0
  stepAt : Nat := 0
  /-- first cycle start after acceptance -/
  reqT0 : Option Nat := none
  /-- a wake source that occurred during the entry (R704), as WAKE_CAUSE -/
  woken : Option Nat := none
  /-- HOLD to RUN takes effect at the next cycle start (R701) -/
  toRun : Bool := false
  /-- releases are suppressed (R700) -/
  suppressed : Bool := false
  /-- banks retained (bits as RET_FAIL), the FRC their canaries were derived from, comparators that may wake (R709) -/
  retained : Nat := 0
  canary : Nat := 0
  wakeMap : Nat := 0
  /-- state the wake began from -/
  wakeFrom : PowerState := .run
  wakeTo : PowerState := .run
  wakeAt : Nat := 0
  /-- consecutive estimates well below the budget; instant since which P_est is above it at level 8 -/
  lowCnt : Nat := 0
  overFrom : Option Nat := none
  /-- P_DOM by domain and OVER_CEIL -/
  domP : Tab Nat := []
  overCeil : Nat := 0
  /-- PMBus: setpoint written and not reported as refused, tries, setpoint in force and the one before, uV (R719) -/
  vrWait : Option Nat := none
  vrTries : Nat := 0
  vrAcked : Nat := 800000
  vrPrev : Nat := 800000
  /-- VDD_CORE setpoint asked for, uV -/
  vdd : Nat := 800000
deriving DecidableEq, Repr

end Sys2Proof.Machine
end

