-- ==== Sys2Proof/Machine/Units/Rec.lean ====
section
/-!
DEFINITION. State of the recorder (chapter 12); its samples and heads lie in capture memory.
-/

namespace Sys2Proof.Machine

/-- A channel as a capture's arm read it (Tables 12-1 and 12-6). -/
structure RecCh where
  num : Nat
  src : Nat
  arg : Nat
  arg2 : Nat
  width : Nat
  /-- bytes per row S_n and offset of the channel block -/
  bytes : Nat
  off : Nat
  comp : Int
  spread : Nat
  gaps : Nat := 0
  /-- previous sample as stored (R446, R448) -/
  prev : Nat := 0
  /-- its value in channel units -/
  last : F32 := 0#32
deriving DecidableEq, Repr

/-- A condition as a capture's arm read it (Table 12-3). -/
structure RecTrg where
  num : Nat
  ty : Nat
  ch : Nat
  arg : Nat
  a : F32
  b : F32
  span : Nat
  fire : Bool
  /-- values of its channel evaluated since arm, latest last, at most 65 (R460) -/
  hist : List F32 := []
deriving DecidableEq, Repr

/-- A firing in the log: timestamp, condition (0xFF: FORCE), fabric cycle of its evaluation (R463). -/
structure RecLog where
  time : Int
  cond : Nat
  evalAt : Nat := 0
deriving DecidableEq, Repr

/-- The capture in progress. -/
structure RecCap where
  div : Nat
  capRows : Nat
  preRows : Nat
  postRows : Nat
  clamped : Bool
  rearm : Bool
  manual : Bool
  chans : List RecCh
  trgs : List RecTrg
  /-- instant and cycle index of the first row since arm -/
  start : Nat := 0
  startCyc : Nat := 0
  tc : Nat := 0
  n : Nat := 0
  /-- rows completed since arm, cycles of the row in progress, rows the capture ends at -/
  rows : Nat := 0
  cyc : Nat := 0
  trigRow : Nat := 0
  /-- absolute row of logical row 0, once triggered -/
  first : Nat := 0
  prim : RecLog := { time := 0, cond := 0 }
  trigAt : Nat := 0
  /-- row that a STOP ends the capture at, and the instant of the STOP (R456) -/
  stopRow : Option Nat := none
  stopAt : Nat := 0
  /-- arms whose ranking of the row's first cycle has been recorded (R447) -/
  seen : List Nat := []
  /-- event sources raised in the row in progress -/
  events : Nat := 0
  log : List RecLog := []
  logOvf : Nat := 0
  ignPre : Nat := 0
  dead : Nat := 0
deriving DecidableEq, Repr

/-- A buffer of the directory (Table 12-9): BSTATE 0 FREE, 1 FILLING, 2 HELD, 3 INVALID. -/
structure RecBuf where
  bstate : Nat := 0
  clamped : Bool := false
  aborted : Bool := false
  truncated : Bool := false
  retFail : Nat := 0
  seq : Nat := 0
deriving DecidableEq, Repr

structure RecSt where
  /-- 0 IDLE, 1 ARMED, 2 READY, 3 POST -/
  st : Nat := 0
  buf : Nat := 0
  fullWait : Bool := false
  stopLate : Bool := false
  armErr : Nat := 0
  errItem : Nat := 0
  deadTime : Nat := 0
  ignPre : Nat := 0
  captures : Nat := 0
  trg : Nat := 0
  /-- the last capture begun has become HELD (R456) -/
  ended : Bool := false
  bufs : Tab RecBuf := []
  /-- captures since cold reset (SEQ) -/
  seq : Nat := 0
  /-- the capture in progress, or armed and waiting for its first row instant -/
  cap : Option RecCap := none
  /-- the capture waits for its first row instant -/
  waiting : Bool := false
  /-- instant of the last completion while an automatic re-arm is pending, with the row length in cycles -/
  rearmAt : Option (Nat × Nat) := none
  /-- cycles since that completion -/
  sinceDone : Nat := 0
deriving DecidableEq, Repr

end Sys2Proof.Machine
end

