-- ==== Sys2Proof/Machine/Units/Spb.lean ====
section
/-!
DEFINITION. State of the Safe Pulse Block (chapter 15).
-/

namespace Sys2Proof.Machine

/-- The states of Table 15-2. -/
inductive SpbState where
  | startup | normal | demand | safe | killed
deriving DecidableEq, Repr

structure SpbSt where
  st : SpbState := .startup
  soCmd : Nat := 0
  soRb : Nat := 0
  soFault : Nat := 0
  /-- instant of the last command change of each SO output -/
  soAt : Tab Nat := []
  /-- inputs in demand or with a latched demand, and faulted inputs (SI_DEMAND without the faults, SI_FAULT) -/
  siDem : Nat := 0
  siFault : Nat := 0
  siContact : Nat := 0
  /-- instant of the last change taken of each contact, bit order of SI_CONTACT (R540) -/
  contactAt : Tab Nat := []
  tpFail : Nat := 0
  /-- instant since which the contacts of an input disagree (R543) -/
  disc : Tab Nat := []
  /-- start of the last pulse of SPT0 and SPT1, plus 1, and whether its window is open -/
  pulseAt : Tab Nat := []
  window : Nat := 0
  fbState : Nat := 0
  fbFault : Nat := 0
  /-- instant of the last change of each FB input -/
  fbAt : Tab Nat := []
  mpWdLost : Bool := false
  /-- the challenge published last, and whether its complement was returned -/
  challenge : Option W16 := none
  returned : Bool := false
  badReturns : Nat := 0
  /-- challenges in a row that the MP found absent or repeated -/
  mpBad : Nat := 0
  challengeAt : Nat := 0
  pwLock : Bool := false
  pwTries : Nat := 0
  /-- instant at which the lockout ends (R566) -/
  pwLockEnd : Nat := 0
  logMirrorBad : Bool := false
  cfgCrc : Nat := 0
  /-- number of the newest log entry, and the entries, oldest first -/
  logSeq : Nat := 0
  log : List (List W8) := []
  demandCnt : Nat := 0
  eccCorr : Nat := 0
  reactLast : Nat := 0
  reactMax : Nat := 0
  cause : Nat := 9
  causeItem : Nat := 0
  /-- latched causes of the whole block, by their code of Table 15-7 -/
  latched : Nat := 2 ^ 9
  /-- fabric cycle, plus 1, in which the last demand or fault arose (R556) -/
  newAt : Nat := 0
  /-- the demands and faults of that fabric cycle: cause and item -/
  newItems : List (Nat × Nat) := []
  /-- instant and mailbox of the last acknowledgement by mailbox (R556) -/
  ackBy : Option (Nat × Nat) := none
  lastBlock : Nat := 0
  /-- boot flash: the safety configuration with its password, if one was ever written -/
  flash : Option (Tab W32 × List W8) := none
deriving DecidableEq, Repr

end Sys2Proof.Machine
end

