-- ==== Sys2Proof/Machine/Units/Tasks.lean ====
section
/-!
DEFINITION. State of the control graph, the Damsel, the cores, the message queues and DMA (chapters 9 and 10).
-/

namespace Sys2Proof.Machine

/-- The graph in force (R325 to R358); signal values live in fabric memory. -/
structure GraphSt where
  image : List W8 := []
  /-- task that writes each arm's insertion sink, plus 1 -/
  armSink : Tab Nat := []
  /-- last PERIOD a PSC_SINK block wrote, plus 1, by block (R349) -/
  lastPeriod : Tab Nat := []
  /-- values handed to recorder channels by REC_TAP (R350) -/
  taps : Tab W32 := []
  /-- fabric cycle, plus 1, of the last block end, and the signals written in it: value before and writing task (R328) -/
  sigAt : Nat := 0
  sigOld : Tab (W32 × Nat) := []
deriving DecidableEq, Repr

/-- Task states (Table 10-10). -/
inductive TState where
  | idle | ready | running | preempted | blocked | cancelled
deriving DecidableEq, Repr

structure TaskSt where
  st : TState := .idle
  cancelPend : Bool := false
  outcome : Nat := 0
  core : Nat := 0
  ovrConsec : Nat := 0
  faultCnt : Nat := 0
  flags : Nat := 0
  ovrCnt : Nat := 0
  runMax : Nat := 0
  cancelRef : Bool := false
  faultBlk : Nat := 0
  faultCause : Nat := 0
  /-- position of the next block in the task's blocks -/
  next : Nat := 0
  /-- instant of the release, its cycle index and t0 (R74) -/
  relAt : Nat := 0
  relCyc : Nat := 0
  relT0 : Nat := 0
  /-- fabric cycle, plus 1, of the last evaluation that met the mask (R64) -/
  hitAt : Nat := 0
  /-- some block of the release has run -/
  started : Bool := false
  /-- a fault was held in this release (R393) -/
  held : Bool := false
  /-- occurrence counters of the bindings, modulo their DIV (R360) -/
  counters : Tab Nat := []
  /-- instants of a cancel, for its fabric cycle (R371) -/
  cancelAt : Option Nat := none
deriving DecidableEq, Repr

/-- What the current block of a core waits for. -/
inductive Wait where
  | none | adc | published | gov
deriving DecidableEq, Repr

structure CoreSt where
  task : Option Nat := none
  /-- ready task this core is marked for (R367) -/
  mark : Option Nat := none
  /-- fabric cycle, plus 1, in which the mark was set -/
  markAt : Nat := 0
  wait : Wait := .none
  /-- instant the task was given to the core (R366) -/
  givenAt : Nat := 0
  /-- the first or resume block has started -/
  begun : Bool := false
deriving DecidableEq, Repr

/-- A post that entered a queue: its rank in R374 (2 hardware, 3 host, 4 + core), the mailbox or task it came from, and the
entry. -/
structure QPost where
  rank : Nat
  who : Nat
  w : List W32
deriving DecidableEq, Repr

/-- A take from a queue: core (16 for the command), pins of the eight words and VALID, and the entry, none where there was none. -/
structure QTake where
  core : Fin 17
  task : Nat
  pins : List Nat
  w : Option (List W32)
deriving DecidableEq, Repr

/-- A message queue (R373 to R377, Table 10-15); its entries live in fabric memory. -/
structure QueueSt where
  head : Nat := 0
  fill : Nat := 0
  fillMax : Nat := 0
  stallCnt : Nat := 0
  lostCnt : Nat := 0
  stall : Bool := false
  /-- blocked posts in the order they blocked: task and entry -/
  waiting : List (Nat × List W32) := []
  /-- the entry a hardware source holds -/
  hwHeld : Option (List W32) := none
  /-- fabric cycle, plus 1, of the last access, and what happened in it (R374): posts that entered, in queue order; takes by
  ascending core; host posts refused -/
  accAt : Nat := 0
  entered : List QPost := []
  taken : List QTake := []
  refused : List QPost := []
deriving DecidableEq, Repr

inductive DmaState where
  | idle | running | halted
deriving DecidableEq, Repr

/-- A DMA channel (R384 to R391, Table 10-14). -/
structure DmaSt where
  st : DmaState := .idle
  outcome : Nat := 0
  cause : Nat := 0
  part : Nat := 0
  residual : Nat := 0
  faultAddr : Nat := 0
  descAddr : Nat := 0
  startsRefused : Nat := 0
  /-- a descriptor fetch is outstanding -/
  fetching : Bool := false
  src : Nat := 0
  dst : Nat := 0
  count : Nat := 0
  /-- granules of the descriptor moved -/
  k : Nat := 0
  ctrl : Nat := 0
  next : Nat := 0
  /-- instant of the last abort and the mailbox that asked for it, 8: none (R390) -/
  aborted : Option (Nat × Nat) := none
deriving DecidableEq, Repr

/-- A task given to a core: its state and last core before, and the tasks ahead of it in its list (R365, R366). -/
structure Grant where
  core : Nat
  task : Nat
  st : TState
  was : Nat
  ahead : List Nat
deriving DecidableEq, Repr

/-- The Damsel with tasks, cores, queues, channels and the DMA registers (Table 10-13). -/
structure DamselSt where
  tasks : Tab TaskSt := []
  cores : Tab CoreSt := []
  /-- the eight priority lists -/
  prio : Tab (List Nat) := []
  queues : Tab QueueSt := []
  dma : Tab DmaSt := []
  dmaDone : Nat := 0
  /-- event sources that set their flags in a later fabric cycle than the one they were raised in: fabric cycle, source
  (R362) -/
  later : List (Nat × Nat) := []
  /-- fabric cycle, plus 1, of the last evaluation; tasks and DMA channels as they stood before the releases and re-arms
  of that cycle, and the grants made in it (R64, R365, R370, R371) -/
  evalAt : Nat := 0
  pre : Tab TaskSt := []
  preDma : Tab DmaSt := []
  grants : List Grant := []
  /-- fabric cycle, plus 1, of the last post of a graph event source (R348) -/
  posted : Tab Nat := []
deriving DecidableEq, Repr

end Sys2Proof.Machine
end

