-- ==== Sys2Proof/Machine/State.lean ====
section
/-!
DEFINITION. The machine: every unit of the block, the queue of waiting commands, the state after reset, and the
reasons a step can stop.
-/

namespace Sys2Proof.Machine

/-- The block without its command queue. `now` is the FRC in units of 250 ps. -/
structure Block where
  now : Nat := 0
  free : Nat := 0
  cyc : CycSt := {}
  par : ParSt := {}
  model : ModelSt := {}
  ev : EvSt := {}
  cells : Tab CellSt := []
  changes : List CellChange := []
  ports : Tab PortSt := []
  arms : Tab ArmSt := []
  trip : TripSt := {}
  seq : SeqSt := {}
  si : SiSt := {}
  tentNext : List TentNext := []
  gov : GovSt := {}
  eng : EngSt := {}
  adc : AdcSt := {}
  recd : RecSt := {}
  tw : TwinSt := {}
  spb : SpbSt := {}
  graph : GraphSt := {}
  dam : DamselSt := {}
  mem : List Host.Cell := []
  host : HostSt := {}
  time : TimeSt := {}
  pwr : PwrSt := {}
  rst : RstSt := {}
deriving DecidableEq, Repr

structure State extends Block where
  pending : List Instr := []
deriving DecidableEq, Repr

/-- No command of the manual stops the block, so no meaning raises one. -/
inductive Fault where
  /-- No meaning raises it: the block has no fault that stops it; safe. -/
  | none
deriving DecidableEq, Repr

inductive Refusal where
  /-- A command without a meaning yet; the arm of exec raises it; safe. -/
  | notModelled (mnemonic : String)
deriving DecidableEq, Repr

def State.reset : State := {}

end Sys2Proof.Machine
end

