-- ==== Sys2Proof/Machine/Ops.lean ====
section
/-!
DEFINITION. Operations every unit shares: time, parameters in force, events, the converter model in force, cells,
ports and arms, blocking an arm (R523 to R529) and a fault of the sequence (R530).
-/

namespace Sys2Proof.Machine

/-! ### Time -/

/-- 250 ps units in a microsecond, a millisecond and a second. -/
def usU : Nat := 4000
def msU : Nat := 4000000
def sU : Nat := 4000000000

/-- T_c in 250 ps units (R47). -/
def tcU (s : Block) : Nat := 2000 * s.cyc.n

/-- Carries time forward to an instant, never back. -/
def atTime (t : Nat) (s : Block) : Block := { s with now := max s.now t }

/-- A duration held as binary32 in a unit of `scale` 250 ps units, rounded to nearest. -/
def durF (f : F32) (scale : Nat) : Nat :=
  match v32 f with
  | .fin false m e => (fvRne (.fin false (m * scale) e)).toNat
  | _ => 0

/-- The fabric cycle (2 ns) of an instant. -/
def fabric (t : Nat) : Nat := t / 8

/-! ### Parameters in force (R10) -/

def tfind {α : Type} : Tab α → Nat → Option α
  | [], _ => none
  | (j, v) :: t, k => if j = k then some v else tfind t k

def parW (s : Block) (i : Nat) : W32 := (tfind s.par.val i).getD (paramDefault i)
def parN (s : Block) (i : Nat) : Nat := (parW s i).toNat
def parB (s : Block) (i : Nat) : Bool := parN s i ≠ 0
def parDur (s : Block) (i scale : Nat) : Nat := durF (parW s i) scale

/-- Puts a scalar in force; a value equal to its default is not listed. -/
def parSet (i : Nat) (v : W32) (s : Block) : Block :=
  { s with par := { s.par with
      val := if v = paramDefault i then tdel s.par.val i else tput i v s.par.val } }

/-! ### Events -/

/-- Raises an event source (R660); the command's end evaluates what is bound to it. -/
def raise (e : Nat) (s : Block) : Block :=
  { s with ev := { s.ev with raised := s.ev.raised ++ [e] } }

def raiseIf (b : Bool) (e : Nat) (s : Block) : Block := if b then raise e s else s

/-- Event sources of the host interface and of Tentering (R501, R662). -/
def evCfgCommitted : Nat := 0
def evCfgRejected : Nat := 1
def evCfgStoreFail : Nat := 2
def evTentRetire : Nat := 228
def evTentRetireHeld : Nat := 229
def evTentRetUnconf : Nat := 230
def evSiReserveLow : Nat := 231
def evSiSlackLow : Nat := 232
def evMbxDone : Nat := 248
def evMbxProgress : Nat := 249
def evMpOverload : Nat := 250
def evMpRestart : Nat := 251
def evUdpDrop : Nat := 252

/-- Cycle events (R62) and task ends, numbered above the 256 sources of R662. -/
def evCycStart : Nat := 300
def evAdcReady : Nat := 301
def evRepDone (a : Nat) : Nat := 310 + a
def evRankDone (a : Nat) : Nat := 330 + a
def evTaskEnd (t : Nat) : Nat := 400 + t

def evQueuePost (q : Nat) : Nat := 700 + q
/-- Causes of a twin declaration that are no event source (Table 16-6). -/
def evDeclTaskTrip : Nat := 302
def evDeclCurrent : Nat := 303
/-- A comparator asserts that may wake the device (R709). -/
def evWakeTrip : Nat := 305

def evMemUncorr : Nat := 3
def evPgStopped : Nat := 4
def evPairOrphan : Nat := 20
def evResSat : Nat := 21
def evSeqState : Nat := 8
def evSeqFault : Nat := 9
def evSeqRefused : Nat := 10
def evArmBlocked : Nat := 11
def evArmDeblocked : Nat := 12
def evContactUnreliable : Nat := 13
def evContactChange : Nat := 14
def evLinkLost (p : Nat) : Nat := 64 + 4 * (p / 16)
def evRingBreak (p : Nat) : Nat := 65 + 4 * (p / 16)
def evAlignLost (p : Nat) : Nat := 66 + 4 * (p / 16)
def evCellsChanged (p : Nat) : Nat := 67 + 4 * (p / 16)

/-- A domain is stopped by the steps of an entry in progress (Table 19-4). -/
def stopped (s : Block) (d : Nat) : Bool := bitAt s.pwr.domStopped d

/-- The trip matrix, in SYS0, has power: RUN or HOLD (R709). -/
def matrixOn (s : Block) : Bool := s.pwr.state = .run || s.pwr.state = .hold

/-! ### Role of the unit (Table 16-1) -/

def evTwinRole : Nat := 240
def modTw (f : TwinSt → TwinSt) (s : Block) : Block := { s with tw := f s.tw }

def setRole (r : Role) (s : Block) : Block :=
  if s.tw.role = r then s else raise evTwinRole (modTw (fun t => { t with role := r }) s)

/-! ### Free values -/

/-- Counts one use of the free values. -/
def useFree (s : Block) : Block := { s with free := s.free + 1 }

/-! ### Converter model in force (R39 to R44) -/

def portWord (s : Block) (p : Nat) : Nat := tget 0 s.model.ports p
def portUsed (s : Block) (p : Nat) : Bool := bitAt (portWord s p) 0
def portTopo (s : Block) (p : Nat) : Nat := bits (portWord s p) 1 2
/-- The port whose entry describes the string of port p: the even port for the odd port of a self-ring (R40). -/
def strPort (s : Block) (p : Nat) : Nat := if portUsed s p ∧ portTopo s p = 3 then p - 1 else p
def strWord (s : Block) (p : Nat) : Nat := portWord s (strPort s p)
/-- The string is full-bridge (R21). -/
def strFB (s : Block) (p : Nat) : Bool := bitAt (strWord s p) 3
def strArm (s : Block) (p : Nat) : Nat := bits (strWord s p) 4 4
def strCells (s : Block) (p : Nat) : Nat := bits (strWord s p) 8 6
def strNum (s : Block) (p : Nat) : Nat := bits (strWord s p) 16 5
/-- The port is one end of a ring. -/
def portRing (s : Block) (p : Nat) : Bool := portUsed s p && portTopo s p ≠ 0
/-- The port faces the B sides of its cells: the odd port of a self-ring, or unit B of a twin-ring. -/
def portSideB (s : Block) (p : Nat) : Bool :=
  (portTopo s p = 3) || (portTopo s p = 2 && s.tw.unitB)
/-- The other port of a self-ring on this unit. -/
def ringMate (s : Block) (p : Nat) : Option Nat :=
  if portTopo s p = 1 then some (p + 1) else if portTopo s p = 3 then some (p - 1) else none

/-- The arm that a used port serves. -/
def portArm (s : Block) (p : Nat) : Option Nat := if portUsed s p then some (strArm s p) else none

def armEnabled (s : Block) (a : Nat) : Bool := decide (a < 12) && parB s (0x1010 + a)
def enabledArms (s : Block) : List Nat := (upto 12).filter (armEnabled s)
/-- Every port with one end of a string of the arm, in rising number. -/
def armPorts (s : Block) (a : Nat) : List Nat := (upto 128).filter (fun p => portArm s p = some a)

/-- Cell numbers of the string of a port, from the A end (R3, R18). -/
def strCellList (s : Block) (p : Nat) : List Nat := (upto (strCells s p)).map (48 * strPort s p + ·)

/-- The cell at a hop position of a port (R87). -/
def cellAtHop (s : Block) (p hop : Nat) : Nat :=
  48 * strPort s p + (if portSideB s p then strCells s p - 1 - hop else hop)
/-- The hop position of a cell from a port (R87). -/
def hopOf (s : Block) (p g : Nat) : Nat :=
  let q := g - 48 * strPort s p
  if portSideB s p then strCells s p - 1 - q else q

/-- The arm of a cell. -/
def cellArm (s : Block) (g : Nat) : Nat := strArm s (g / 48)
def cellFB (s : Block) (g : Nat) : Bool := strFB s (g / 48)

/-! ### Cells, ports and arms -/

def cell (s : Block) (g : Nat) : CellSt := tget {} s.cells g
def modCell (g : Nat) (f : CellSt → CellSt) (s : Block) : Block := { s with cells := tmod {} s.cells g f }
def port (s : Block) (p : Nat) : PortSt := tget {} s.ports p
def modPort (p : Nat) (f : PortSt → PortSt) (s : Block) : Block := { s with ports := tmod {} s.ports p f }
def arm (s : Block) (a : Nat) : ArmSt := tget {} s.arms a
def modArm (a : Nat) (f : ArmSt → ArmSt) (s : Block) : Block := { s with arms := tmod {} s.arms a f }

/-- Configured cells of an arm with their numbers, in ascending global cell index. -/
def armCells (s : Block) (a : Nat) : List (Nat × CellSt) :=
  s.cells.filter fun (g, c) => c.st ≠ .none && cellArm s g = a

/-- Runs an operation for each element of a list in order. -/
def forEach {α : Type} (l : List α) (f : α → Block → Block) (s : Block) : Block := l.foldl (fun s x => f x s) s

/-- Changes every listed cell by a function of its number. -/
def mapCells (f : Nat → CellSt → CellSt) (s : Block) : Block :=
  { s with cells := s.cells.filterMap fun (g, c) => let c' := f g c; if c' = {} then none else some (g, c') }

def countState (s : Block) (a : Nat) (st : CState) : Nat := ((armCells s a).filter (·.2.st = st)).length
/-- A of R23. -/
def availCount (s : Block) (a : Nat) : Nat := countState s a .available
/-- F of R23. -/
def availFB (s : Block) (a : Nat) : Nat :=
  ((armCells s a).filter fun (g, c) => c.st = .available && cellFB s g).length
def minAvail (s : Block) (a : Nat) : Nat := parN s (0x1030 + a)

def switching (s : Block) (a : Nat) : Bool := (arm s a).sw

/-- AVAILABLE or RESERVE. -/
def inService (c : CellSt) : Bool := c.st = .available || c.st = .reserve

/-- Calibration of a cell from the side a port faces. -/
def calOf (s : Block) (p : Nat) (c : CellSt) : SideCal := if portSideB s p then c.calB else c.calA
def modCal (p g : Nat) (f : SideCal → SideCal) (s : Block) : Block :=
  if portSideB s p then modCell g (fun c => { c with calB := f c.calB }) s
  else modCell g (fun c => { c with calA := f c.calA }) s

/-- A change of state waits for the next cycle start (R35). -/
def addChange (c : CellChange) (s : Block) : Block := { s with changes := s.changes ++ [c] }

/-- The unit drives the converter: SOLO or ACTIVE. -/
def isActive (s : Block) : Bool := s.tw.role = .solo || s.tw.role = .active

/-- A cause of R29 acts on AVAILABLE and RESERVE cells only; a standby takes cell states from the images (R592). -/
def faultCell (g cause : Nat) (s : Block) : Block :=
  if inService (cell s g) && isActive s then addChange (.faulted g cause) s else s

/-- The converter states in which report errors and link loss change cell states (R781). -/
def r781 (s : Block) : Bool :=
  match s.seq.state with
  | .energize => s.seq.discoveryEnded
  | .charged | .run | .blocked => true
  | _ => false

/-! ### Twin role and Safe Pulse Block as other units see them -/

/-- The Safe Pulse Block demands a block (R545). -/
def spbDemands (s : Block) : Bool := s.spb.st ≠ .normal

/-- The task that writes an arm's sink, if one does. -/
def sinkTask (s : Block) (a : Nat) : Option Nat := match tget 0 s.graph.armSink a with | 0 => none | n + 1 => some n

def task (s : Block) (t : Nat) : TaskSt := tget {} s.dam.tasks t
def modTask (t : Nat) (f : TaskSt → TaskSt) (s : Block) : Block :=
  { s with dam := { s.dam with tasks := tmod {} s.dam.tasks t f } }
def core (s : Block) (c : Nat) : CoreSt := tget {} s.dam.cores c
def modCore (c : Nat) (f : CoreSt → CoreSt) (s : Block) : Block :=
  { s with dam := { s.dam with cores := tmod {} s.dam.cores c f } }

def taskCancelled (s : Block) (t : Nat) : Bool := (task s t).st = .cancelled

/-- Cycle values of an input in the mirror (R439). -/
def ainVal (s : Block) (k : Nat) : InSt := tget {} s.adc.inputs k

/-! ### Fabric memory (R380) -/

/-- What an address reads as that nothing has written (log entry 24). -/
def memBlank : W8 := 0#8

/-- One byte of fabric memory. -/
def memRead (m : List Host.Cell) (a : Nat) : W8 := tget memBlank m a
/-- Writes one byte; the list stays in its canonical form. -/
def memWrite (m : List Host.Cell) (a : Nat) (b : W8) : List Host.Cell := tset memBlank m a b
/-- The canonical form: addresses strictly rising, no entry equal to a blank byte. -/
def memWf (m : List Host.Cell) : Bool := twf memBlank m

def memReadBytes (m : List Host.Cell) (a : Nat) : Nat → List W8
  | 0 => []
  | n + 1 => memRead m a :: memReadBytes m (a + 1) n
def memWriteBytes (m : List Host.Cell) (a : Nat) : List W8 → List Host.Cell
  | [] => m
  | b :: t => memWriteBytes (memWrite m a b) (a + 1) t

def readBytes (s : Block) (a n : Nat) : List W8 := memReadBytes s.mem a n
def writeBytes (a : Nat) (l : List W8) (s : Block) : Block := { s with mem := memWriteBytes s.mem a l }

/-- Regions of Table 10-5. -/
inductive Region where
  | sram | capture | signals | host | unmapped
deriving DecidableEq, Repr

def regionOf (a : Nat) : Region :=
  if a < 0x2000000 then .sram
  else if 0x10000000 ≤ a ∧ a < 0x14000000 then .capture
  else if 0x20000000 ≤ a ∧ a < 0x20010000 then .signals
  else if 0x800000000000 ≤ a ∧ a < 0x1000000000000 then .host
  else .unmapped

/-- A signal is a 32-bit word of the signal store (R325, R380). -/
def sigAddr (n : Nat) : Nat := 0x20000000 + 4 * n
def sigRead (s : Block) (n : Nat) : W32 := BitVec.ofNat 32 (le 4 (readBytes s (sigAddr n) 4))
def sigWrite (n : Nat) (v : W32) (s : Block) : Block := writeBytes (sigAddr n) (leBytes 4 v.toNat) s

/-! ### Sequence -/

def setConv (st : ConvState) (s : Block) : Block :=
  if s.seq.state = st then s else raise evSeqState { s with seq := { s.seq with state := st } }

def scClosed (s : Block) (c : Nat) : Bool := bitAt s.seq.scState c
def scUnrel (s : Block) (c : Nat) : Bool := bitAt s.seq.scUnrel c
def mainAux (s : Block) : Nat := parN s 0xA020
def bypassAux (s : Block) : Nat := parN s 0xA021
def permitSc (s : Block) : Nat := parN s 0xA022
def cmdMain (s : Block) : Nat := parN s 0xA023
def cmdBypass (s : Block) : Nat := parN s 0xA024
def breakerTime (s : Block) : Nat := parDur s 0xA030 msU

/-- permit is not assigned, or debounced closed and reliable (R509). -/
def permitOk (s : Block) : Bool :=
  permitSc s = 0xFF || (scClosed s (permitSc s) && !scUnrel s (permitSc s))

/-- Drives a CMD output; an output the trip matrix holds de-energised stays so (R512). -/
def driveCmd (k : Nat) (on : Bool) (s : Block) : Block :=
  let on := on && !bitAt s.trip.opened k
  { s with seq := { s.seq with cmdLevel := setBit s.seq.cmdLevel k on } }

def mainOn (s : Block) : Bool := bitAt s.seq.cmdLevel (cmdMain s)
def bypassOn (s : Block) : Bool := bitAt s.seq.cmdLevel (cmdBypass s)

def dropMain (s : Block) : Block :=
  let was := mainOn s
  let s := driveCmd (cmdMain s) false s
  if was then { s with seq := { s.seq with mainOffAt := some s.now } } else s

def dropBypass (s : Block) : Block :=
  let was := bypassOn s
  let s := driveCmd (cmdBypass s) false s
  { s with seq := { s.seq with
      opening := none, bypassOffAt := if was then some s.now else s.seq.bypassOffAt } }

/-- The opening order: MAIN now, BYPASS once main_aux is open or breaker_time has passed (R514). -/
def openBreakers (s : Block) : Block :=
  let s := dropMain s
  if scClosed s (mainAux s) then
    { s with seq := { s.seq with opening := s.seq.opening <|> some s.now } }
  else dropBypass s

/-- VCAP in 62.5 mV units is at or above a voltage held as binary32 (R505). -/
def vcapAtLeast (v : Nat) (x : F32) : Bool := fle x (fratio v 16)

/-- The converter is charged (R505). -/
def charged (s : Block) : Bool :=
  s.cells.any fun (_, c) =>
    c.st ≠ .none && (match c.vcap with | some v => vcapAtLeast v (parW s 0xA033) | none => false)

/-! ### Blocking -/

/-- Four BLOCK sets on a port that is not DARK, back to back from now on (R138, R524). They cut a frame in transmission
short, and its service request has not been sent. -/
def blockPort (p : Nat) (s : Block) : Block :=
  if (port s p).st = .dark then s
  else modPort p (fun x => { x with
    blockSets := (x.blockSets + 4) % 2 ^ 32, freeAt := s.now + 160,
    lastTx := x.lastTx.take ((s.now - (x.freeAt - 10 * x.lastTx.length)) / 10),
    svc := x.svc.map fun r => if r.sent && decide (s.now < r.endT) then { r with sent := false } else r }) s

/-- BLOCK sets on every port that carries a string of the arm (R524). -/
def blockSets (a : Nat) (s : Block) : Block := forEach (armPorts s a) blockPort s

/-- Frames of the arm that wait for their launch are not launched. -/
def dropFrames (a : Nat) (s : Block) : Block :=
  forEach (armPorts s a) (fun p => modPort p fun x => { x with frames := [] }) s

/-- What an arm that stops switching loses: kept set, held states, carriers (R197, R214, R238). -/
def armStopped (x : ArmSt) : ArmSt :=
  { x with
      sw := false, kept := [], firstIns := true, fracs := [],
      psc := { x.psc with next := none, set := [] } }

/-- The arm's cells after it stops: held OFF, no window (R173, R214). -/
def cellStopped (c : CellSt) : CellSt :=
  { c with
      held := .off, plan := none, relS := none, blkRun := 0, lastOn := [], lastOff := [], carrier := none,
      tent := { c.tent with blk := { c.tent.blk with ok := false } } }

/-- The pending deblock of an arm is withdrawn, and with it every one that came from the same DEBLOCK (R528). -/
def withdrawDeblock (a cause : Nat) (s : Block) : Block :=
  match (arm s a).deblockWait with
  | none => s
  | some all =>
    let s := modArm a (fun x => { x with deblockWait := none, deblockRefuse := 1, blockCause := cause }) s
    if all then
      let s := { s with seq := { s.seq with refuseArm := a } }
      forEach (upto 12)
        (fun b => modArm b fun x => if x.deblockWait = some true then { x with deblockWait := none } else x) s
    else s

/-- RUN becomes BLOCKED when no enabled arm is switching (R529). -/
def runToBlocked (s : Block) : Block :=
  if s.seq.state = .run ∧ !((enabledArms s).any (switching s)) then
    -- a RUN whose deblocks are withdrawn in the fabric cycle of their t0 was never entered (R528)
    match s.seq.runFrom with
    | some (t, st) => setConv (if fabric t = fabric s.now then st else .blocked) s
    | none => setConv .blocked s
  else s

/-- The cells of an arm stop with it. -/
def cellsStop (a : Nat) (s : Block) : Block :=
  { s with cells := s.cells.map fun (g, c) => if cellArm s g = a then (g, cellStopped c) else (g, c) }

/-- The deblock of an arm took effect at a t0 of this fabric cycle. -/
def deblockedNow (s : Block) (x : ArmSt) : Bool :=
  x.sw && (match x.deblocked with | some (t, _, _) => fabric t = fabric s.now | none => false)

/-- An arm that took a deblock in the fabric cycle of its t0 blocks: the deblock is withdrawn, and with it that of every arm
the same DEBLOCK named, which take their causes back (R528). -/
def withdrawLate (a : Nat) (s : Block) : Block :=
  let x := arm s a
  if !deblockedNow s x then s
  else
    let s := modArm a (fun x => { x with deblockRefuse := 1, deblocked := none }) s
    match x.deblocked with
    | some (_, true, _) =>
      forEach ((upto 12).filter fun b => b ≠ a && deblockedNow s (arm s b) &&
          (match (arm s b).deblocked with | some (_, all, _) => all | none => false))
        (fun b s => raise evArmBlocked (cellsStop b (modArm b (fun y => { armStopped y with
          deblocked := none, blockCause := match y.deblocked with | some (_, _, old) => old | none => y.blockCause }) s)))
        { s with seq := { s.seq with refuseArm := a } }
    | _ => s

/-- An arm blocks with a cause of Table 14-5 (R523, R524, R528). A cause in the fabric cycle of an earlier one
leaves the lower code; an arm blocked earlier keeps its cause, but FAULT always shows. -/
def blockArm (a cause : Nat) (s : Block) : Block :=
  if !armEnabled s a then s else
  let x := arm s a
  let s := blockSets a s
  let s := dropFrames a s
  let s := withdrawLate a (withdrawDeblock a cause s)
  let same : Bool := match x.blockedAt with | some t => fabric t = fabric s.now | none => false
  let s := if cause = 7 then raise evDeclCurrent s else s
  if x.sw then
    let s := modArm a (fun x => { armStopped x with
        blockCause := cause, blockedAt := some s.now, blockedCyc := s.cyc.index, ovrBlock := decide (cause = 8) }) s
    runToBlocked (raise evArmBlocked (cellsStop a s))
  else
    modArm a (fun x => { x with
      blockCause := if same then min x.blockCause cause else if cause = 1 then 1 else x.blockCause }) s

def blockArms (l : List Nat) (cause : Nat) (s : Block) : Block := forEach l (fun a => blockArm a cause) s

/-! ### Faults of the sequence -/

/-- SERVE and MONITOR ports return to the frames of DISCOVER (R531). -/
def portsToDiscovery (s : Block) : Block :=
  forEach (s.ports.map (·.1)) (fun p s =>
    let x := port s p
    if x.st = .serve ∨ x.st = .monitor then
      raiseIf x.alignOk (evAlignLost p) (modPort p (fun x => { x with
        st := .discover, discAt := s.now, frames := [], seg := [], reversed := false, alignOk := false }) s)
    else s) s

/-- Entry to DISCHARGE or FAULT. -/
def enterDown (st : ConvState) (s : Block) : Block :=
  let s := if s.seq.state = st then s else { s with seq := { s.seq with stepAt := s.now } }
  portsToDiscovery (setConv st { s with seq := { s.seq with step := 0 } })

/-- A fault cause of Table 14-6 arises (R530); a standby takes the sequence from the images (R506). -/
def seqFault (cause item : Nat) (s : Block) : Block :=
  if !isActive s then s else
  let first := s.seq.faultCause = 0 ∨ (fabric s.seq.faultAt = fabric s.now ∧ cause < s.seq.faultCause)
  let s := { s with seq := { s.seq with
      faultLast := cause,
      faultAt := if first then s.now else s.seq.faultAt,
      faultCause := if first then cause else s.seq.faultCause,
      faultItem := if first then item else s.seq.faultItem } }
  let s := raise evSeqFault s
  let hard := cause ≤ 4 ∨ cause = 11
  -- a DISCHARGE commanded in this fabric cycle yields to the fault (R533)
  let down : Bool := s.seq.state = .fault ∨ (s.seq.state = .discharge ∧ !(first ∧ fabric s.seq.stepAt = fabric s.now))
  if !hard ∧ down then s
  else
    let dest : ConvState := if !hard ∧ s.seq.state ≠ .ready ∧ charged s then .discharge else .fault
    let s := openBreakers (blockArms (enabledArms s) 1 s)
    enterDown dest s

/-! ### Mailboxes -/

def mbx (s : Block) (m : Nat) : MbxSt := tget {} s.host.mbx m
def modMbx (m : Nat) (f : MbxSt → MbxSt) (s : Block) : Block :=
  { s with host := { s.host with mbx := tmod {} s.host.mbx m f } }

/-- An ABORT took place in an earlier fabric cycle than `now`. -/
def abortDue (at_ : Option Nat) (now : Nat) : Bool :=
  match at_ with | some t => decide (fabric t < fabric now) | none => false

/-- A command completes: the whole response is written, then DONE; MBX_DONE when NOTIFY was set (R636). A response to a
function that was reset is discarded (R625). -/
def mbxDone (m status detail item : Nat) (payload : List W8) (s : Block) : Block :=
  let x := mbx s m
  if x.mstate = 1 ∨ x.mstate = 2 then
    -- an ABORT of an earlier fabric cycle has stopped the command; one of this fabric cycle comes too late (R639)
    let stopped := abortDue x.abortAt s.now
    if x.discard then modMbx m (fun x => { x with mstate := 0, discard := false, abortAt := none }) s
    else
      let s := modMbx m (fun x => { x with
          mstate := 3, doneAt := s.now, progress := if x.cls = 2 then 1000 else 0, abortAt := none,
          abortResult := if x.abortAt.isNone then x.abortResult else if stopped then 1 else 2,
          resp := if stopped then { opcode := x.req.opcode, tag := x.req.tag, status := 2, cls := x.cls }
            else { opcode := x.req.opcode, tag := x.req.tag, status := status, cls := x.cls, detail := detail,
                   item := item, payload := payload } }) s
      raiseIf (x.req.flags % 2 = 1) evMbxDone (raiseIf (x.cls = 2) evMbxProgress s)
  else s

/-! ### Trips that hold a deblock (R251) -/

def tripAction (s : Block) (i g : Nat) : Nat := parN s (0x3400 + 16 * i + g)

/-- Input i maps BLOCK or BLOCK_AND_OPEN onto a group. -/
def tripBlocks (s : Block) (i g : Nat) : Bool := 2 ≤ tripAction s i g

/-- Input i maps BLOCK or BLOCK_AND_OPEN onto the arm, by its own group or by the global group. -/
def tripOnArm (s : Block) (i a : Nat) : Bool := tripBlocks s i a || tripBlocks s i 12

/-- R251 is met: no such input is asserted or latched. -/
def r251 (s : Block) (a : Nat) : Bool :=
  (upto 32).all fun i => !(tripOnArm s i a && (bitAt s.trip.raw i || bitAt s.trip.latch i))

/-! ### Report deadline (R59, R60) -/

/-- The ports of an arm that serve a segment. -/
def servedPorts (s : Block) (a : Nat) : List Nat :=
  (armPorts s a).filter fun p => (port s p).st = .serve && (port s p).seg.length ≠ 0

/-- Every cell of the segment has completed R94 from this port. -/
def segCounts (s : Block) (p : Nat) : Bool := (port s p).seg.all fun g => (calOf s p (cell s g)).done

/-- Relayed segments of an arm (R613), and the cells of one: those beyond the near segment. -/
def armRelays (s : Block) (a : Nat) : List Nat := s.tw.relays.filter fun p => strArm s p = a
def farLen (s : Block) (p : Nat) : Nat := strCells s p - (port s p).seg.length
/-- The cell at a hop position from the partner's end of a twin-ring. -/
def farCell (s : Block) (p hop : Nat) : Nat :=
  48 * strPort s p + (if portSideB s p then hop else strCells s p - 1 - hop)
def peerPort (s : Block) (p : Nat) : PeerPort := tget {} s.tw.peer p

/-- The report deadline after t0 in 250 ps units; none is the fallback T_c - 850 ns on which R60 does not act. -/
def repDeadline (s : Block) (a : Nat) : Option Nat :=
  let w := parW s (0x0020 + a)
  if !feq w f32Zero then some (durF w usU)
  else
    let ps := servedPorts s a
    if ps.length ≠ 0 ∧ ps.all (segCounts s) then
      -- 80 ns + D_far + L_rep with a service slot + 250 ns; a relayed segment adds D_TW + 0.4 us (R615)
      let near := ps.map fun p => 320 + (port s p).dFar + (120 + 80 * (port s p).seg.length) + 160
      let far := (armRelays s a).map fun p =>
        320 + (peerPort s p).dFar + (120 + 80 * farLen s p) + 160 + s.tw.dTw + 1600
      some (maxNat (near ++ far) + 1000)
    else none

def deadlineU (s : Block) (a : Nat) : Nat := (repDeadline s a).getD (tcU s - 3400)

def cycleTooShort (s : Block) (a : Nat) : Bool :=
  match repDeadline s a with | some d => decide (tcU s < d) | none => false

/-! ### The next cycle start (R48, R50) -/

/-- The first instant at or after x that meets R48 for N and phase. -/
def nextOn (n phase x : Nat) : Nat := x + ((((8 * phase : Nat) : Int) - (x : Int)) % ((max 1 (2000 * n) : Nat) : Int)).toNat

/-- The next cycle start, and whether it begins a new rhythm. -/
def nextStart (s : Block) : Nat × Bool :=
  let lo := if s.cyc.started then max s.now (s.cyc.t0 + 1) else s.now
  let old := nextOn s.cyc.n s.cyc.phase lo
  match s.cyc.newRhythm with
  | some (n, p, c) =>
    let new := nextOn n p (max lo c)
    if new ≤ old then (new, true) else (old, false)
  | none => (old, false)

/-- The cycle index at a cycle start: every t0 counts, also one that passed without a CYC_START (R49, R50). -/
def nextIndex (s : Block) (t : Nat) (new : Bool) : Nat :=
  match s.tw.adopt with
  | some i => i
  | none =>
    if new then
      match s.cyc.newRhythm with
      | some (n, p, c) => (t - nextOn n p c) / max 1 (2000 * n) % 2 ^ 32
      | none => 0
    else (s.cyc.index + (if s.cyc.started then max 1 ((t - s.cyc.t0) / max 1 (tcU s)) else 1)) % 2 ^ 32

end Sys2Proof.Machine
end

