-- ==== Sys2Proof/Machine/Sample.lean ====
section
/-!
DEFINITION. The values of the analogue inputs (chapter 11): slots of the regular sequence, the cycle value of an input
for the cycle that ended at t0, and the arm current that the Bolter takes from it (R191).
-/

namespace Sys2Proof.Machine

def adcUnit (s : Block) (u : Nat) : AdcUnit := tget {} s.adc.units u
def modUnit (u : Nat) (f : AdcUnit → AdcUnit) (s : Block) : Block :=
  { s with adc := { s.adc with units := tmod {} s.adc.units u f } }
def modIn (k : Nat) (f : InSt → InSt) (s : Block) : Block :=
  { s with adc := { s.adc with inputs := tmod {} s.adc.inputs k f } }

/-! ### Inputs (Table 11-1) -/

/-- The unit of an input. -/
def unitOf (k : Nat) : Nat := if k < 48 then k / 12 else (k - 48) / 4
def seqLen (s : Block) (u : Nat) : Nat := parN s (0x7004 + u)
def seqEntry (s : Block) (u e : Nat) : Nat := parN s (0x7100 + 32 * u + e)
/-- The input is in its unit's regular sequence. -/
def inSeq (s : Block) (k : Nat) : Bool := (upto (seqLen s (unitOf k))).any fun e => seqEntry s (unitOf k) e = k
def calRunning (x : AdcUnit) : Bool := 2 ≤ x.calState

/-! ### Values (R406, R410 to R413) -/

/-- Per-unit value of a code. -/
def perUnit (k : Nat) (code : Int) : Q := qf code (if k < 48 then 32768 else 65536)

def codeClips (k : Nat) (code : Int) : Bool :=
  if k < 48 then code = -32768 || code = 32767 else code = 65535

/-- The input that a slot instant serves in the regular sequence (R404, R410). -/
def slotInput (s : Block) (u t : Nat) : Nat :=
  let from_ := if s.cyc.t0 ≤ t then s.cyc.t0 else s.cyc.t0 - s.cyc.lastLen
  seqEntry s u (((t - from_) / 20) % max 1 (seqLen s u))

/-- The first slot at or after an instant. -/
def slotAfter (s : Block) (t : Nat) : Nat := s.cyc.t0 + 20 * divCeil (t - s.cyc.t0) 20

/-- R412 with its target instant: value, EXTRAP, and the conversions that entered it. -/
def instAt (k : Nat) (x : InSt) (tr : Nat) : F32 × Bool × List Int :=
  let before := x.convs.filter fun c => decide (c.1 ≤ tr)
  let pb := x.convs.find? fun c => decide (tr < c.1)
  let v := fun (c : Nat × Int) => perUnit k c.2
  match before.reverse, pb with
  | [], some b => (f32OfQ (v b), true, [b.2])
  | [], none => (x.last, true, [])
  | pa :: more, pb =>
    if pa.1 = tr then (f32OfQ (v pa), false, [pa.2])
    else
      match pb with
      | some b =>
        if b.1 - tr < 640 then
          (f32OfQ (qadd (v pa) (qmul (qsub (v b) (v pa)) (qf (tr - pa.1 : Nat) (b.1 - pa.1)))), false, [pa.2, b.2])
        else
          match more with
          | pz :: _ => (f32OfQ (qadd (v pa) (qmul (qsub (v pa) (v pz)) (qf (tr - pa.1 : Nat) (pa.1 - pz.1)))), true, [pa.2, pz.2])
          | [] => (f32OfQ (v pa), true, [pa.2])
      | none =>
        match more with
        | pz :: _ => (f32OfQ (qadd (v pa) (qmul (qsub (v pa) (v pz)) (qf (tr - pa.1 : Nat) (pa.1 - pz.1)))), true, [pa.2, pz.2])
        | [] => (f32OfQ (v pa), true, [pa.2])

/-- AVG of the codes of one cycle, one rounding at the end (R411). -/
def meanOf (k : Nat) (l : List Int) : F32 :=
  let q := perUnit k (sumInt l)
  f32OfQ { q with den := q.den * l.length }

def fmean (a b : F32) : F32 := f32OfQ (qmul (qadd (q32 a) (q32 b)) (qf 1 2))

def openWire (s : Block) (k : Nat) : Bool := 48 ≤ k && parN s (0x7340 + k) ≠ 0

/-- R414 for the cycle that ended at t0. -/
def adcValid (s : Block) (k : Nat) : Bool :=
  let x := adcUnit s (unitOf k)
  let a := s.cyc.t0 - s.cyc.lastLen
  inSeq s k && x.on && s.adc.ready &&
    decide (x.refAt ≤ a) && (x.refReady || decide (s.cyc.t0 < x.refFell)) &&
    (match x.calDone with | some t => decide (t < a) | none => false) && !calRunning x &&
    !(parB s (0x7300 + k) && 48 ≤ k && x.vanaBad)

/-- The mirror entry of an input for the cycle that ended at t0 (R411 to R418, R431, R434). -/
def mirror (s : Block) (k : Nat) (x : InSt) : InSt :=
  let u := adcUnit s (unitOf k)
  let t0 := s.cyc.t0
  let l := (x.convs.filter fun c => decide (t0 - s.cyc.lastLen ≤ c.1 ∧ c.1 < t0)).map (·.2)
  let (i, ex, used) := instAt k x t0
  let avg := if l.length = 0 then x.avg else meanOf k l
  let v := adcValid s k
  let ow := openWire s k
  let (pa, pi) := x.prev.getD (avg, i)
  let d := qabs (qsub (q32 avg) (q32 pa))
  { x with
      avg := if !v then x.avg else if ow then fmean avg pa else avg,
      inst := if !v then x.inst else if ow then fmean i pi else i,
      nConv := clampU 16 l.length, valid := v, calIn := calRunning u, extrap := ex,
      clip := (l ++ used).any (codeClips k),
      opened := ow && qlt (q32 (parW s (0x7380 + k))) d,
      test := k < 48 && (u.test = k || u.testPrev = k), cycle := s.cyc.index, last := i,
      prev := if ow then some (avg, i) else none }

/-- The cycle value of an input for this t0: its mirror entry, or the value that enters the mirror where ADC_READY has
not been posted yet, since rankings and measurements do not wait for each other (R55). -/
def cycleValue (s : Block) (k : Nat) : InSt :=
  let x := ainVal s k
  if s.cyc.adcReady then x else if inSeq s k then mirror s k x else { x with valid := false }

/-- The arm current of R191: INST of the arm's input at this t0, inverted when the arm says so, and its VALID flag. -/
def armCurrent (s : Block) (a : Nat) : F32 × Bool :=
  let x := cycleValue s (parN s (0x2000 + a))
  (if parB s (0x2010 + a) then fneg x.inst else x.inst, x.valid)

end Sys2Proof.Machine
end

