-- ==== Sys2Proof/Machine/Crc.lean ====
section
/-!
DEFINITION. The CRCs of the cell links, the twin link and the configuration sets (R142, R778, Table 4-5).
-/

namespace Sys2Proof.Machine

/-- Bits of a w-bit number in reversed order. -/
def reflect (w x : Nat) : Nat := (upto w).foldl (fun r k => 2 * r + b2n (x.testBit k)) 0

/-- One bit of a reflected CRC. -/
def crcBit (poly c : Nat) : Nat := if c % 2 = 1 then (c / 2) ^^^ poly else c / 2

/-- One byte of a reflected CRC; `poly` is bit-reversed. -/
def crcByte (poly c : Nat) (b : W8) : Nat :=
  let c := c ^^^ b.toNat
  crcBit poly (crcBit poly (crcBit poly (crcBit poly (crcBit poly (crcBit poly (crcBit poly (crcBit poly c)))))))

def crcRun (poly init : Nat) (l : List W8) : Nat := l.foldl (crcByte poly) init

/-- CRC-8: polynomial 0x07, initial value 0xFF. -/
def crc8 (l : List W8) : Nat := crcRun 0xE0 0xFF l

/-- CRC-16: polynomial 0x1021, initial value 0xFFFF XOR seed in unreflected form (R778). -/
def crc16 (seed : Nat) (l : List W8) : Nat := crcRun 0x8408 (reflect 16 (0xFFFF ^^^ seed)) l

/-- CRC-32C: polynomial 0x1EDC6F41, initial value and final XOR all ones. -/
def crc32c (l : List W8) : Nat := crcRun 0x82F63B78 0xFFFFFFFF l ^^^ 0xFFFFFFFF

end Sys2Proof.Machine
end

