-- ==== Sys2Proof/Machine/Link.lean ====
section
/-!
DEFINITION. Cell-link ports (chapter 3): port states, training and discovery, delay calibration, time marks, breaks,
link loss, and the service requests of R94 and R104.
-/

namespace Sys2Proof.Machine

/-! ### Ordered sets (R133) -/

/-- A set of a K code group and data code groups; K code groups are marked. -/
def orderedSet (k : W8) (l : List W8) : List (Bool × W8) := (true, k) :: l.map (false, ·)

def byteN (n : Nat) : W8 := BitVec.ofNat 8 n

/-- K28.1 CTL ~CTL D10.2. -/
def trainSet (count : Nat) (up : Bool) : List (Bool × W8) :=
  let ctl := byteN (count % 64 + 64 * b2n up)
  orderedSet 0x3C#8 [ctl, ~~~ctl, 0x4A#8]

/-- K28.3 ECTL ~ECTL D10.2. -/
def echoSet (target : Nat) (reply : Bool) : List (Bool × W8) :=
  let e := byteN (target % 64 + 64 * b2n reply)
  orderedSet 0x7C#8 [e, ~~~e, 0x4A#8]

/-- A time mark from a port: hop count 0, MARK, LT, PH, NC and their CRC-8. -/
def markSet (lt ph nc : Nat) : List (Bool × W8) :=
  let ctl := 0x80#8
  let body := leBytes 4 (lt % 2 ^ 30) ++ leBytes 2 (ph % 2 ^ 15) ++ leBytes 1 nc
  orderedSet 0x3C#8 ([ctl, ~~~ctl] ++ body ++ leBytes 1 (crc8 body) ++ [0x4A#8])

/-- K30.7 D16.5 D16.5 D16.5; the four sets of a block (R138) are four of these. -/
def blockSet : List (Bool × W8) := orderedSet 0xFE#8 [0xB0#8, 0xB0#8, 0xB0#8]

/-- Length of a set on the line in 250 ps units: ten to a code group. -/
def setLen (l : List (Bool × W8)) : Nat := 10 * l.length

/-- The first instant from `t` on at which a set of a length fits between the frames of a port (R102). -/
def gapAt (x : PortSt) (len t : Nat) : Nat :=
  x.frames.foldl (fun t f => if t + len ≤ f.launch then t else max t f.endT) (max t x.freeAt)

/-- A set that left at t would have met the frame sent last. -/
def metFrame (x : PortSt) (len t : Nat) : Bool :=
  decide (x.freeAt - 10 * x.lastTx.length < t + len) && decide (t < x.freeAt)

/-! ### Service requests (R153, R169 to R172) -/

/-- Adds a service request to a port; it takes a tag when it is first sent. -/
def svcAdd (p g : Nat) (wr : Bool) (addr : Nat) (data : W32) (m : Nat) (s : Block) : Block :=
  let sideB := portSideB s p
  modPort p (fun x => { x with
    svc := x.svc ++ [{ cell := g, sideB := sideB, wr := wr, addr := addr, data := data, tag := 0,
                       sent := false, endT := 0, tries := 0, mbx := m }] }) s

/-- The 16 bytes of the service slot of a request (Table 4-10). -/
def svcBytes (s : Block) (p : Nat) (r : SvcReq) : List W8 :=
  let w := 1 + 4 * b2n r.sideB + 8 * b2n r.wr + 16 * (hopOf s p r.cell % 64) + 2 ^ 10 * r.tag + 2 ^ 16 * r.addr
  let body := leBytes 4 w ++ leBytes 4 r.data.toNat ++ leBytes 6 0
  body ++ leBytes 2 (crc16 0x3F body)

/-- The request that the next frame of a port carries: the oldest not sent, under the port's next tag; one issued again
keeps its tag. -/
def svcNext (s : Block) (p : Nat) : Option SvcReq :=
  ((port s p).svc.find? (fun r => !r.sent)).map fun r => if r.tagged then r else { r with tag := (port s p).nextTag, tagged := true }

/-- The oldest request not sent becomes r. -/
def svcPut (r : SvcReq) : List SvcReq → List SvcReq
  | [] => []
  | q :: t => if q.sent then q :: svcPut r t else r :: t

def svcMarkSent (p : Nat) (r : SvcReq) (endT : Nat) (s : Block) : Block :=
  modPort p (fun x => { x with
    svc := svcPut { r with sent := true, endT := endT } x.svc,
    nextTag := if r.tag = x.nextTag then (x.nextTag + 1) % 64 else x.nextTag }) s

/-! ### Delay estimates (R98, R104) -/

/-- The last link.echo_avg samples, each twice the delay in ps. -/
def lastSamples (s : Block) (c : SideCal) : List Int := lastN (parN s 0x1100) c.samples

/-- est - dly in half-ps times the number of samples: sum of the samples minus n times 500 per offset unit. -/
def estErrSum (s : Block) (c : SideCal) (dly : Nat) : Int :=
  sumInt (lastSamples s c) - ((lastSamples s c).length : Int) * 500 * (dly : Int)

/-- The estimate in 250 ps units, rounded to nearest. -/
def estUnits (s : Block) (c : SideCal) : Nat :=
  let l := lastSamples s c
  if l.length = 0 then 0 else (idivRna (sumInt l) (500 * l.length)).toNat

/-- |est - dly| in 250 ps units, rounded to nearest. -/
def estErrUnits (s : Block) (c : SideCal) (dly : Nat) : Nat :=
  let l := lastSamples s c
  if l.length = 0 then 0 else (idivRna ((estErrSum s c dly).natAbs : Int) (500 * l.length)).toNat

/-- The offset of a ring cell's other side is fresh (R109). On a twin-ring the partner keeps that offset and no message
says when it last confirmed it: that the partner's port holds lock stands for it, the model's choice (log entry 31). -/
def otherFresh (s : Block) (p : Nat) (o : SideCal) : Bool :=
  if portTopo s p = 2 then s.tw.peerLock p
  else o.dly.isSome && decide (s.now ≤ o.confirmed + parDur s 0x1104 msU)

/-- The offset and a time mark are applied, |est - dly| ≤ 1 ns, and the other side of a ring cell is fresh (R109). -/
def cellAligned (s : Block) (p : Nat) (c : CellSt) : Bool :=
  let k := calOf s p c
  let o := if portSideB s p then c.calA else c.calB
  (match k.dly with
   | some d => k.marked && decide ((estErrSum s k d).natAbs ≤ 2000 * (lastSamples s k).length)
   | none => false)
  && (!portRing s p || otherFresh s p o)

/-- ALIGN_OK of a port computed again; its fall raises ALIGN_LOST (R109). A port in MONITOR serves no cell, so every cell
it serves is aligned. -/
def alignUpdate (p : Nat) (s : Block) : Block :=
  let x := port s p
  let ok := x.st = .monitor || (x.st = .serve && x.seg.length ≠ 0 && x.seg.all (fun g => cellAligned s p (cell s g)))
  let s := modPort p (fun x => { x with alignOk := ok }) s
  raiseIf (x.alignOk && !ok) (evAlignLost p) s

/-- The port serves cells that it normally monitors (R112, R115); an entry to REVERSED is counted (Table 3-6). -/
def serveReversed (x : PortSt) : PortSt :=
  { x with
      st := .serve, reversed := true, markDue := true,
      reversals := if x.reversed then x.reversals else satInc 16 x.reversals }

/-- D_FAR and D_FAR_ALT of a port (Table 3-6). -/
def dFarUpdate (p : Nat) (s : Block) : Block :=
  let est := fun g => estUnits s (calOf s p (cell s g))
  let x := port s p
  let whole := strCellList s p
  let far := if portSideB s p then whole.head? else whole.getLast?
  modPort p (fun x => { x with
    dFar := (match x.seg.getLast? with | some g => est g | none => x.dFar),
    dFarAlt := if portRing s p then
        (if x.brk then x.dFarAlt else match far with | some g => est g | none => 0) else 0 }) s |>
  fun t => if x.st = .dark then s else t

/-! ### Port states (R90, R91) -/

def resetCal (s : Block) (p : Nat) (g : Nat) (c : CellSt) : CellSt :=
  if strPort s p = g / 48 ∧ portUsed s p then
    (if portSideB s p then { c with calB := {} } else { c with calA := {} })
  else c

/-- ALIGN_OK of a port falls (R109, R127). -/
def alignLost (p : Nat) (s : Block) : Block :=
  raiseIf (port s p).alignOk (evAlignLost p) (modPort p (fun x => { x with alignOk := false }) s)

/-- The port serves and monitors no cell any more (R126). -/
def noSegment (p : Nat) (s : Block) : Block :=
  alignLost p (modPort p (fun x => { x with seg := [], reversed := false, frames := [] }) s)

/-- Entry to DISCOVER on upstream lock: every cell of the port runs R94 anew. -/
def enterDiscover (p : Nat) (s : Block) : Block :=
  let t := modPort p (fun x => { x with
    st := .discover, discAt := s.now, svc := [], setTx := trainSet 0 false }) (noSegment p s)
  mapCells (resetCal s p) t

/-- The power domain of the port's group is on, and its group works (R91, R121). -/
def portPowered (s : Block) (p : Nat) : Bool :=
  bitAt s.pwr.domOn (6 + p / 16) && !bitAt s.rst.pgFailed (p / 16)

/-- SEEK with TXDIS released at this instant (R91); a port without power stays dark (R121). -/
def enterSeek (p : Nat) (s : Block) : Block :=
  if portPowered s p then
    modPort p (fun x => { x with
      st := .seek, txdis := false, seekAt := s.now, training := false, failCause := 0 }) (noSegment p s)
  else s

/-- Entry to FAIL (R93, R96, R117). -/
def enterFail (p cause : Nat) (s : Block) : Block :=
  raise (evLinkLost p) (modPort p (fun x => { x with
    st := .fail, failCause := cause, failLost := false }) (noSegment p s))

/-- A port in DARK: transmitter disabled (R121). The manual speaks of its transmitter only: that LOCK clears, that no
loss is counted, and that the receiver is not looked at while the port is dark is the model's choice (log entry 31). -/
def enterDark (p : Nat) (s : Block) : Block :=
  modPort p (fun x => { x with
    st := .dark, txdis := true, lock := false, training := false, svc := [], lostAt := none, viol := [] }) (noSegment p s)

/-- A port in FAIL that holds upstream lock while its arm is not switching leaves for SEEK, where its lock takes it
to DISCOVER at once; count mismatch and delay limit first need lock lost and regained (R119). -/
def failLeaves (s : Block) (p : Nat) : Bool :=
  let x := port s p
  x.st = .fail && x.lock && !(switching s (strArm s p)) && (x.failCause = 1 || x.failLost)

/-- The way out of FAIL. The manual does not say when FAIL_CAUSE clears: that it returns to 0 here is the model's choice
(log entry 31). -/
def leaveFail (p : Nat) (s : Block) : Block :=
  if failLeaves s p then
    enterDiscover p (modPort p (fun x => { x with st := .seek, training := true, failCause := 0 }) s)
  else s

/-- Every port in FAIL is looked at once the command has acted. -/
def portsSettle (s : Block) : Block := forEach (s.ports.map (·.1)) leaveFail s

/-- The ports that serve when the string is whole: a chain, the even port of a self-ring, the active unit's port of
a twin-ring (R85). -/
def servesWhole (s : Block) (p : Nat) : Bool :=
  match portTopo s p with
  | 0 => true
  | 1 => true
  | 2 => isActive s
  | _ => false

/-- The cells a port has found (R92), in hop order. -/
def foundRun (s : Block) (p : Nat) : List Nat :=
  (upto (min (port s p).cellsFound (strCells s p))).map (cellAtHop s p)

def setSeg (p : Nat) (seg : List Nat) (s : Block) : Block :=
  dFarUpdate p (modPort p (fun x => { x with seg := seg }) s)

/-- A port enters SERVE or MONITOR under R85; a ring found from both ends starts split, with BREAK set (R518). At the end
of discovery (`fresh`) what the ports found decides; later a ring that is split stays so (R116, R782). -/
def enterService (fresh : Bool) (p : Nat) (s : Block) : Block :=
  let whole := (upto (strCells s p)).map (cellAtHop s p)
  match ringMate s p with
  | some q =>
    let mine := foundRun s p
    let mate := foundRun s q
    let even := portTopo s p = 1
    let wholeA := if even then mine.length = strCells s p else mate.length = strCells s p
    let found := !wholeA && (if even then mate else mine).length ≠ 0
    if ((port s p).brk && !fresh) || found then
      let was := (port s p).brk
      let s := modPort p (fun x =>
        if even then { x with st := .serve, reversed := false, markDue := true } else serveReversed x) s
      let s := raiseIf (!was) (evRingBreak p) s
      let s := forEach [p, q] (fun r => modPort r fun x => { x with
        brk := true, split := if was then x.split else true, brkAt := if was then x.brkAt else s.now }) s
      setSeg p mine s
    else
      setSeg p whole (modPort p (fun x => { x with
        st := if even then .serve else .monitor, reversed := false, brk := false, split := false, markDue := true }) s)
  | none =>
    let st : PState := if servesWhole s p then .serve else .monitor
    if portTopo s p = 2 then
      let mine := foundRun s p
      let was := (port s p).brk
      let splitNow := (was && !fresh) || (mine.length ≠ strCells s p && mine.length ≠ 0)
      let s := modPort p (fun x => { x with
        st := st, brk := splitNow, split := splitNow && (x.split || !was), brkAt := if was then x.brkAt else s.now,
        markDue := true }) s
      setSeg p (if splitNow then mine else whole) (raiseIf (splitNow && !was) (evRingBreak p) s)
    else setSeg p (foundRun s p) (modPort p (fun x => { x with st := st, markDue := true }) s)

/-! ### Discovery of a cell (R94, R95) -/

/-- Step 1 of R94: the identity and the link constants of the side are read. -/
def startCal (p g : Nat) (s : Block) : Block :=
  let k := calOf s p (cell s g)
  let busy := (port s p).svc.any (fun r => r.cell = g && r.mbx = 8)
  if k.done || k.ident.isSome || busy then s
  else svcAdd p g false (if portSideB s p then 2 else 1) 0#32 8 (svcAdd p g false 0 0#32 8 s)

/-- A cell marked by R95; after discovery has ended it enters FAULTED at the next cycle start. -/
def markBad (p g : Nat) (s : Block) : Block :=
  let s := modCal p g (fun k => { k with bad := true }) s
  if s.seq.discoveryEnded then faultCell g 5 s else s

/-- The identity tag and bridge type of R95. -/
def identOk (s : Block) (g : Nat) (w : W32) : Bool :=
  let tag := bits (tget 0 s.model.cellTab g) 48 16
  (bitAt w.toNat 16 == cellFB s g) && (tag = 0 || tag = bits w.toNat 0 16)

/-- U in ps and ASYM in ps of a link-constant register (Table 4-11). -/
def uPs (w : W32) : Int := (bits w.toNat 0 20 : Nat)
def asymPs (w : W32) : Int := sext 12 (bits w.toNat 20 12)

/-- Sum of the hop asymmetries of the cells nearer to the port than hop (R98). -/
def asymSum (s : Block) (p hop : Nat) : Int :=
  sumInt ((upto hop).map fun i =>
    match (calOf s p (cell s (cellAtHop s p i))).consts with | some w => asymPs w | none => 0)

/-- Every R94 step but the time mark is done once the offset is written; the mark completes it. -/
def calComplete (k : SideCal) : Bool := k.ident.isSome && k.consts.isSome && k.echoes ≥ 16 && k.dly.isSome && !k.bad

/-- A time mark is applied by a cell that has its offset; it completes R94 (step 4). A cell that first completes
R94 after discovery has ended enters FAULTED with cause 4 (R520). -/
def applyMark (p g : Nat) (s : Block) : Block :=
  let c := cell s g
  let k := calOf s p c
  if k.dly.isSome then
    let fin := calComplete k && !k.done
    let s := modCal p g (fun k => { k with marked := true, done := k.done || calComplete k }) s
    if fin then
      let late := s.seq.discoveryEnded && !c.everDone
      let s := modCell g (fun c => { c with everDone := true, ranked := false }) s
      if late then faultCell g 4 s else s
    else s
  else s

/-! ### Meanings -/

/-- TRAIN (R92, R93): the upstream count becomes CELLS_FOUND; a count above CELLS fails the port. -/
def trainStep (p count : Nat) (s : Block) : Block :=
  let x := port s p
  let hears := portUsed s p && ((x.st = .seek && x.training) || x.st = .discover || x.st = .serve || x.st = .monitor)
  if !hears then s else
  let s := raiseIf (x.cellsFound ≠ count) (evCellsChanged p) (modPort p (fun x => { x with cellsFound := count }) s)
  if strCells s p < count then enterFail p 2 s
  else if x.st = .seek then s
  else
    -- cells that had gone and appear again run R94 anew; those of a split ring keep their offsets (R116)
    let new := if x.brk then [] else ((upto count).filter fun h => decide (x.cellsFound ≤ h)).map (cellAtHop s p)
    let s := forEach new (fun g => modCal p g fun _ => {}) s
    -- cells that newly appear on a chain in service join its segment with NULL slots (R94)
    let s := if portTopo s p = 0 && x.st ≠ .discover && decide (x.seg.length < count) then
      setSeg p ((upto count).map (cellAtHop s p)) s else s
    forEach ((upto count).map (cellAtHop s p)) (startCal p) s

/-- SEEK_SETTLE (R91): 2 ms after TXDIS release the port transmits TRAIN; a lock it holds then counts. -/
def seekSettleStep (p : Nat) (s : Block) : Block :=
  let x := port s p
  if x.st = .seek && !x.training && !x.txdis then
    let s := atTime (x.seekAt + 2 * msU) s
    let s := modPort p (fun x => { x with training := true, setTx := trainSet 0 false }) s
    if x.lock then enterDiscover p s else s
  else s

/-- UPSTREAM_LOCK (R91, R119). -/
def upstreamLockStep (p : Nat) (s : Block) : Block :=
  let x := port s p
  if x.st = .dark || x.lock then s
  else
    let s := modPort p (fun x => { x with lock := true, lostAt := none }) s
    if x.st = .seek && x.training then enterDiscover p s else s

/-- The code violations of the last microsecond with those that come now (R110). -/
def recentViol (x : PortSt) (now n : Nat) : List (Nat × Nat) :=
  (x.viol.filter fun v => decide (now < v.1 + usU)) ++ [(now, n)]

/-- UPSTREAM_LOCK_LOST (R110): clock recovery is lost (no violations given), or code violations come; link.code_err_limit
of them within 1 us lose the lock. CELLS_FOUND keeps its value when lock is lost, and when the port falls back to SEEK or
enters DISCOVER again, until the next TRAIN: the model's choice (log entry 31). -/
def upstreamLockLostStep (p violations : Nat) (s : Block) : Block :=
  let x := port s p
  if x.st = .dark then s
  else
    let viol := recentViol x s.now violations
    let s := if violations = 0 then s else modPort p (fun x => { x with
      viol := viol, codeErr := satAdd 32 x.codeErr violations }) s
    if !x.lock || !(violations = 0 || decide (parN s 0x1106 ≤ sumNat (viol.map (·.2)))) then s
    else
      let s := modPort p (fun x => { x with
        lock := false, lostAt := some s.now, lockLoss := satInc 16 x.lockLoss, viol := [],
        failLost := x.failLost || x.st = .fail }) s
      if x.st = .discover then modPort p (fun x => { x with st := .seek, training := true, frames := [] }) s else s

/-- The port of a chain, or of a self-ring that does not reverse, whose break is that of a chain (Table 3-8). -/
def asChain (s : Block) (p : Nat) : Bool := portTopo s p = 0 || ((ringMate s p).isSome && !parB s 0x1103)

/-- LINK_LOSS (R117): a chain SERVE port, or a port of a self-ring that does not reverse, without lock for
link.loss_time. -/
def linkLossStep (p : Nat) (s : Block) : Block :=
  let x := port s p
  match x.lostAt with
  | some t =>
    if portUsed s p && x.st = .serve && asChain s p && !x.lock then
      let s := atTime (t + parDur s 0x1101 usU) s
      let go := r781 s
      let seg := if portTopo s p = 0 then strCellList s p else x.seg
      let s := enterFail p 1 s
      if go then forEach seg (fun g => faultCell g 6) s else s
    else s
  | none => s

/-- SEGMENT_ABSENT (R114): a cell of a broken ring present in neither segment for 2 cycles. -/
def segmentAbsentStep (g : Nat) (s : Block) : Block :=
  let p := g / 48
  if portRing s p && !asChain s p && (port s p).brk && (cell s g).absent ≥ 2 && r781 s then faultCell g 6 s else s

/-- REPORT_END_SHORT (R118): chain reports that end short for 2 cycles. -/
def reportEndShortStep (p : Nat) (s : Block) : Block :=
  let x := port s p
  if portUsed s p && asChain s p && x.endShort ≥ 2 && r781 s then
    forEach ((upto (strCells s p)).filter (fun h => x.endHop < h)) (fun h => faultCell (cellAtHop s p h) 6) s
  else s

/-- An offset correction of R104 for a cell after a new sample. -/
def correctDelay (p g : Nat) (s : Block) : Block :=
  let k := calOf s p (cell s g)
  match k.dly with
  | none => s
  | some d =>
    let n := (lastSamples s k).length
    let e := estErrSum s k d
    let s := modPort p (fun x => { x with alignErrMax := max x.alignErrMax (estErrUnits s k d) }) s
    -- 187 ps is 374 half-ps
    if 374 * n < e.natAbs then
      if parN s 0x1105 ≤ k.gap && k.dlyWait.isNone then
        let d' := if 0 < e then d + 1 else d - 1
        let s := modCal p g (fun k => { k with dlyWait := some d', gap := 0 }) s
        let s := modPort p (fun x => { x with dlyCorr := satInc 16 x.dlyCorr }) s
        svcAdd p g true (if portSideB s p then 4 else 3) (BitVec.ofNat 32 d') 8 s
      else s
    else modCal p g (fun k => { k with confirmed := s.now }) s

/-- The hop position that the one ECHO of a cycle goes to in SERVE and MONITOR: a new cell until its 16 are done, else
the next of the rotation over the cells the port faces (R94, R103). -/
def echoTarget (s : Block) (p : Nat) : Nat :=
  let x := port s p
  let new := (upto x.seg.length).find? fun h =>
    let k := calOf s p (cell s (cellAtHop s p h))
    k.consts.isSome && !k.done && !k.bad && decide (k.echoes < 16)
  new.getD (x.echoNext % max 1 x.seg.length)

/-- An ECHO to a hop position can have left: 8 in a cycle in DISCOVER (R96), one in SERVE and MONITOR to its target
(R103), in a gap between the frames (R102). -/
def echoLeft (s : Block) (p hop rtt : Nat) : Bool :=
  let x := port s p
  portUsed s p && decide (hop < strCells s p) && !metFrame x 40 (s.now - rtt) &&
    (if x.st = .discover then decide (x.echoCnt < 8)
     else (x.st = .serve || x.st = .monitor) && x.echoCnt = 0 && hop = echoTarget s p)

/-- The ECHO has left: it counts, and the rotation goes on unless it went to a new cell. -/
def echoSent (hop : Nat) (x : PortSt) : PortSt :=
  { x with
      echoPos := hop, echoCnt := x.echoCnt + 1, setTx := echoSet hop false,
      echoNext := if x.st ≠ .discover ∧ hop = x.echoNext % max 1 x.seg.length then (hop + 1) % max 1 x.seg.length
        else x.echoNext }

/-- ECHO (R98): the reply of the cell at a hop position returned after rtt unit intervals of 250 ps. -/
def echoStep (p hop rtt : Nat) (s : Block) : Block :=
  let x := port s p
  let g := cellAtHop s p hop
  let c := cell s g
  let k := calOf s p c
  if !echoLeft s p hop rtt || stopped s (6 + p / 16) then s else
  let s := modPort p (echoSent hop) s
  match k.consts with
  | some w =>
    let d2 : Int := (rtt : Int) * 250 - uPs w + asymSum s p hop
    let s := modCal p g (fun k => { k with samples := lastN 64 (k.samples ++ [d2]), echoes := min 16 (k.echoes + 1) }) s
    let k := calOf s p (cell s g)
    -- the 16 ECHOs of R94 end: the offset is checked and written
    let s :=
      if k.echoes = 16 && k.dly.isNone && k.dlyWait.isNone && !k.bad then
        let n := (lastSamples s k).length
        if 32000000 * (n : Int) < sumInt (lastSamples s k) then
          -- above 16.0 us (R95); at hop 0 in DISCOVER the port fails (R96)
          if hop = 0 && x.st = .discover then
            let s := forEach ((upto x.cellsFound).map (cellAtHop s p)) (markBad p) s
            enterFail p 3 s
          else markBad p g s
        else
          let d := estUnits s k
          let s := modCal p g (fun k => { k with dlyWait := some d }) s
          svcAdd p g true (if portSideB s p then 4 else 3) (BitVec.ofNat 32 d) 8 s
      else correctDelay p g s
    alignUpdate p (dFarUpdate p s)
  | none => s

/-- PH of a time mark that leaves at t (Table 4-2). -/
def markPhase (s : Block) (t : Nat) : Nat :=
  ((((t / 8 : Nat) : Int) - (s.cyc.phase : Int)) % ((250 * s.cyc.n : Nat) : Int)).toNat

/-- The first symbol of a time mark leaves the port at t (R100, R135). -/
def sendMark (p t : Nat) (s : Block) : Block :=
  modPort p (fun x => { x with
    markAt := t, markLT := t % 2 ^ 30, markNC := s.cyc.n, markDue := false, markPH := markPhase s t,
    setTx := markSet t (markPhase s t) s.cyc.n }) s

/-- A time mark of the port leaves in the first gap from t on and is applied by the cells it reaches (R100, R102). -/
def markFrom (p t : Nat) (s : Block) : Block :=
  let x := port s p
  let s := sendMark p (gapAt x 120 t) s
  let cells := if x.st = .discover then (upto x.cellsFound).map (cellAtHop s p) else
    (if portRing s p then (upto (strCells s p)).map (cellAtHop s p) else x.seg)
  alignUpdate p (forEach cells (applyMark p) s)

/-- The instant at which the next time mark of a port is due: at once where R94, R112 or a takeover asks for it or none
has been sent, else link.timemark_interval after the last one (R101). -/
def markDueAt (s : Block) (p : Nat) : Nat :=
  let x := port s p
  if x.markDue || x.st = .discover || x.markAt = 0 then s.now else max s.now (x.markAt + parDur s 0x1102 msU)

/-- TIME_MARK (R101; step 4 of R94; the mark of a reversal, R112): the port's next mark. -/
def timeMarkStep (p : Nat) (s : Block) : Block :=
  let x := port s p
  if portUsed s p && !stopped s (6 + p / 16) && (x.st = .serve || x.st = .monitor || x.st = .discover) then
    let t := markDueAt s p
    markFrom p t (atTime (gapAt x 120 t) s)
  else s

/-- Every configured cell of the string has completed R94 from this port or is FAULTED or marked by R95 (R782). -/
def portCellsDone (s : Block) (p : Nat) : Bool :=
  (strCellList s p).all fun g =>
    let c := cell s g
    c.st = .none || (calOf s p c).done || (calOf s p c).bad

/-- A port that entered DISCOVER after discovery has ended may return to service at this cycle start (R782). -/
def servesAgain (s : Block) (p : Nat) : Bool :=
  let x := port s p
  portUsed s p && x.st = .discover && r781 s && (portCellsDone s p || decide (x.discAt + sU ≤ s.cyc.t0))

/-- The ports that return to service at a cycle start, outside READY, discovery, DISCHARGE and FAULT (R782). -/
def portsReturn (s : Block) : Block :=
  forEach (s.ports.map (·.1)) (fun p s => if servesAgain s p then enterService false p s else s) s

/-- DISCOVER_LIMIT (R782): 1.0 s has passed since the port entered DISCOVER; the next cycle start takes it to service. -/
def discoverLimitStep (p : Nat) (s : Block) : Block :=
  let x := port s p
  if portUsed s p && x.st = .discover && r781 s then atTime (x.discAt + sU) s else s

/-- BYPASS_UNCONF (R31). -/
def bypassUnconfStep (g : Nat) (s : Block) : Block :=
  let c := cell s g
  match c.bypReq with
  | some t =>
    if c.bypRet then s else
    let a := cellArm s g
    let s := atTime (t + parDur s (0x1040 + a) msU) s
    blockArm a 5 (modCell g (fun c => { c with bypReq := none }) s)
  | none => s

/-- RET_UNCONF (R488). -/
def retUnconfStep (g : Nat) (s : Block) : Block :=
  let c := cell s g
  match c.bypReq with
  | some t =>
    if !c.bypRet then s else
    let a := cellArm s g
    let s := atTime (t + parDur s (0x1040 + a) msU) s
    let s := modCell g (fun c => { c with bypReq := none, bypRet := false, tent := { c.tent with retUnconf := true } }) s
    raise evTentRetUnconf (modArm a (fun x => { x with retUnconf := true }) s)
  | none => s

/-- Arms with a string in a port group (R17). -/
def groupArms (s : Block) (pg : Nat) : List Nat :=
  (upto 12).filter fun a => (armPorts s a).any (fun p => p / 16 = pg)

/-- MEM_UNCORR (R17, R84): an uncorrectable memory error stops a port group; every arm with a string in it blocks. -/
def memUncorrStep (pg : Nat) (s : Block) : Block :=
  if pg < 8 then
    let s := { s with model := { s.model with pgStopped := setBit s.model.pgStopped pg true } }
    blockArms (groupArms s pg) 4 (raise evPgStopped (raise evMemUncorr s))
  else raise evMemUncorr s

end Sys2Proof.Machine
end

