-- ==== Sys2Proof/Machine/Sequence.lean ====
section
/-!
DEFINITION. The converter sequence (chapter 14): commands, contacts, energisation, deblocking, discharge.
-/

namespace Sys2Proof.Machine

/-- The result of a sequence command (Table 14-8); a refusal raises SEQ_REFUSED (Table 14-10). -/
def seqResult (code : Nat) (s : Block) : Block :=
  let s := { s with seq := { s.seq with
    cmdResult := code, refuseArm := if code = 8 then s.seq.refuseArm else 0xFF } }
  raiseIf (decide (2 ≤ code)) evSeqRefused s

def setRefuseArm (a : Nat) (s : Block) : Block := { s with seq := { s.seq with refuseArm := a } }

/-- Every configured cell has been absent for 2 cycles or reports below v_safe (R531). -/
def cellsDischarged (s : Block) : Bool :=
  s.cells.all fun (_, c) =>
    c.st = .none || c.absent ≥ 2 ||
      (match c.vcap with | some v => !vcapAtLeast v (parW s 0xA033) | none => false)

def breakersOpen (s : Block) : Bool := !scClosed s (mainAux s) && !scClosed s (bypassAux s)

/-- Discharge completes when the breakers are open and the cells discharged (R531). -/
def dischargeCheck (s : Block) : Block :=
  if isActive s ∧ s.seq.state = .discharge ∧ breakersOpen s ∧ cellsDischarged s then
    setConv (if s.seq.faultCause = 0 then .ready else .fault) s
  else s

/-- Step 3 begins once discovery has ended and every enabled arm's V_SUM reaches v_bypass (R517). -/
def closeBypass (s : Block) : Block :=
  if isActive s ∧ s.seq.state = .energize ∧ s.seq.step = 2 ∧ s.seq.discoveryEnded ∧
      (enabledArms s).all (fun a => fle (parW s (0xA040 + a)) (arm s a).vSum) then
    driveCmd (cmdBypass s) true { s with seq := { s.seq with
      step := 3, stepAt := s.now, bypassOffAt := none, stuck := setBit s.seq.stuck 1 false } }
  else s

/-! ### Commands -/

/-- An input that maps BLOCK or BLOCK_AND_OPEN onto the global group is latched (R516). -/
def globalTripLatched (s : Block) : Bool := (upto 32).any fun i => bitAt s.trip.latch i && tripBlocks s i 12

/-- The first condition of R516 that fails; 0 when all hold. Outside RUN (R699) and with DEBUG_OPEN (R749) it is
BAD_STATE. -/
def energizeRefusal (s : Block) : Nat :=
  let open_ := fun c => !scClosed s c && !scUnrel s c
  if s.seq.state ≠ .ready ∨ s.pwr.state ≠ .run ∨ s.rst.debugOpen then 2
  else if !isActive s then 3
  else if !(open_ (mainAux s) && open_ (bypassAux s)) then 4
  else if !permitOk s then 5
  else if spbDemands s then 6
  else if globalTripLatched s then 7
  else 0

/-- ENERGIZE (R516, R517). -/
def energizeStep (s : Block) : Block :=
  let r := energizeRefusal s
  if r ≠ 0 then seqResult r s
  else
    let s := setConv .energize s
    let s := { s with
      seq := { s.seq with
        step := 1, stepAt := s.now, mainConfirmed := none, bypassConfirmed := none, discoveryEnded := false,
        checkCells := false, mainOffAt := none, opening := none, tripMain := false,
        stuck := setBit s.seq.stuck 0 false },
      cells := s.cells.map fun (g, c) => (g, { c with everDone := c.calA.done || c.calB.done }) }
    let s := forEach (upto 12) (fun a => modArm a fun x => { x with blockCause := 0 }) s
    seqResult 0 (driveCmd (cmdMain s) true s)

/-- The raw level of a contact has held for the debounce time by the end of this fabric cycle, and closes it. -/
def closesNow (s : Block) (c : Nat) : Bool :=
  let x := tget {} s.seq.contacts c
  x.moving && bitAt s.seq.scRaw c && !scClosed s c && decide (fabric (x.rawAt + parDur s (0xA000 + c) msU) ≤ fabric s.now)

/-- A step of the energisation fails by the end of this fabric cycle (Table 14-3): its fault. -/
def stepFails (s : Block) : Option Nat :=
  let past := fun (t : Nat) => decide (fabric t ≤ fabric s.now)
  if s.seq.step = 1 && past (s.seq.stepAt + breakerTime s) then some 5
  else if s.seq.step = 3 && past (s.seq.stepAt + breakerTime s) then some 6
  else match s.seq.mainConfirmed with
    | some t => if s.seq.step = 2 && past (t + parDur s 0xA032 sU) then some 10 else none
    | none => none

/-- Contact that a failing step names. -/
def stepItem (s : Block) (cause : Nat) : Nat := if cause = 5 then mainAux s else if cause = 6 then bypassAux s else 0

/-- ABORT (R521). A fault, and else a confirmation of BYPASS, that falls in the ABORT's fabric cycle comes before it
(R521, R522, R533). -/
def abortStep (s : Block) : Block :=
  if !isActive s then seqResult 3 s else
  match s.seq.state with
  | .energize =>
    match stepFails s with
    | some k => seqFault k (stepItem s k) (seqResult 2 s)
    | none =>
    if s.seq.step = 3 ∧ closesNow s (bypassAux s) then seqResult 1 s else
    let s := openBreakers s
    let s := { s with seq := { s.seq with step := 0, stepAt := s.now } }
    seqResult 0 (if charged s then enterDown .discharge s else setConv .ready (portsToDiscovery s))
  | .charged | .run | .blocked => seqResult 1 s
  | _ => seqResult 2 s

def groupsServe (s : Block) (a : Nat) : Bool := (armPorts s a).all fun p => !bitAt s.model.pgStopped (p / 16)

def cellsReady (s : Block) (a : Nat) : Bool :=
  (armCells s a).all fun (_, c) => c.st ≠ .available || bitAt c.flags 2

def sinkOk (s : Block) (a : Nat) : Bool :=
  match sinkTask s a with | some t => !taskCancelled s t | none => false

/-- The block cause still needs its item of Table 14-5. -/
def causeHolds (s : Block) (a : Nat) : Bool :=
  match (arm s a).blockCause with
  | 1 => true
  | 2 => spbDemands s
  | 3 => !r251 s a
  | 4 => !groupsServe s a
  | 6 => decide (availCount s a < minAvail s a)
  | 7 => !(armCurrent s a).2
  | _ => false

/-- The first check of Table 14-7 that fails; 0 when all pass. -/
def deblockRefusal (s : Block) (a : Nat) : Nat :=
  if !armEnabled s a then 10
  else if causeHolds s a then 1
  else if cycleTooShort s a then 2
  else if !r251 s a then 3
  else if !(armCurrent s a).2 then 4
  else if availCount s a < minAvail s a then 5
  else if !sinkOk s a then 6
  else if !cellsReady s a then 7
  else if !permitOk s then 8
  else if spbDemands s then 9
  else 0

/-- CHARGED, RUN or BLOCKED: where arms may block and the converter may discharge (R525, R531). -/
def energised (s : Block) : Bool := s.seq.state = .charged || s.seq.state = .run || s.seq.state = .blocked

/-- Where an arm may deblock: also the power state RUN (R526, R699). -/
def deblockState (s : Block) : Bool := s.pwr.state = .run && energised s

/-- DEBLOCK_ARM (R526). -/
def deblockArmStep (a : Nat) (s : Block) : Block :=
  if !isActive s then seqResult 3 s
  else if !deblockState s then seqResult 2 s
  else
    let r := deblockRefusal s a
    let s := if a < 12 then modArm a (fun x => { x with deblockRefuse := r }) s else s
    if r ≠ 0 then seqResult 8 (setRefuseArm a s)
    else if switching s a then seqResult 0 s
    else seqResult 0 (modArm a (fun x => { x with deblockWait := some false }) s)

/-- DEBLOCK (R526): all or nothing over the blocked enabled arms. -/
def deblockStep (s : Block) : Block :=
  if !isActive s then seqResult 3 s
  else if !deblockState s then seqResult 2 s
  else
    let l := (enabledArms s).filter fun a => !switching s a
    let t := forEach l (fun a t => modArm a (fun x => { x with deblockRefuse := deblockRefusal s a }) t) s
    match l.find? (fun a => deblockRefusal s a ≠ 0) with
    | some a => seqResult 8 (setRefuseArm a t)
    | none => seqResult 0 (forEach l (fun a => modArm a fun x => { x with deblockWait := some true }) t)

/-- A host block: every arm that switches or waits to (R525, R528). -/
def hostBlock (l : List Nat) (s : Block) : Block :=
  forEach l (fun a t => if (arm t a).sw || (arm t a).deblockWait.isSome then blockArm a 10 t else t) s

/-- BLOCK (R525). -/
def blockStep (s : Block) : Block :=
  if !isActive s then seqResult 3 s
  else if energised s then hostBlock (enabledArms s) (seqResult 0 s)
  else seqResult 2 s

/-- BLOCK_ARM (R525, R526). -/
def blockArmStep (a : Nat) (s : Block) : Block :=
  if !isActive s then seqResult 3 s
  else if !energised s then seqResult 2 s
  else if !armEnabled s a then
    let s := if a < 12 then modArm a (fun x => { x with deblockRefuse := 10 }) s else s
    seqResult 8 (setRefuseArm a s)
  else hostBlock [a] (seqResult 0 s)

/-- DISCHARGE (R531). -/
def dischargeStep (s : Block) : Block :=
  if !isActive s then seqResult 3 s
  else if energised s then
    let s := seqResult 0 s
    let s := if s.seq.state = .run then hostBlock (enabledArms s) s else s
    enterDown .discharge (openBreakers s)
  else seqResult 2 s

def rawStable (s : Block) (c : Nat) : Bool :=
  decide ((tget {} s.seq.contacts c).rawAt + sU ≤ s.now)

/-- R510 over every contact. -/
def clearUnreliable (s : Block) : Block :=
  { s with seq := { s.seq with
      scUnrel := maskOf ((onesBelow s.seq.scUnrel 16).filter fun c => !rawStable s c) } }

def isRole (s : Block) (c : Nat) : Bool := c = mainAux s || c = bypassAux s || c = permitSc s

/-- FAULT_RESET (R532). -/
def faultResetStep (s : Block) : Block :=
  if !isActive s then seqResult 3 s
  else if s.seq.state ≠ .fault then seqResult 2 s
  else if !cellsDischarged s then seqResult 9 s
  else if !breakersOpen s then seqResult 4 s
  else
    let s := clearUnreliable s
    if (onesBelow s.seq.scUnrel 16).any (isRole s) then seqResult 10 s
    else seqResult 0 (setConv .ready { s with seq := { s.seq with faultCause := 0, faultItem := 0 } })

/-! ### Contacts -/

/-- SC_RAW_CHANGE (R507): the 100 us sample finds a new level on the pin. -/
def scRawChangeStep (c : Nat) (level : Bool) (s : Block) : Block :=
  let closed := level != parB s (0xA010 + c)
  if c < 16 ∧ closed ≠ bitAt s.seq.scRaw c then
    { s with seq := { s.seq with
        scRaw := setBit s.seq.scRaw c closed,
        contacts := tmod {} s.seq.contacts c fun x =>
          { x with rawAt := s.now, moving := true, unsettledFrom := x.unsettledFrom <|> some s.now } } }
  else s

/-- A contact becomes UNRELIABLE (R508, R509). -/
def contactUnreliable (c cause : Nat) (s : Block) : Block :=
  let s := raise evContactUnreliable { s with seq := { s.seq with
    scUnrel := setBit s.seq.scUnrel c true, contacts := tmod {} s.seq.contacts c fun x => { x with unrel := cause } } }
  let role := c = mainAux s ∨ c = bypassAux s
  if role ∧ s.seq.state ≠ .await ∧ s.seq.state ≠ .fault then seqFault cause c s else s

/-- A role contact that was UNRELIABLE before the state or the role made it a fault: looked at each cycle start (R509). -/
def roleUnreliable (s : Block) : Block :=
  if !isActive s ∨ s.seq.state = .await ∨ s.seq.state = .fault then s
  else match [mainAux s, bypassAux s].find? (scUnrel s) with
    | some c => seqFault (max 1 (tget {} s.seq.contacts c).unrel) c s
    | none => s

/-- An output is energised, or was until the opening order took it off in this fabric cycle: a DISCHARGE or an ABORT yields
to a fault of its own fabric cycle (R533). -/
def onNow (s : Block) (on : Bool) (off : Option Nat) : Bool :=
  on || (match off with | some t => fabric t = fabric s.now | none => false)

/-- What the sequence does with a debounced change of a role contact (R514, R517, R522, R530). BYPASS confirmed in the
fabric cycle in which its time expires does not count: the fault wins (R522). -/
def contactActs (c : Nat) (s : Block) : Block :=
  if !isActive s then s else
  let closed := scClosed s c
  let s :=
    if c = mainAux s ∧ closed ∧ s.seq.state = .energize ∧ s.seq.step = 1 then
      { s with seq := { s.seq with step := 2, stepAt := s.now, mainConfirmed := some s.now } }
    else if c = bypassAux s ∧ closed ∧ s.seq.state = .energize ∧ s.seq.step = 3 then
      if stepFails s = some 6 then seqFault 6 c s else
      setConv .charged { s with seq := { s.seq with step := 0, stepAt := s.now, bypassConfirmed := some s.now } }
    else s
  let s :=
    if c = mainAux s ∧ !closed then
      let s := if s.seq.opening.isSome then dropBypass s else s
      let s := { s with seq := { s.seq with stuck := setBit s.seq.stuck 0 false } }
      if s.seq.tripMain then seqFault 8 c { s with seq := { s.seq with tripMain := false, mainConfirmed := none } }
      else if s.seq.mainConfirmed.isSome ∧ onNow s (mainOn s) s.seq.mainOffAt then
        seqFault 7 c { s with seq := { s.seq with mainConfirmed := none } }
      else s
    else if c = bypassAux s ∧ !closed then
      let s := { s with seq := { s.seq with stuck := setBit s.seq.stuck 1 false } }
      if s.seq.bypassConfirmed.isSome ∧ onNow s (bypassOn s) s.seq.bypassOffAt then
        seqFault 3 c { s with seq := { s.seq with bypassConfirmed := none } }
      else s
    else s
  dischargeCheck s

/-- CONTACT_DEBOUNCE (R507, R508): the raw level has held for the debounce time. -/
def contactDebounceCore (c : Nat) (s : Block) : Block :=
  let x := tget {} s.seq.contacts c
  if c < 16 ∧ x.moving then
    let s := atTime (x.rawAt + parDur s (0xA000 + c) msU) s
    let raw := bitAt s.seq.scRaw c
    if raw = scClosed s c then
      { s with seq := { s.seq with
          contacts := tmod {} s.seq.contacts c fun x => { x with moving := false, unsettledFrom := none } } }
    else
      let changes := (x.changes.filter fun t => decide (s.now < t + sU)) ++ [s.now]
      let s := { s with seq := { s.seq with
          scState := setBit s.seq.scState c raw,
          contacts := tmod {} s.seq.contacts c fun x =>
            { x with moving := false, unsettledFrom := none, changes := changes } } }
      let s := raise evContactChange s
      let s := contactActs c s
      if changes.length ≥ 4 ∧ !scUnrel s c then contactUnreliable c 1 s else s
  else s

/-- CONTACT_UNSETTLED (R508). -/
def contactUnsettledStep (c : Nat) (s : Block) : Block :=
  match (tget {} s.seq.contacts c).unsettledFrom with
  | some t =>
    if c < 16 then
      let s := atTime (t + sU) s
      let s := { s with seq := { s.seq with
        contacts := tmod {} s.seq.contacts c fun x => { x with unsettledFrom := none } } }
      if scUnrel s c then s else contactUnreliable c 2 s
    else s
  | none => s

/-- SC_UNREL_CLR (R510): contacts without role whose raw level is stable. -/
def scUnrelClrStep (mask : Nat) (s : Block) : Block :=
  { s with seq := { s.seq with
      scUnrel := maskOf ((onesBelow s.seq.scUnrel 16).filter fun c =>
        !(bitAt mask c && !isRole s c && rawStable s c)) } }

/-- HOST outputs follow their bits of CMD_HOST (R511). -/
def driveHost (s : Block) : Block :=
  if isActive s then
    forEach ((upto 8).filter fun k => k ≠ cmdMain s ∧ k ≠ cmdBypass s)
      (fun k s => driveCmd k (bitAt s.seq.cmdHost k) s) s
  else s

/-- The outputs take new roles in AWAIT or READY: MAIN and BYPASS are de-energised (Table 14-1), every other output follows
its bit of CMD_HOST (R511). -/
def rolesChanged (s : Block) : Block :=
  if isActive s then driveHost (driveCmd (cmdMain s) false (driveCmd (cmdBypass s) false s)) else s

/-- CMD_HOST (R511). -/
def cmdHostStep (v : Nat) (s : Block) : Block := driveHost { s with seq := { s.seq with cmdHost := v % 256 } }

/-! ### Time limits of the steps -/

/-- MAIN_CONFIRM_TIMEOUT (R517). -/
def mainConfirmTimeoutStep (s : Block) : Block :=
  if isActive s ∧ s.seq.state = .energize ∧ s.seq.step = 1 then
    seqFault 5 (mainAux s) (atTime (s.seq.stepAt + breakerTime s) s)
  else s

/-- BYPASS_CONFIRM_TIMEOUT (R517). -/
def bypassConfirmTimeoutStep (s : Block) : Block :=
  if isActive s ∧ s.seq.state = .energize ∧ s.seq.step = 3 then
    seqFault 6 (bypassAux s) (atTime (s.seq.stepAt + breakerTime s) s)
  else s

/-- CHARGE_TIMEOUT (R517). -/
def chargeTimeoutStep (s : Block) : Block :=
  match s.seq.mainConfirmed with
  | some t =>
    if isActive s ∧ s.seq.state = .energize ∧ s.seq.step = 2 then seqFault 10 0 (atTime (t + parDur s 0xA032 sU) s) else s
  | none => s

/-- The first condition of R518: every AVAILABLE or RESERVE cell of every enabled arm has completed R94 or is
marked. -/
def discoveryComplete (s : Block) : Bool :=
  s.cells.all fun (g, c) =>
    !inService c || !armEnabled s (cellArm s g) || c.calA.done || c.calB.done || c.calA.bad || c.calB.bad

/-- Step 1 of R518 for one cell. -/
def discoveryFault (g : Nat) (s : Block) : Block :=
  let c := cell s g
  if c.calA.bad || c.calB.bad then faultCell g 5 s
  else if !(c.calA.done || c.calB.done) then faultCell g 4 s
  else s

/-- Steps 2 and 3 of R518 for one port. -/
def discoveryPort (p : Nat) (s : Block) : Block :=
  match (port s p).st with
  | .seek => enterFail p 1 s
  | .discover => enterService true p s
  | _ => s

/-- DISCOVERY_END (R518). -/
def discoveryEndStep (s : Block) : Block :=
  match s.seq.mainConfirmed with
  | some t =>
    if isActive s ∧ s.seq.state = .energize ∧ !s.seq.discoveryEnded then
      let s := if discoveryComplete s then s else atTime (t + parDur s 0xA031 sU) s
      let s := forEach (s.cells.map (·.1)) discoveryFault s
      let s := forEach ((upto 128).filter (portUsed s)) discoveryPort s
      closeBypass { s with seq := { s.seq with discoveryEnded := true, checkCells := true } }
    else s
  | none => s

/-- BYPASS_OPEN (R514). -/
def bypassOpenStep (s : Block) : Block :=
  if !isActive s then s else
  match s.seq.opening with
  | some t => dropBypass (if scClosed s (mainAux s) then atTime (t + breakerTime s) s else s)
  | none => s

/-- BREAKER_STUCK (R515) for MAIN or, with `byp`, for BYPASS. -/
def breakerStuckStep (byp : Bool) (s : Block) : Block :=
  let c := if byp then bypassAux s else mainAux s
  let on := if byp then bypassOn s else mainOn s
  let off := (if byp then s.seq.bypassOffAt else s.seq.mainOffAt).getD 0
  if isActive s ∧ s.seq.state ≠ .await ∧ !on ∧ scClosed s c ∧ !bitAt s.seq.stuck (b2n byp) then
    let s := atTime (off + breakerTime s) s
    seqFault 4 c { s with seq := { s.seq with stuck := setBit s.seq.stuck (b2n byp) true } }
  else s

/-- DISCHARGE_TIMEOUT (R531). -/
def dischargeTimeoutStep (s : Block) : Block :=
  if isActive s ∧ s.seq.state = .discharge then seqFault 11 0 (atTime (s.seq.stepAt + parDur s 0xA034 sU) s) else s

end Sys2Proof.Machine
end

