-- ==== Sys2Proof/Machine/Bolter.lean ====
section
/-!
DEFINITION. The Bolter (chapter 5): keys, direction, preference orders, aggregates, and selection with the hold band.
-/

namespace Sys2Proof.Machine

def keyMax : Nat := 2 ^ 24 - 1

/-- Voltage term (R187). -/
def vterm (vcap ceil : Nat) : Nat := if ceil = 0 then keyMax else min (vcap * 2 ^ 22 / ceil) keyMax

/-- Penalty in key units (R188, R189); `warn` is TEMP_WARN, tj in 1/16 degC, w the wear index. -/
def penalty (s : Block) (a : Nat) (tj : Int) (w : Nat) (warn reserve : Bool) : Nat :=
  let k : Q := qf (2 ^ 22) 100
  let penMax := q32 (parW s (0x2080 + a))
  let excess := qmax (qi 0) (qsub (qf tj 16) (q32 (parW s (0x2060 + a))))
  let temp := qmul (q32 (parW s (0x2050 + a))) excess
  let wear := qmul (q32 (parW s (0x2070 + a))) (qf w 65535)
  let part := if warn then penMax else qmin (qadd temp wear) penMax
  let r := if reserve then q32 (parW s (0x2090 + a)) else qi 0
  (qround (qmul k (qadd part r))).toNat

/-- Ranked cells of an arm with their penalties (R185, R186). -/
def rankedCells (s : Block) (a : Nat) : List (Nat × CellSt) :=
  (armCells s a).filter fun (_, c) => inService c && c.ranked && c.vcap.isSome

/-- Guarded under an effective direction (R195): `dis` is DISCHARGING. -/
def guarded (dis : Bool) (c : CellSt) : Bool :=
  if dis then bitAt c.flags 7 else decide (c.tent.ceil ≤ c.vcap.getD 0)

/-- Sort key q of R195 for an effective direction. -/
def sortKey (s : Block) (a : Nat) (dis : Bool) (c : CellSt) : Nat :=
  let v := vterm (c.vcap.getD 0) c.tent.ceil
  let pen := penalty s a c.tent.tj c.tent.w (bitAt c.flags 8) (c.st = .reserve)
  let kp := if dis then keyMax - (v - pen) else min (v + pen) keyMax
  b2n (guarded dis c) * 2 ^ 24 + kp

/-- Order by ascending q, ties by ascending global cell index (R195). -/
def orderBy (l : List (Nat × Nat)) : List (Nat × Nat) :=
  sortBy (fun x y => decide (x.2 < y.2) || (x.2 = y.2 && decide (x.1 < y.1))) l

/-- Predicted current of R192 as an exact fraction of full scale. -/
def predicted (s : Block) (a : Nat) (i : F32) : Q :=
  let x := arm s a
  if parN s (0x2020 + a) = 0 then q32 i
  else
    let prev := (x.iPrev).getD i
    let lam := qmin (qadd (qf x.latLast (tcU s)) (qf 1 2)) (qi 4)
    qadd (q32 i) (qmul (qsub (q32 i) (q32 prev)) lam)

/-- Direction and deadband of R193: (dir, in_db). -/
def direction (s : Block) (a : Nat) (i : F32) : Bool × Bool :=
  let db := qdiv (q32 (parW s (0x2030 + a))) (qi 100)
  let ip := predicted s a i
  if qlt db ip then (false, false) else if qlt ip (qneg db) then (true, false) else ((arm s a).dir, true)

/-- Completion of an arm's ranking: direction, orders and aggregates (R184 to R196, R205). Table 5-2 says what V_MEAN and
V_MEAN_RSV are where no cell is ranked; that V_MIN and V_MAX are 0 then is the model's choice (log entry 28). -/
def rankArm (a : Nat) (s : Block) : Block :=
  let i := (armCurrent s a).1
  let (dir, db) := direction s a i
  let l := rankedCells s a
  let pos := orderBy (l.map fun (g, c) => (g, sortKey s a dir c))
  let neg := orderBy ((l.filter fun (g, _) => cellFB s g).map fun (g, c) => (g, sortKey s a (!dir) c))
  let av := l.filter fun (_, c) => c.st = .available
  let rs := l.filter fun (_, c) => c.st = .reserve
  let vs := av.map fun (_, c) => c.vcap.getD 0
  let n := av.length
  let sum := sumNat vs
  let mn := vs.foldl min (vs.headD 0)
  let mx := maxNat vs
  let s := forEach l (fun (g, _) s => modCell g (fun c => { c with rankV := c.vcap.getD 0, rankStale := !c.seen }) s) s
  let s := forEach (armCells s a) (fun (g, _) s => modCell g (fun c => { c with rankSt := c.st }) s) s
  modArm a (fun x => { x with
    dir := dir, inDb := db, rankedOnce := true, rankSw := x.sw, rankLat := x.latLast, rankLate := x.lateCells, posOrd := pos, negOrd := neg, rankCyc := s.cyc.index,
    nAvail := n, nAvailFB := (av.filter fun (g, _) => cellFB s g).length, nReserve := rs.length,
    stale := (l.filter fun (_, c) => !c.seen).length,
    vSum := fratio sum 16,
    vMean := if n = 0 then f32Zero else fdiv (fratio sum 16) (fofNat n),
    vMin := fratio mn 16, vMax := fratio mx 16,
    vSqSum := fratio (sumNat (vs.map fun v => v * v)) 256,
    vMeanRsv := if rs.length = 0 then f32Zero
      else fratio (sumNat (rs.map fun (_, c) => c.vcap.getD 0)) (16 * rs.length),
    vMeanU := if n = 0 then 0 else divRne sum n, vMinU := mn, vMaxU := mx }) s

/-- A ranking has started at a REP_DONE and not completed: one owed from before the last t0, or that of this cycle. -/
def rankDue (s : Block) (a : Nat) : Bool :=
  armEnabled s a && ((arm s a).rankOwed || ((arm s a).repDone && !(arm s a).rankDone))

/-- RANK_DONE (R184): the ranking that REP_DONE started completes, the one owed longest first. -/
def rankDoneStep (a : Nat) (s : Block) : Block :=
  if rankDue s a then
    let s := rankArm a s
    closeBypass (raise (evRankDone a) (modArm a (fun x =>
      if x.rankOwed then { x with rankOwed := false } else { x with rankDone := true }) s))
  else s

/-! ### Selection (R197 to R203) -/

/-- The order of a polarity with cells no longer ranked or eligible removed (R198). -/
def liveOrder (s : Block) (a : Nat) (neg : Bool) : List (Nat × Nat) :=
  let x := arm s a
  (if neg then x.negOrd else x.posOrd).filter fun (g, _) => inService (cell s g)

/-- Adds cells of the order, in order, until the set holds n. -/
def fillSel (n : Nat) : List Nat → List Nat → List Nat
  | [], sel => sel
  | x :: t, sel => if sel.length < n && !sel.contains x then fillSel n t (sel ++ [x]) else fillSel n t sel

/-- Keeps the n members of a set that come first in the order. -/
def trimSel (n : Nat) (ord sel : List Nat) : List Nat := (ord.filter sel.contains).take n

/-- The selected set of R199 for n = |m| cells. -/
def select (n h : Nat) (db : Bool) (ordq : List (Nat × Nat)) (kept : List Nat) : List Nat :=
  let ord := ordq.map (·.1)
  if n = 0 then []
  else if ord.length ≤ n then ord
  else
    let prev := ord.filter kept.contains
    let start :=
      if db then prev
      else
        let q := fun (i : Nat) => ((ordq[i]?).map (·.2)).getD 0
        let kb : Int := ((q (n - 1) + q n) / 2 : Nat)
        let stay := ordq.filter fun (g, k) => prev.contains g && decide ((k : Int) ≤ kb + h)
        let sel := stay.map (·.1)
        sel ++ ((ordq.filter fun (g, k) => !sel.contains g && decide ((k : Int) < kb - h)).map (·.1))
    if n < start.length then trimSel n ord start else fillSel n ord start

/-- h of R199 in key units. -/
def holdBand (s : Block) (a : Nat) : Nat :=
  (qround (qmul (qf (2 ^ 22) 100) (q32 (parW s (0x2040 + a))))).toNat

end Sys2Proof.Machine
end

