-- ==== Sys2Proof/Machine/Modulate.lean ====
section
/-!
DEFINITION. Modulation and edge scheduling (chapter 6) and the command frames that carry the windows (chapter 4).
-/

namespace Sys2Proof.Machine

/-! ### Edge parameters of an arm, in 250 ps units -/

structure EdgePar where
  tc : Int
  /-- offset unit 2^s (R148) -/
  u : Int
  dead : Int
  minOn : Int
  minOff : Int
  rise : List Int
  fall : List Int
  policy : Nat
deriving DecidableEq, Repr

/-- SCALE from N (Table 4-7). -/
def scaleOf (n : Nat) : Nat := if n ≤ 32 then 0 else if n ≤ 64 then 1 else 2

def edgePar (s : Block) (a : Nat) : EdgePar :=
  { tc := tcU s, u := (2 ^ scaleOf s.cyc.n : Nat),
    dead := parDur s (0x3010 + a) usU, minOn := parDur s (0x3020 + a) usU, minOff := parDur s (0x3030 + a) usU,
    rise := (upto 4).map fun g => (parDur s (0x3100 + 8 * a + g) usU : Int),
    fall := (upto 4).map fun g => (parDur s (0x3104 + 8 * a + g) usU : Int),
    policy := parN s (0x3040 + a) }

def EdgePar.riseOf (e : EdgePar) (g : Nat) : Int := (e.rise[g]?).getD 0
def EdgePar.fallOf (e : EdgePar) (g : Nat) : Int := (e.fall[g]?).getD 0

/-- x / 2 rounded to the nearest multiple of the offset unit, ties up (R218). -/
def roundHalf (e : EdgePar) (x : Int) : Int := (x + e.u) / (2 * e.u) * e.u

/-- x rounded to the nearest multiple of the offset unit, ties up (R218). -/
def roundU (e : EdgePar) (x : Int) : Int := roundHalf e (2 * x)

/-! ### Gate states (R215, R216) -/

/-- Gates on in a logical state (Table 6-1). -/
def gatesOn (fb : Bool) : LState → List Nat
  | .off => []
  | .byp => if fb then [1, 3] else [1]
  | .insP => if fb then [0, 3] else [0]
  | .insN => if fb then [1, 2] else []

/-- START code of a slot (Table 6-1). -/
def startCode (fb : Bool) (st : LState) : Nat := maskOf (gatesOn fb st)

def leaving (fb : Bool) (frm dest : LState) : List Nat := diffNat (gatesOn fb frm) (gatesOn fb dest)
def entering (fb : Bool) (frm dest : LState) : List Nat := diffNat (gatesOn fb dest) (gatesOn fb frm)

/-- The edges of a logical change at offset t (R216). -/
def changeEdges (e : EdgePar) (fb : Bool) (frm dest : LState) (t : Int) : List Edge :=
  (leaving fb frm dest).map (fun g => { off := (roundU e (t + e.fallOf g)).toNat, gate := g, level := false }) ++
  (entering fb frm dest).map (fun g => { off := (roundU e (t + e.dead + e.riseOf g)).toNat, gate := g, level := true })

/-- A cell being planned: its edge record relative to S, the changes so far (R220, R222). -/
structure CellPlan where
  on : Tab Int
  offs : Tab Int
  changes : List Change
deriving DecidableEq, Repr

/-- Emits a change and updates the record. -/
def emit (e : EdgePar) (fb : Bool) (frm dest : LState) (t : Int) (p : CellPlan) : CellPlan :=
  let es := changeEdges e fb frm dest t
  { on := (es.filter (·.level)).foldl (fun r x => tput x.gate (x.off : Int) r) p.on,
    offs := (es.filter fun x => !x.level).foldl (fun r x => tput x.gate (x.off : Int) r) p.offs,
    changes := p.changes ++ [{ t := t.toNat, frm := frm, dest := dest, edges := es }] }

def maxInt (l : List Int) (d : Int) : Int := l.foldl max d

/-- The ready offset of a change (R220); a gate without a recorded edge sets no limit. -/
def ready (e : EdgePar) (fb : Bool) (frm dest : LState) (p : CellPlan) : Int :=
  let lim := (leaving fb frm dest).filterMap (fun g => (tfind p.on g).map fun t => t + e.minOn - e.fallOf g) ++
    (entering fb frm dest).filterMap (fun g => (tfind p.offs g).map fun t => t + e.minOff - e.dead - e.riseOf g)
  match lim with | [] => 0 | x :: t => maxInt t x

/-- No edge of a change at t falls after T_c - u. -/
def fits (e : EdgePar) (fb : Bool) (frm dest : LState) (t : Int) : Bool :=
  (changeEdges e fb frm dest t).all fun x => decide ((x.off : Int) ≤ e.tc - e.u)

/-- Pulse policy of Table 6-3. -/
def policyOf (code : Nat) (p pmin : Int) : Int :=
  match code with
  | 0 => if 2 * p < pmin then 0 else pmin
  | 1 => 0
  | _ => pmin

/-! ### The window a cell leaves at a new S (R220 to R223) -/

/-- The state a cell's last window leaves at a new S, and its edge record with later edges dropped. -/
def advanceCell (c : CellSt) (sNew : Nat) : CellSt :=
  match c.plan with
  | none => c
  | some w =>
    if sNew ≤ w.s then { c with plan := none, held := w.start }
    else
      let past := w.changes.filter fun x => decide (w.s + x.t < sNew)
      -- logical transitions kept for the charge of R475, with the end of their dead time
      let tr := past.map fun x =>
        (w.s + x.t, x.dest, w.s + maxNat (x.t :: x.edges.map (·.off)), x.frm)
      let edges := (w.changes.flatMap (·.edges)).filter fun x => decide (w.s + x.off < sNew)
      { c with
        plan := none, hist := c.hist ++ (w.s, w.start, w.s, w.start) :: tr,
        held := match past.getLast? with | some x => x.dest | none => w.start,
        lastOn := (edges.filter (·.level)).foldl (fun r x => tput x.gate (w.s + x.off) r) c.lastOn,
        lastOff := (edges.filter fun x => !x.level).foldl (fun r x => tput x.gate (w.s + x.off) r) c.lastOff }

def relRecord (r : Tab Nat) (sNew : Nat) : Tab Int := r.map fun (g, t) => (g, (t : Int) - (sNew : Int))

def planStart (c : CellSt) (sNew : Nat) : CellPlan :=
  { on := relRecord c.lastOn sNew, offs := relRecord c.lastOff sNew, changes := [] }

/-- INS of a sign. -/
def insOf (neg : Bool) : LState := if neg then .insN else .insP

/-! ### The fractional pulse (R226 to R231, R234) -/

/-- Counters a window adds to. -/
structure PulseCount where
  dtc : Nat := 0
  adj : Nat := 0
deriving DecidableEq, Repr

/-- Twice the dead-time weight dl (R226). -/
def weight2 (x : ArmSt) (insNeg tgtIns : Bool) : Int :=
  if x.inDb then 1
  else
    -- the effective direction for negative insertion is the opposite of DIR (R194)
    let dis := x.dir != insNeg
    if dis != tgtIns then 2 else 0

/-- pulse of R234: plan, counters and twice τ_eff in 250 ps units. -/
def pulse (e : EdgePar) (fb : Bool) (h w tgt : LState) (treq dl2 : Int) (p : CellPlan) (n : PulseCount) :
    CellPlan × PulseCount × Int :=
  let y := (leaving fb w tgt).headD 0
  let ry := e.riseOf y
  if h = w then
    let tl := treq + e.dead * (1 - dl2)
    if tl < e.dead then
      -- collapse: dl is 1 or 1/2 here
      let n := { n with dtc := n.dtc + 1 }
      let wo := if dl2 = 2 then treq else 2 * treq
      let wo' := if wo < e.minOff then policyOf e.policy wo e.minOff else wo
      let n := if wo' ≠ wo then { n with adj := n.adj + 1 } else n
      -- a wo of 0 that no minimum replaces leaves its two edges
      if wo' = 0 && decide (wo < e.minOff) then (p, n, 0)
      else
        let tcl := roundHalf e (e.tc - wo')
        let a : Edge := { off := (roundU e (tcl + e.fallOf y)).toNat, gate := y, level := false }
        let b : Edge := { off := (roundU e (tcl + wo' + ry)).toNat, gate := y, level := true }
        ({ on := tput y (b.off : Int) p.on, offs := tput y (a.off : Int) p.offs,
           changes := p.changes ++ [{ t := tcl.toNat, frm := w, dest := w, edges := [a, b] }] }, n, dl2 * wo')
    else
      let on1 := tl - e.dead
      let p1 := if on1 < e.minOn then policyOf e.policy on1 e.minOn else on1
      let n := if p1 ≠ on1 then { n with adj := n.adj + 1 } else n
      let gone1 := on1 < e.minOn && p1 = 0
      let tl := if gone1 then tl else e.dead + p1
      let off1 := tl + e.dead
      let p2 := if !gone1 && off1 < e.minOff then policyOf e.policy off1 e.minOff else off1
      let n := if p2 ≠ off1 then { n with adj := n.adj + 1 } else n
      let gone := gone1 || (off1 < e.minOff && p2 = 0)
      let tl := if gone then tl else p2 - e.dead
      if gone then (p, n, 0)
      else
        let ta := roundHalf e (e.tc - e.dead - tl)
        let excess := ta + tl + e.dead + ry - (e.tc - e.u)
        let (ta, tl) :=
          if 0 < excess then
            let ta := max 0 (ta - excess)
            (ta, min tl (e.tc - e.u - e.dead - ry - ta))
          else (ta, tl)
        let p := emit e fb tgt w (ta + tl) (emit e fb w tgt ta p)
        (p, n, 2 * (tl - e.dead) + 2 * dl2 * e.dead)
  else
    let sc : Int := if h = tgt then 0 else 1
    let ts := if h = tgt then 0 else max 0 (ready e fb h tgt p)
    if h ≠ tgt && !fits e fb h tgt ts then (p, { n with adj := n.adj + 1 }, 0)
    else
      let p1 := if h = tgt then p else emit e fb h tgt ts p
      let tb := (2 * ts + 2 * treq - dl2 * e.dead + sc * (2 - dl2) * e.dead + 1) / 2
      let tb := max tb (max ts (ready e fb tgt w p1))
      let tb := min tb (e.tc - e.u - e.dead - ry)
      let len := tb - ts - e.dead
      if sc = 1 && len < e.minOn then
        let q := policyOf e.policy len e.minOn
        let n := if q ≠ len then { n with adj := n.adj + 1 } else n
        if q = 0 then (emit e fb h w ts p, n, 0)
        else
          let tb := ts + e.dead + q
          (emit e fb tgt w tb p1, n, 2 * (tb - ts) + dl2 * e.dead - sc * (2 - dl2) * e.dead)
      else (emit e fb tgt w tb p1, n, 2 * (tb - ts) + dl2 * e.dead - sc * (2 - dl2) * e.dead)

/-- A whole-window change of R222. -/
def wholeChange (e : EdgePar) (fb : Bool) (h w : LState) (p : CellPlan) (n : PulseCount) : CellPlan × PulseCount :=
  if h = w then (p, n)
  else
    let t := max 0 (ready e fb h w p)
    if fits e fb h w t then (emit e fb h w t p, n) else (p, { n with adj := n.adj + 1 })

/-! ### Command frames (R139 to R148) -/

/-- The used entries of a slot: offset, level and gate, in the order of R219, within the window. -/
def slotEntries (e : EdgePar) (w : WinPlan) : List Edge :=
  let l := (w.changes.flatMap (·.edges)).filter fun x => decide ((x.off : Int) ≤ e.tc - e.u)
  sortBy (fun x y => decide (x.off < y.off) ||
    (x.off = y.off && ((!x.level && y.level) || (x.level == y.level && decide (x.gate < y.gate))))) l

/-- Entry i of a slot as bits (R146). -/
def entryBits (e : EdgePar) (fb : Bool) (l : List Edge) (i : Nat) : Nat :=
  match l[i]? with
  | some x => (x.off / e.u.toNat) % 2 ^ 16 + 2 ^ 16 * b2n x.level + 2 ^ 17 * x.gate
  | none => if fb then 0xFFFF else 0xFFFF

/-- The slot of a cell before its CRC (Table 4-6). The manual gives AUXSEL its effect at the cell and no condition on which
the controller sets it: that it never does is the model's choice (log entry 31). -/
def slotBits (e : EdgePar) (fb null byp ack : Bool) (w : WinPlan) : Nat :=
  let l := if null then [] else slotEntries e w
  let ty := if null then 0 else if fb then 2 else 1
  let head := ty + 4 * b2n byp + 8 * b2n ack + 2 ^ 6 * (if null then 0 else startCode fb w.start)
  if fb then head + sumNat ((upto 6).map fun i => 2 ^ (10 + 19 * i) * entryBits e fb l i)
  else head + sumNat ((upto 4).map fun i => 2 ^ (8 + 18 * i) * entryBits e fb l i)

/-- The bytes of a slot with its CRC-16 of seed j (R144). -/
def slotBytes (e : EdgePar) (fb null byp ack : Bool) (w : WinPlan) (j : Nat) : List W8 :=
  let body := leBytes (if fb then 18 else 10) (slotBits e fb null byp ack w)
  body ++ leBytes 2 (crc16 j body)

/-- Command frame header (Table 4-3). -/
def cmdHeader (ftype : Nat) (svc rel : Bool) (scale cyc sAbs : Nat) : List W8 :=
  leBytes 8 (0xFB + 2 ^ 8 * ftype + 2 ^ 10 * b2n svc + 2 ^ 11 * b2n rel + 2 ^ 12 * scale + 2 ^ 14 * (cyc % 8) +
    2 ^ 17 * (cyc % 2 ^ 16) + 2 ^ 33 * (sAbs % 2 ^ 30))

/-- A whole frame: header, slots, service slot and trailer (R140, R143). -/
def frameBytes (hdr : List W8) (slots svc : List W8) : List W8 :=
  let body := hdr ++ slots ++ svc
  body ++ leBytes 4 (crc32c body)

/-- Bytes of a command frame of n cells (R140). -/
def cmdLen (fb : Bool) (n : Nat) (svc : Bool) : Nat := 8 + (if fb then 20 else 12) * n + 16 * b2n svc + 4

/-! ### Window start (R68) -/

/-- Cells that a port's frame has slots for: its segment, or in DISCOVER the cells found. -/
def frameCells (s : Block) (p : Nat) : List Nat :=
  let x := port s p
  if x.st = .discover then (upto (min x.cellsFound (strCells s p))).map (cellAtHop s p) else x.seg

def tBuild (p : Nat) : Nat := min 1600 (Config.buildTime p)

/-- End of the last frame on the port, launched or waiting. -/
def portFree (s : Block) (p : Nat) : Nat :=
  match ((port s p).frames.getLast?) with | some f => f.endT | none => (port s p).freeAt

/-- Departure of the state image's last granule, where R591 applies. -/
def imageDeparts (s : Block) : Nat := if s.tw.partnerAbsent then 0 else s.tw.imageDeparts

def launchAt (s : Block) (p : Nat) : Nat := max (s.now + tBuild p) (max (portFree s p) (imageDeparts s))

/-- A frame on the port carries a service slot. -/
def hasSvc (s : Block) (p : Nat) : Bool := (svcNext s p).isSome

/-- The ports of an arm that its insertions go to: SERVE with a segment (R68, R85). -/
def cmdPorts (s : Block) (a : Nat) : List Nat :=
  (armPorts s a).filter fun p => (port s p).st = .serve && (frameCells s p).length ≠ 0

/-- Arrival of a frame's last bit at the farthest cell plus 200 ns (R68). -/
def arriveAt (s : Block) (p : Nat) : Nat :=
  launchAt s p + (port s p).dFar + 10 * cmdLen (strFB s p) (frameCells s p).length (hasSvc s p) + 800

/-- Launch at the standby's port of a relayed segment's frame (R615); it too waits for the image (R66, R591). -/
def relayLaunchAt (s : Block) (p : Nat) : Nat :=
  max (max (s.now + tBuild p + Config.relayTime p + 400) (tget 0 s.tw.relayFreeAt p)) (imageDeparts s)

/-- The arrival term of a relayed segment in R68. -/
def relayArriveAt (s : Block) (p : Nat) : Nat :=
  relayLaunchAt s p + (peerPort s p).dFar + 10 * cmdLen (strFB s p) (farLen s p) false + 800

/-- S of an insertion (R68, R70): on the 250 ps grid as every instant is. -/
def windowStart (s : Block) (a : Nat) : Nat :=
  max (maxNat ((cmdPorts s a).map (arriveAt s) ++ (armRelays s a).map (relayArriveAt s)))
    (max s.now ((arm s a).sPrev + tcU s / 2))

/-! ### Building the frames of an insertion -/

/-- Plans of an insertion by cell, in the cells' own entries; NULL for a cell whose R94 is not complete (R225). -/
def cellNull (s : Block) (p : Nat) (c : CellSt) : Bool := !(calOf s p c).done

/-- The window that a BYPASSED or FAULTED cell of a switching arm is sent (R225). -/
def bypPlan (sAbs : Nat) (rel : Bool) : WinPlan := { s := sAbs, rel := rel, start := .byp, changes := [] }

def offPlan (sAbs : Nat) : WinPlan := { s := sAbs, rel := false, start := .off, changes := [] }

/-- The window of a cell in a frame that switches nothing: START = BYP for a BYPASSED cell, and for a FAULTED one of a
switching arm (R225), else OFF (R214). -/
def restPlan (s : Block) (sAbs g : Nat) (c : CellSt) : WinPlan :=
  { offPlan sAbs with
      start := if c.st = .bypassed || (c.st = .faulted && switching s (cellArm s g)) then .byp else .off }

/-- The slot of one cell in a frame of a port. -/
def cellSlot (s : Block) (e : EdgePar) (p : Nat) (sAbs j g : Nat) : List W8 :=
  let c := cell s g
  slotBytes e (strFB s p) (cellNull s p c) c.bypReq.isSome c.faultAck (c.plan.getD (restPlan s sAbs g c)) j

def mapIdx {α β : Type} (f : Nat → α → β) : Nat → List α → List β
  | _, [] => []
  | n, x :: t => f n x :: mapIdx f (n + 1) t

/-- Absolute edge instants of the cells' windows, for the blanking schedule (R244). -/
def frameEdges (s : Block) (e : EdgePar) (cells : List Nat) : List Nat :=
  cells.flatMap fun g =>
    match (cell s g).plan with | some w => (slotEntries e w).map fun x => w.s + x.off | none => []

/-- A frame of header and slots joins the port's waiting frames with the next service request, if there is one. -/
def queueFrame (hdr : Bool → List W8) (slots : List W8) (f : Frame) (p : Nat) (s : Block) : Block :=
  let sv := svcNext s p
  let svB := match sv with | some r => svcBytes s p r | none => []
  let launch := launchAt s p
  let bytes := frameBytes (hdr sv.isSome) slots svB
  let f := { f with launch := launch, endT := launch + 10 * bytes.length, bytes := bytes }
  let s := modPort p (fun x => { x with frames := x.frames ++ [f] }) s
  match sv with | some r => svcMarkSent p r f.endT s | none => s

/-- The command frame of one serving port for an insertion. -/
def buildPort (a sAbs cyc : Nat) (rel keep : Bool) (p : Nat) (s : Block) : Block :=
  let e := edgePar s a
  let cells := frameCells s p
  queueFrame (fun sv => cmdHeader (b2n (strFB s p)) sv rel (scaleOf s.cyc.n) cyc sAbs)
    ((mapIdx (cellSlot s e p sAbs) 0 cells).flatten)
    { launch := 0, s := sAbs, rel := rel, arm := a, endT := 0, bytes := [], keepAlive := keep,
      edges := frameEdges s e cells } p s

/-- The frame that a port in DISCOVER or MONITOR sends each cycle on its own (Table 3-3, R94, log entry 11):
blocked start states without edges, NULL for a cell whose R94 is not complete, or a monitor-only frame. REL follows
the arm as in every frame to it (R179). It belongs to no
arm's window (arm 12). -/
def cycleFrame (p : Nat) (s : Block) : Block :=
  let x := port s p
  let f : Frame :=
    { launch := 0, s := 0, rel := false, arm := 12, endT := 0, bytes := [], keepAlive := false, edges := [] }
  let sw := switching s (strArm s p)
  if x.st = .monitor then
    queueFrame (fun sv => cmdHeader 2 sv sw (scaleOf s.cyc.n) s.cyc.index 0) [] { f with rel := sw } p s
  else if x.st = .discover ∧ (frameCells s p).length ≠ 0 then
    let e := edgePar s (strArm s p)
    let far := match (frameCells s p).getLast? with | some g => estUnits s (calOf s p (cell s g)) | none => 0
    let sAbs := launchAt s p + far + 10 * cmdLen (strFB s p) (frameCells s p).length (hasSvc s p) + 800
    let slot := fun (j g : Nat) =>
      let c := cell s g
      slotBytes e (strFB s p) (cellNull s p c) c.bypReq.isSome c.faultAck (restPlan s sAbs g c) j
    queueFrame (fun sv => cmdHeader (b2n (strFB s p)) sv sw (scaleOf s.cyc.n) s.cyc.index sAbs)
      ((mapIdx slot 0 (frameCells s p)).flatten) { f with s := sAbs, rel := sw } p s
  else s

/-- The frames of a cycle that no insertion orders. -/
def cycleFrames (s : Block) : Block := forEach (s.ports.map (·.1)) cycleFrame s

/-- The relay record of a command frame (R614, Table 16-8): slots without their CRC and the reserved bits of FB. -/
def relayRecord (p lt : Nat) (fb : Bool) (hdr : List W8) (slots : List Nat) : List W8 :=
  let len := cmdLen fb slots.length false
  let w := if fb then 124 else 80
  let packed := sumNat (mapIdx (fun j x => 2 ^ (w * j) * x) 0 slots)
  leBytes 8 (p + 2 ^ 8 * (lt % 2 ^ 30) + 2 ^ 38 * len) ++ hdr ++ leBytes ((w * slots.length + 7) / 8) packed

/-- The frame of a relayed segment goes to the standby as a record, hop positions from the standby's end. -/
def buildRelay (a sAbs cyc : Nat) (rel : Bool) (p : Nat) (s : Block) : Block :=
  let e := edgePar s a
  let fb := strFB s p
  let lt := relayLaunchAt s p
  let cells := (upto (farLen s p)).map (farCell s p)
  -- the partner discovers the cell from the other side; this unit knows what it found from its own
  let null := fun (c : CellSt) => !(c.calA.done || c.calB.done)
  let slots := cells.map fun g =>
    let c := cell s g
    slotBits e fb (null c) c.bypReq.isSome c.faultAck (c.plan.getD (restPlan s sAbs g c))
  let hdr := cmdHeader (b2n fb) false rel (scaleOf s.cyc.n) cyc sAbs
  let r := relayRecord p lt fb hdr slots
  -- the far cells' edges enter the blanking schedule with the near segment's frame
  let s := modPort p (fun x => { x with frames := x.frames.map fun f =>
    if f.s = sAbs then { f with edges := f.edges ++ frameEdges s e cells } else f }) s
  let s := forEach cells (fun g => modCell g fun c => { c with
    relS := if rel && !null c then (c.relS <|> some sAbs) else c.relS, faultAck := false }) s
  { s with tw := { s.tw with
      relayTx := tset [] s.tw.relayTx p r,
      relayFreeAt := tset 0 s.tw.relayFreeAt p (lt + 10 * cmdLen fb slots.length false) } }

/-- A trip has blocked the arm in this fabric cycle (R252). -/
def tripNow (s : Block) (a : Nat) : Bool :=
  match (arm s a).tripAt with | some t => fabric t = fabric s.now | none => false

/-- Frames on every serving port of the arm and records of its relayed segments. Those of a sink write in the fabric cycle
of a trip's block are not launched (R252). -/
def buildFrames (a sAbs cyc : Nat) (rel keep : Bool) (s : Block) : Block :=
  if !keep && tripNow s a then s else
  forEach (armRelays s a) (buildRelay a sAbs cyc rel) (forEach (cmdPorts s a) (buildPort a sAbs cyc rel keep) s)

/-- Retired cells of an arm ask for their bypass from the first window with REL = 1 (R488). -/
def startRetWait (a : Nat) (s : Block) : Block :=
  mapCells (fun g c => if c.retWait ∧ cellArm s g = a then
    { c with retWait := false, bypReq := some s.now, bypRet := true } else c) s

/-- Latency stamp and window record of an arm (R74, R70); there is no window where no string is served. -/
def stampArm (a sAbs cyc t0 : Nat) (s : Block) : Block :=
  if (cmdPorts s a).length = 0 ∧ (armRelays s a).length = 0 then s else
  let lat := min (sAbs - t0) (2 ^ 32 - 1)
  modArm a (fun x => { x with
    latLast := lat, latMax := max x.latMax lat, winCycle := cyc, sPrev := sAbs }) s

/-- Sets the plan of every configured cell of an arm. -/
def planCells (a : Nat) (f : Nat → CellSt → CellSt) (s : Block) : Block :=
  mapCells (fun g c => if c.st ≠ .none ∧ cellArm s g = a then f g c else c) s

/-- The window of a cell that modulation does not switch: BYPASSED, FAULTED, not ranked. -/
def idlePlan (sAbs : Nat) (c : CellSt) : CellSt :=
  { advanceCell c sAbs with plan := some (bypPlan sAbs true), held := .byp }

/-! ### NLM insertion (R210 to R214, R222 to R234) -/

/-- Windows of an arm that is not switching: REL = 0, no entries, held states OFF (R214). -/
def insertOff (a sAbs cyc : Nat) (s : Block) : Block :=
  let s := planCells a (fun g c => { c with plan := some (restPlan s sAbs g c), held := .off }) s
  let s := modArm a (fun x => { x with residue := f32Zero, resSat := false }) s
  buildFrames a sAbs cyc false false s

/-- n_req of R210 and whether V_MEAN was 0. -/
def nRequest (s : Block) (a kind : Nat) (x : F32) : F32 × Bool :=
  if kind = 0 then (x, false)
  else
    let v := (arm s a).vMean
    if feq v f32Zero then (f32Zero, true) else (fdiv x v, false)

/-- The cells of the arm with their new windows, and what the window changes in the arm. -/
structure NlmOut where
  cells : Tab CellSt
  cnt : PulseCount
  teff2 : Int
deriving DecidableEq, Repr

/-- One cell's window in an NLM insertion (R222, R225, R234). -/
def nlmCell (s : Block) (e : EdgePar) (x : ArmSt) (sAbs : Nat) (sel : List Nat) (fc : Option Nat)
    (negM negF : Bool) (treq : Int) (acc : NlmOut) (gc : Nat × CellSt) : NlmOut :=
  let (g, c0) := gc
  let c := advanceCell c0 sAbs
  let fb := cellFB s g
  let isFc := fc = some g
  if !inService c then
    { acc with cells := acc.cells ++ [(g, idlePlan sAbs c0)] }
  else
    let h := c.held
    let w := if sel.contains g then insOf negM else .byp
    let p0 := planStart c sAbs
    let (p, n, t2) :=
      if isFc then
        let tgt := if sel.contains g then .byp else insOf negF
        let dl2 := weight2 x (if sel.contains g then negM else negF) (tgt ≠ .byp)
        pulse e fb h w tgt treq dl2 p0 acc.cnt
      else
        let (p, n) := wholeChange e fb h w p0 acc.cnt
        (p, n, acc.teff2)
    let c := { c with plan := some { s := sAbs, rel := true, start := h, changes := p.changes } }
    { cells := acc.cells ++ [(g, c)], cnt := n, teff2 := if isFc then t2 else acc.teff2 }

/-- The fractional cell of R201. At m = 0 the half-bridge cells of a mixed arm are bypassed for the whole window (R203). -/
def fracCell (s : Block) (a : Nat) (sel : List Nat) (mZero negM negF : Bool) : Option Nat :=
  let mixed := (armCells s a).any fun (g, _) => cellFB s g
  if mZero || negM = negF then
    ((liveOrder s a negF).map (·.1)).find? (fun g => !sel.contains g && !(mZero && mixed && !cellFB s g))
  else (((liveOrder s a negM).map (·.1)).filter sel.contains).getLast?

/-- The first edge instant of the fractional pulse, with its window start. -/
def fracFirst (e : EdgePar) (sAbs : Nat) (fc : Option Nat) (l : Tab CellSt) : Option (Nat × Nat) :=
  match fc with
  | none => none
  | some g =>
    match (tget {} l g).plan with
    | none => none
    | some w =>
      match (slotEntries e w).map (·.off) with
      | [] => none
      | o :: t => some (sAbs, sAbs + t.foldl min o)

/-- Writes the new windows of an arm's cells. -/
def putCells (l : Tab CellSt) (s : Block) : Block := forEach l (fun (g, c) s => modCell g (fun _ => c) s) s

/-- An NLM insertion of a switching arm. -/
def insertNlm (a : Nat) (nReq : F32) (cyc t0 : Nat) (s : Block) : Block :=
  let x := arm s a
  let sAbs := windowStart s a
  let lo := -((availFB s a : Nat) : Int)
  let hi := ((availCount s a : Nat) : Int)
  let n0 := fadd nReq x.residue
  let q0 := q32 n0
  let clamped := qlt q0 (qi lo) || qlt (qi hi) q0
  let n := if clamped then (if qlt q0 (qi lo) then fofInt lo else fofInt hi) else n0
  let m := qfloor (qadd (q32 n) (qf 1 2))
  let f := fsub n (fofInt m)
  let qff := q32 f
  let negM := decide (m < 0)
  let negF := decide (qff.num < 0)
  let ord := liveOrder s a negM
  let kept := if x.firstIns then [] else if x.keptNeg = negM then x.kept else []
  let sel := select m.natAbs (holdBand s a) x.inDb ord kept
  let fc := if qff.num = 0 then none else fracCell s a sel (decide (m = 0)) negM negF
  let noFc := qff.num ≠ 0 ∧ fc.isNone
  let e := edgePar s a
  let treq := qroundUp (qdiv (qmul (qabs qff) (qi e.tc)) (qi e.u)) * e.u
  let out := (armCells s a).foldl (nlmCell s e x sAbs sel fc negM negF treq)
    { cells := [], cnt := {}, teff2 := 0 }
  let resRaw : Q :=
    if qff.num = 0 ∨ noFc then qi 0
    else qsub qff (qmul (qi (if negF then -1 else 1)) (qdiv (qi out.teff2) (qi (2 * e.tc))))
  let rmax := q32 (parW s (0x3050 + a))
  let sat := qlt rmax (qabs resRaw)
  let res := if sat then (if resRaw.num < 0 then qneg rmax else rmax) else resRaw
  let guard := (ord.filter fun (g, _) => sel.contains g).any fun (_, k) => decide (2 ^ 24 ≤ k)
  let s := putCells out.cells s
  let s := modArm a (fun x => { x with
    residue := f32OfQ res, resSat := sat, guard := guard, selCyc := x.rankCyc,
    kept := sel, keptNeg := negM, firstIns := false, fracs := lastN 2 (x.fracs ++ [fc]), fracEdge := fracFirst e sAbs fc out.cells,
    dtCollapse := satAdd 16 x.dtCollapse out.cnt.dtc, pulseAdj := satAdd 16 x.pulseAdj out.cnt.adj,
    clampCnt := satAdd 16 x.clampCnt (b2n clamped + b2n (decide noFc)) }) s
  let s := raiseIf sat evResSat s
  let s := startRetWait a s
  stampArm a sAbs cyc t0 (buildFrames a sAbs cyc true false s)

/-- ARM_INSERT (R210 to R214), the sink of an NLM arm (R209): kind 0 COUNT, 1 VOLTAGE; `cyc` and `t0` are those of the producing cycle. -/
def armInsert (a kind : Nat) (x : F32) (cyc t0 : Nat) (s : Block) : Block :=
  if !armEnabled s a || !isActive s || parN s (0x3000 + a) ≠ 0 then s else
  let (n, zero) := nRequest s a kind x
  let s := if zero then modArm a (fun y => { y with refBad := satInc 8 y.refBad }) s else s
  if !isFinite32 n then modArm a (fun y => { y with refBad := satInc 8 y.refBad }) s
  else if switching s a then insertNlm a n cyc t0 s
  else
    let sAbs := windowStart s a
    stampArm a sAbs cyc t0 (insertOff a sAbs cyc s)

/-! ### Keep-alive (R73) -/

/-- Cells hold the state they have: no entries (R73, R225). -/
def keepCell (sAbs : Nat) (c : CellSt) : CellSt :=
  let d := advanceCell c sAbs
  if inService c then { d with plan := some { s := sAbs, rel := true, start := d.held, changes := [] } }
  else idlePlan sAbs c

def keepAlive (a : Nat) (s : Block) : Block :=
  let sAbs := windowStart s a
  let sw := switching s a
  let s := modArm a (fun x => { x with resSat := false }) s
  let s := planCells a (fun g c =>
    if sw then keepCell sAbs c else { c with plan := some (restPlan s sAbs g c), held := .off }) s
  stampArm a sAbs s.cyc.index s.cyc.t0 (buildFrames a sAbs s.cyc.index sw true s)

/-- KEEP_ALIVE: a switching arm, or any arm of a held converter, without a command frame for cycle.keepalive. -/
def keepAliveStep (a : Nat) (s : Block) : Block :=
  if armEnabled s a && isActive s && (switching s a || s.pwr.state = .hold) then
    keepAlive a (atTime ((arm s a).lastCmd + parDur s 0x0013 usU) s)
  else s

/-! ### Launch (R69) -/

/-- Cells of a frame with REL = 1 learn the S of their first released window (R150); bypass and fault
acknowledgement bits have been sent. -/
def launchedCells (s : Block) (p : Nat) (f : Frame) : Block :=
  if (port s p).st = .monitor then s else
  forEach (frameCells s p) (fun g s => modCell g (fun c => { c with
    relS := if f.rel && !cellNull s p c then (c.relS <|> some f.s) else c.relS, faultAck := false }) s) s

/-- The edges of a launched frame enter the blanking schedule of its arm. With the first frame of a newer window the edges
of older ones at or after its S leave; the other frames of that window add theirs (R244, R245). -/
def schedEdges (f : Frame) (s : Block) : Block :=
  let cur := tget 0 s.trip.schedS f.arm
  let l := tget [] s.trip.sched f.arm
  let old := if cur < f.s then l.filter fun t => decide (t < f.s) else l
  let new := if f.s < cur then f.edges.filter fun t => decide (t < cur) else f.edges
  { s with trip := { s.trip with
      sched := tset [] s.trip.sched f.arm (old ++ new), schedS := tset 0 s.trip.schedS f.arm (max cur f.s) } }

/-- FRAME_LAUNCH (R69, R245): the port's first waiting frame leaves at its launch instant. -/
def frameLaunchStep (p : Nat) (s : Block) : Block :=
  match (port s p).frames with
  | [] => s
  | f :: rest =>
    -- a stopped port group launches nothing (Table 19-4)
    if stopped s (6 + p / 16) then modPort p (fun x => { x with frames := rest }) s else
    let s := atTime f.launch s
    let s := launchedCells (modPort p (fun x => { x with frames := rest, freeAt := f.endT, lastTx := f.bytes }) s) p f
    if 12 ≤ f.arm then s
    else
      schedEdges f (modArm f.arm (fun x => { x with lastCmd := s.now }) s)

/-! ### Phase-shifted carriers (R235 to R243) -/

/-- Active PERIOD in 250 ps units. -/
def pscPeriod (x : ArmSt) : Nat := durF x.psc.period usU

/-- The DUTY range of an arm (R235). -/
def dutyLow (s : Block) (a : Nat) : Q := if (armPorts s a).any (strFB s) then qi (-1) else qi 0

/-- Cell duty of R241, saturated to the DUTY range. Where V_MEAN is 0, or the last ranking has no VCAP of the cell, the
manual gives no value: it is free (log entry 32). -/
def pscDuty (s : Block) (a g : Nat) : F32 :=
  let x := arm s a
  let d := q32 x.psc.duty
  let neg := decide (d.num < 0)
  let sign : Int := if d.num = 0 then 0 else if neg then -1 else 1
  let sigma : Int := if x.inDb then 0 else if x.dir != neg then -1 else 1
  let vm := q32 x.vMean
  let v := qf (cell s g).rankV 16
  let r : Q :=
    if sign = 0 ∨ sigma = 0 then d
    else if vm.num = 0 || !(x.posOrd.any fun y => y.1 = g) then q32 ((Config.freeWord s.free).setWidth 32)
    else qmul (qi sign) (qadd (qabs d)
      (qmul (qmul (q32 (parW s (0x3060 + a))) (qdiv (qsub vm v) vm)) (qi sigma)))
  f32OfQ (qmax (dutyLow s a) (qmin (qi 1) r))

/-- The carrier set: AVAILABLE cells in ascending index (R238). -/
def carrierSet (s : Block) (a : Nat) : List Nat := ((armCells s a).filter fun (_, c) => c.st = .available).map (·.1)

/-- Every cell's next boundary after an arm boundary b: b + (k / N) T (R238). -/
def cellBoundary (b t n k : Nat) : Nat := b + k * t / n

/-- The interval of a carrier period from b in which the level is not 0 (R240). -/
def pscInterval (b t : Nat) (d : F32) : Nat × Nat :=
  let w := qabs (q32 d)
  (b + (qroundUp (qdiv (qmul (qi t) (qsub (qi 1) w)) (qi 2))).toNat,
   b + (qroundUp (qdiv (qmul (qi t) (qadd (qi 1) w)) (qi 2))).toNat)

def dutyNeg (d : F32) : Bool := decide ((q32 d).num < 0)

/-- A cell's carrier at its boundary b: the duty latches and a period of length t begins (R239, R241). -/
def carrierNew (b t : Nat) (duty : F32) (c : CarrierSt) : CarrierSt :=
  { c with
      fin := b + t, lo := (pscInterval b t duty).1, hi := (pscInterval b t duty).2, duty := duty,
      before := some (c.lo, c.hi, dutyNeg c.duty) }

/-- The rest of the period in progress at b is stretched or shortened so that it ends at `fin` (R239); what lies before
b has been. -/
def carrierStretch (b fin : Nat) (c : CarrierSt) : CarrierSt :=
  let mv := fun t => if t ≤ b ∨ c.fin ≤ b then t else b + ((t - b) * (fin - b) + (c.fin - b) / 2) / (c.fin - b)
  { c with lo := mv c.lo, hi := mv c.hi, fin := fin }

/-- Transfer at an arm boundary of the held halves that are due (R236). -/
def pscTransfer (b : Nat) (x : ArmSt) : ArmSt :=
  let isDue := fun (o : Option Nat) => match o with | some t => decide (t ≤ b) | none => false
  let p := isDue x.psc.dueP
  let d := isDue x.psc.dueD
  { x with psc := { x.psc with
      period := if p then x.psc.heldPeriod.getD x.psc.period else x.psc.period,
      duty := if d then x.psc.heldDuty.getD x.psc.duty else x.psc.duty,
      heldPeriod := if p then none else x.psc.heldPeriod, heldDuty := if d then none else x.psc.heldDuty,
      dueP := if p then none else x.psc.dueP, dueD := if d then none else x.psc.dueD,
      orphanP := !p && x.psc.orphanP, orphanD := !d && x.psc.orphanD } }

/-- A cell's boundary at b: its duty latches (R239, R241). -/
def cellBoundaryAt (a g b : Nat) (s : Block) : Block :=
  match (cell s g).carrier with
  | some c =>
    let c' := carrierNew b (pscPeriod (arm s a)) (pscDuty s a g) c
    useFree (modCell g (fun x => { x with carrier := some c' }) s)
  | none => s

/-- The arm's boundary at b: transfer, new carrier set, and the period in progress of every cell ends at its first
boundary under the new values (R236, R238, R239); the first cell's is b itself. -/
def armBoundaryAt (a b : Nat) (s : Block) : Block :=
  let s := modArm a (pscTransfer b) s
  let t := pscPeriod (arm s a)
  let set := carrierSet s a
  let s := modArm a (fun x => { x with psc := { x.psc with next := some (b + t), set := set } }) s
  let s := forEach ((armCells s a).map (·.1)) (fun g s =>
    if set.contains g then s else modCell g (fun c => { c with carrier := none }) s) s
  let s := forEach (mapIdx (fun k g => (k, g)) 0 set) (fun (k, g) s =>
    let nb := cellBoundary b t set.length k
    modCell g (fun c => { c with carrier := some (match c.carrier with
      | some x => carrierStretch b nb x
      | none => { fin := nb, lo := b, hi := b }) }) s) s
  match set.head? with | some g => cellBoundaryAt a g b s | none => s

/-- The next boundary of a PSC arm: its instant, and the cell it belongs to, none for the arm's own. -/
def nextBoundary (s : Block) (a : Nat) : Option (Nat × Option Nat) :=
  (arm s a).psc.next.map fun b =>
    (arm s a).psc.set.foldl (fun best g =>
      match (cell s g).carrier with
      | some c => if c.fin < best.1 then (c.fin, some g) else best
      | none => best) (b, none)

/-- A level interval of a cell's carrier: its ends and sign; collapsed; the gap to the next one collapsed. -/
structure LevelIv where
  lo : Nat
  hi : Nat
  neg : Bool
  col : Bool := false
  tail : Bool := false
deriving DecidableEq, Repr

/-- The intervals of the cells' periods that end up to an instant, as the carriers run on from the present values: what a
window that begins later has to cover (R242). -/
def pscAhead (a lim : Nat) : Nat → Block × List (Nat × LevelIv) → Block × List (Nat × LevelIv)
  | 0, r => r
  | n + 1, (s, l) =>
    match nextBoundary s a with
    | some (b, w) =>
      if lim < b then (s, l)
      else match w with
        | none =>
          let first := (carrierSet s a).head?
          let ended := first.bind fun g => (cell s g).carrier.map fun c => (g, ({ lo := c.lo, hi := c.hi, neg := dutyNeg c.duty } : LevelIv))
          pscAhead a lim n (armBoundaryAt a b s, l ++ ended.toList)
        | some g =>
          let ended := (cell s g).carrier.map fun c => (g, ({ lo := c.lo, hi := c.hi, neg := dutyNeg c.duty } : LevelIv))
          pscAhead a lim n (cellBoundaryAt a g b s, l ++ ended.toList)
    | none => (s, l)

/-- Every level interval of a cell up to an instant, in order. -/
def cellIvs (before after : Block) (l : List (Nat × LevelIv)) (g : Nat) : List LevelIv :=
  let old := ((cell before g).carrier.bind (·.before)).map fun (lo, hi, neg) => ({ lo := lo, hi := hi, neg := neg } : LevelIv)
  let now := (cell after g).carrier.map fun c => ({ lo := c.lo, hi := c.hi, neg := dutyNeg c.duty } : LevelIv)
  (old.toList ++ (l.filter fun x => x.1 = g).map (·.2) ++ now.toList).filter fun x => decide (x.lo < x.hi)

/-- Intervals of one sign that touch are one: the level does not change between them. -/
def joinIvs : List LevelIv → List LevelIv
  | [] => []
  | x :: t =>
    match joinIvs t with
    | y :: r => if x.hi = y.lo ∧ x.neg = y.neg then { x with hi := y.hi } :: r else x :: y :: r
    | [] => [x]

/-- What R242 makes of a level interval's length: the new length, 0 for none; collapsed; and what it counts. -/
def levelLen (e : EdgePar) (len : Int) : Int × Bool × PulseCount :=
  if len < e.dead then
    let q := if len < e.minOff then policyOf e.policy len e.minOff else len
    (q, true, { dtc := 1, adj := b2n (decide (q ≠ len)) })
  else
    let p := if len < e.minOn then policyOf e.policy len e.minOn else len
    let q := if p ≠ 0 ∧ p < e.minOff then policyOf e.policy p e.minOff else p
    (q, false, { adj := b2n (decide (p ≠ len)) + b2n (decide (q ≠ p)) })

/-- An interval counts in the window that its begin falls into; what an earlier window covered has been counted. -/
def countIv (frm till start : Nat) (n c : PulseCount) : PulseCount :=
  if frm ≤ start ∧ start < till then { dtc := c.dtc + n.dtc, adj := c.adj + n.adj } else c

/-- R242 for the inserted intervals: each keeps its middle (log entry 32). -/
def fixLevels (e : EdgePar) (frm till : Nat) : List LevelIv → PulseCount → List LevelIv × PulseCount
  | [], c => ([], c)
  | x :: t, c =>
    let (q, col, n) := levelLen e ((x.hi : Int) - x.lo)
    let (r, c) := fixLevels e frm till t (countIv frm till x.lo n c)
    if q ≤ 0 then (r, c)
    else
      let lo := (x.lo + x.hi - q.toNat) / 2
      ({ x with lo := lo, hi := lo + q.toNat, col := col } :: r, c)

/-- R242 for the gaps between them, of level 0. A gap that would collapse beside a collapsed interval or between two
signs closes instead. -/
def fixGaps (e : EdgePar) (frm till : Nat) : List LevelIv → PulseCount → List LevelIv × PulseCount
  | [], c => ([], c)
  | x :: t, c =>
    let (r, c) := fixGaps e frm till t c
    match r with
    | [] => ([x], c)
    | y :: r =>
      let same := x.neg == y.neg
      let one : LevelIv := { y with lo := x.lo, col := false }
      if y.lo ≤ x.hi then (if same then one :: r else x :: { y with lo := x.hi } :: r, c)
      else
        let (q, col, n) := levelLen e ((y.lo : Int) - x.hi)
        let c := countIv frm till x.hi n c
        let col' := col && same && !x.col && !y.col
        if q ≤ 0 || (col && !col') then
          let mid := (x.hi + y.lo) / 2
          (if same then one :: r else { x with hi := mid } :: { y with lo := mid } :: r, c)
        else
          let lo := (x.hi + y.lo - q.toNat) / 2
          ({ x with hi := lo, tail := col' } :: { y with lo := lo + q.toNat } :: r, c)

/-- A logical change of a window at an absolute instant. -/
def pscChange (e : EdgePar) (fb : Bool) (sAbs : Nat) (frm dest : LState) (t : Nat) (p : CellPlan) : CellPlan :=
  if sAbs ≤ t ∧ ((t : Int) - sAbs) < e.tc then emit e fb frm dest ((t : Int) - sAbs) p else p

/-- One edge of a collapsed interval: gate y of the state that the cell keeps. -/
def pscEdge (e : EdgePar) (sAbs : Nat) (st : LState) (y t : Nat) (lvl : Bool) (p : CellPlan) : CellPlan :=
  if sAbs ≤ t ∧ ((t : Int) - sAbs) < e.tc then
    let d := (if lvl then e.riseOf y else e.fallOf y)
    let off := (roundU e ((t : Int) - sAbs + d)).toNat
    let c : Change := { t := t - sAbs, frm := st, dest := st, edges := [{ off := off, gate := y, level := lvl }] }
    { p with changes := p.changes ++ [c] }
  else p

/-- The changes of one cell's window in PSC, from its level intervals in order; `prev` is the interval before. -/
def pscChanges (e : EdgePar) (fb : Bool) (sAbs : Nat) (prev : Option LevelIv) : List LevelIv → CellPlan → CellPlan
  | [], p => p
  | x :: t, p =>
    let ins := insOf x.neg
    let yb := (leaving fb .byp ins).headD 0
    let yi := (leaving fb ins .byp).headD 0
    let joined := match prev with | some q => decide (q.hi = x.lo) | none => false
    let tailed := match prev with | some q => q.tail | none => false
    let p :=
      if x.col then pscEdge e sAbs .byp yb x.lo false p
      else if tailed then pscEdge e sAbs ins yi x.lo true p
      else if joined then p
      else pscChange e fb sAbs .byp ins x.lo p
    let p :=
      if x.col then pscEdge e sAbs .byp yb x.hi true p
      else if x.tail then pscEdge e sAbs ins yi x.hi false p
      else match t with
        | y :: _ => if y.lo = x.hi ∧ !y.col then pscChange e fb sAbs ins (insOf y.neg) x.hi p
          else pscChange e fb sAbs ins .byp x.hi p
        | [] => pscChange e fb sAbs ins .byp x.hi p
    pscChanges e fb sAbs (some x) t p

/-- The level that a cell has at S, before a change at S itself (R242). -/
def levelAt (sAbs : Nat) : List LevelIv → LState
  | [] => .byp
  | x :: t =>
    if x.lo < sAbs ∧ sAbs ≤ x.hi then (if x.col then .byp else insOf x.neg)
    else match t with
      | y :: _ => if x.tail ∧ x.hi < sAbs ∧ sAbs ≤ y.lo then insOf x.neg else levelAt sAbs t
      | [] => .byp

structure PscOut where
  cells : Tab CellSt
  cnt : PulseCount
deriving DecidableEq, Repr

/-- One cell's window in a PSC insertion (R242, R243). -/
def pscCell (s after : Block) (l : List (Nat × LevelIv)) (e : EdgePar) (set : List Nat) (sAbs : Nat) (acc : PscOut)
    (gc : Nat × CellSt) : PscOut :=
  let (g, c0) := gc
  if c0.st = .available && set.contains g then
    let c := advanceCell c0 sAbs
    let frm := max sAbs (match c.carrier with | some x => x.counted | none => 0)
    let till := sAbs + e.tc.toNat
    let (ivs, n) := fixLevels e frm till (joinIvs (cellIvs s after l g)) acc.cnt
    let (ivs, n) := fixGaps e frm till ivs n
    let p := pscChanges e (cellFB s g) sAbs none ivs (planStart c sAbs)
    { cells := acc.cells ++ [(g, { c with
        plan := some { s := sAbs, rel := true, start := levelAt sAbs ivs, changes := p.changes },
        carrier := c.carrier.map fun x => { x with counted := till } })],
      cnt := n }
  else { acc with cells := acc.cells ++ [(g, idlePlan sAbs c0)] }

/-- The first arm boundary after deblocking falls at the S of the first window, with period0 and DUTY 0 until a transfer
(R238). -/
def pscFirst (a sAbs : Nat) (s : Block) : Block :=
  match (arm s a).psc.next with
  | some _ => s
  | none => modArm a (fun x => { x with psc := { x.psc with
      next := some sAbs, period := parW s (0x3070 + a), duty := f32Zero } }) s

/-- Boundaries that can fall up to an instant. -/
def pscFuel (s : Block) (a lim : Nat) : Nat :=
  match (arm s a).psc.next with
  | some b => ((lim - b) / max 1 (pscPeriod (arm s a)) + 3) * ((carrierSet s a).length + 2)
  | none => 0

/-- The windows of a PSC arm for an insertion that starts at S. -/
def pscWindows (a sAbs cyc : Nat) (s : Block) : Block :=
  if switching s a then
    let s := pscFirst a sAbs s
    let e := edgePar s a
    let lim := sAbs + e.tc.toNat + pscPeriod (arm s a)
    let (after, l) := pscAhead a lim (pscFuel s a lim) (s, [])
    let out := (armCells s a).foldl (pscCell s after l e (arm after a).psc.set sAbs) { cells := [], cnt := {} }
    let s := putCells out.cells s
    let s := modArm a (fun x => { x with
      firstIns := false, resSat := false, dtCollapse := satAdd 16 x.dtCollapse out.cnt.dtc,
      pulseAdj := satAdd 16 x.pulseAdj out.cnt.adj }) s
    buildFrames a sAbs cyc true false (startRetWait a s)
  else insertOff a sAbs cyc s

/-- PERIOD lies from 2 T_c to 100,000 us, as written (R235). -/
def pscPeriodOk (s : Block) (p : F32) : Bool :=
  isFinite32 p && qle (qf (2 * tcU s : Nat) usU) (q32 p) && fle p (fofInt 100000)

/-- DUTY saturated to the arm's range (R235). -/
def pscDutySat (s : Block) (a : Nat) (d : F32) : F32 :=
  let lo := if (armPorts s a).any (strFB s) then fofInt (-1) else f32Zero
  if flt d lo then lo else if flt f32One d then f32One else d

/-- A half written again keeps the instant since which it is held, and its PAIR_ORPHAN (R237). -/
def holdPeriod (a : Nat) (p : F32) (s : Block) : Block :=
  if pscPeriodOk s p then
    modArm a (fun x => { x with psc := { x.psc with
      heldPeriod := some p, periodAt := if x.psc.heldPeriod.isSome then x.psc.periodAt else s.now } }) s
  else modArm a (fun x => { x with refBad := satInc 8 x.refBad }) s

def holdDuty (a : Nat) (d : F32) (s : Block) : Block :=
  if isNaN32 d then modArm a (fun x => { x with refBad := satInc 8 x.refBad }) s
  else modArm a (fun x => { x with psc := { x.psc with
    heldDuty := some (pscDutySat s a d), dutyAt := if x.psc.heldDuty.isSome then x.psc.dutyAt else s.now } }) s

/-- The halves that transfer at the first boundary at or after S: both of a complete pair, or with a COMMIT any held one;
a half that is due from an earlier S stays so (R236). -/
def pscDue (commit : Bool) (sAbs : Nat) (h : PscSt) : PscSt :=
  let both := h.heldPeriod.isSome && h.heldDuty.isSome
  { h with
      dueP := if (both || commit) && h.heldPeriod.isSome then h.dueP <|> some sAbs else h.dueP,
      dueD := if (both || commit) && h.heldDuty.isSome then h.dueD <|> some sAbs else h.dueD }

/-- PSC_SINK (R235, R236): the halves a sink write carries are held and the arm's windows built. An arm in NLM has no such
sink (R209). -/
def pscSink (a : Nat) (period duty : Option F32) (commit : Bool) (cyc t0 : Nat) (s : Block) : Block :=
  if !armEnabled s a || !isActive s || parN s (0x3000 + a) ≠ 1 then s else
  let s := match period with | some p => holdPeriod a p s | none => s
  let s := match duty with | some d => holdDuty a d s | none => s
  let sAbs := windowStart s a
  let s := modArm a (fun x => { x with psc := pscDue commit sAbs x.psc }) s
  stampArm a sAbs cyc t0 (pscWindows a sAbs cyc s)

/-- CARRIER_BOUNDARY (R239) of an arm, or of one cell of its carrier set. -/
def carrierBoundaryStep (a : Nat) (g : Option Nat) (s : Block) : Block :=
  if !(parN s (0x3000 + a) = 1 && switching s a) then s else
  match g with
  | none =>
    match (arm s a).psc.next with
    | some b => armBoundaryAt a b (atTime b s)
    | none => s
  | some g =>
    match (cell s g).carrier with
    | some c => if (arm s a).psc.set.contains g then cellBoundaryAt a g c.fin (atTime c.fin s) else s
    | none => s

/-- PAIR_ORPHAN (R237): a half held alone for more than 2 active periods; one that a COMMIT has made due is not. -/
def pairOrphanStep (a : Nat) (s : Block) : Block :=
  let h := (arm s a).psc
  let lim := 2 * pscPeriod (arm s a)
  if h.next.isNone then s
  else if h.heldPeriod.isSome && h.heldDuty.isNone && h.dueP.isNone && !h.orphanP then
    let s := atTime (h.periodAt + lim) s
    raise evPairOrphan (modArm a (fun x => { x with psc := { x.psc with orphanP := true } }) s)
  else if h.heldDuty.isSome && h.heldPeriod.isNone && h.dueD.isNone && !h.orphanD then
    let s := atTime (h.dutyAt + lim) s
    raise evPairOrphan (modArm a (fun x => { x with psc := { x.psc with orphanD := true } }) s)
  else s

/-! ### Rejoin of a split ring (R116) -/

/-- The ring of a port is split and both its ports hold upstream lock (R116). A ring that started split at the end of
discovery may have lock at both ends all along; it is whole once its numbering end has found every cell (R518, log
entry 31). -/
def ringRepaired (s : Block) (p : Nat) : Bool :=
  let q := ringMate s p
  let ev := match q with | some q => if portTopo s p = 1 then p else q | none => p
  (port s p).brk && (port s p).lock && (match q with | some q => (port s q).lock | none => s.tw.peerLock p) &&
    (!(port s p).split || (port s ev).cellsFound = strCells s p)

/-- The rejoin: BREAK and REVERSED clear and the ring is served from its even port or the active unit. -/
def ringRejoin (p : Nat) (s : Block) : Block :=
  let whole := fun q => (upto (strCells s q)).map (cellAtHop s q)
  match ringMate s p with
  | some q =>
    let ev := if portTopo s p = 1 then p else q
    let od := if portTopo s p = 1 then q else p
    let fix := fun (r : Nat) (st : PState) (s : Block) =>
      setSeg r (whole r) (modPort r (fun x => { x with
        brk := false, split := false, brkAt := 0, reversed := false, markDue := true,
        st := if x.st = .serve ∨ x.st = .monitor then st else x.st }) s)
    fix od .monitor (fix ev .serve s)
  | none =>
    let s := { s with tw := { s.tw with relays := s.tw.relays.filter (· ≠ p) } }
    let st : PState := if isActive s then .serve else .monitor
    setSeg p (whole p) (modPort p (fun x => { x with
      brk := false, split := false, brkAt := 0, reversed := false, relayed := false, markDue := true,
      st := if x.st = .serve ∨ x.st = .monitor then st else x.st }) s)

/-- WINDOW_START (R116): at the arm's window start S a host-ordered rejoin takes effect. -/
def windowStartStep (a : Nat) (s : Block) : Block :=
  let l := (arm s a).rejoin
  let s := atTime (arm s a).sPrev s
  let s := forEach l (fun p s => if ringRepaired s p then ringRejoin p s else s) s
  modArm a (fun x => { x with rejoin := [] }) s

end Sys2Proof.Machine
end

