-- ==== Sys2Proof/Machine/Trips.lean ====
section
/-!
DEFINITION. Trip blanking and the trip matrix (R244 to R252).
-/

namespace Sys2Proof.Machine

def evTripEvent : Nat := 40
/-- An input asserts in the matrix, after blanking: a trigger of the measurement units and the recorder. -/
def evTripMatrix (i : Nat) : Nat := 800 + i
def evTripBlock : Nat := 41
def evTripOpen : Nat := 42

/-- Arms of a group: 0 to 11, or every enabled arm for the global group 12 (R248). -/
def groupOfTrip (s : Block) (g : Nat) : List Nat := if g < 12 then [g] else enabledArms s

/-- The arms an input's BLOCK and BLOCK_AND_OPEN mappings name. -/
def tripArms (s : Block) (i : Nat) : List Nat :=
  (upto 12).filter fun a => tripBlocks s i a || (tripBlocks s i 12 && armEnabled s a)

def tripHas (s : Block) (i code : Nat) : Bool := (upto 13).any fun g => tripAction s i g = code

/-- De-energises the CMD output of an input (R250, R512). -/
def tripOpen (i : Nat) (s : Block) : Block :=
  let k := parN s (0x3280 + i)
  let wasMain := k = cmdMain s && mainOn s
  let wasByp := k = cmdBypass s && bypassOn s
  let s := { s with trip := { s.trip with opened := setBit s.trip.opened k true } }
  let s := driveCmd k false s
  let s := { s with seq := { s.seq with
    tripMain := s.seq.tripMain || wasMain,
    mainOffAt := if wasMain then some s.now else s.seq.mainOffAt,
    bypassOffAt := if wasByp then some s.now else s.seq.bypassOffAt } }
  raise evTripOpen s

/-- The matrix actions of an input that acts (R248, R250, R251). -/
def tripAct (i : Nat) (s : Block) : Block :=
  let s := raise (evTripMatrix i) s
  let ev := tripHas s i 1
  let opn := tripHas s i 3
  let blk := tripHas s i 2 || opn
  if !(ev || blk) then { s with trip := { s.trip with acted := setBit s.trip.acted i true } }
  else
    let s := { s with trip := { s.trip with
      latch := setBit s.trip.latch i true, acted := setBit s.trip.acted i true } }
    let s := raiseIf ev evTripEvent s
    let s := if blk then
        forEach (tripArms s i) (fun a => modArm a fun x => { x with tripAt := some s.now })
          (blockArms (tripArms s i) 3 (raise evTripBlock s))
      else s
    if opn then tripOpen i s else s

/-- The input is blanked now; level 2 of a comparator never is (R247). -/
def tripBlankedNow (s : Block) (i : Nat) : Bool :=
  bitAt s.trip.blanked i && !(16 ≤ i && bitAt s.trip.l2 (i - 16))

/-- The comparator is a wake source: it maps BLOCK or BLOCK_AND_OPEN onto a group; in DOZE and OFF the copy taken in the
power-off step says so (R709). -/
def tripWakes (s : Block) (i : Nat) : Bool :=
  decide (16 ≤ i) && (if matrixOn s then (upto 13).any (tripBlocks s i) else bitAt s.pwr.wakeMap i)

/-- An input asserts after its filter: it acts unless it is blanked (R244, R250), or the matrix is off (R709). -/
def tripRise (i : Nat) (s : Block) : Block :=
  if bitAt s.trip.raw i then s
  else
    let s := raiseIf (tripWakes s i) evWakeTrip { s with trip := { s.trip with raw := setBit s.trip.raw i true } }
    if tripBlankedNow s i || !matrixOn s then s else tripAct i s

/-- An input releases (R249): it may act again once it asserts anew. -/
def tripFall (i : Nat) (s : Block) : Block :=
  { s with trip := { s.trip with raw := setBit s.trip.raw i false, acted := setBit s.trip.acted i false } }

/-- The pin stands at a level that has persisted without a break for trip.in[i].filter (R249). A level that it did not have
came at the earliest when the command before this one left the pin, so time goes on to the end of the filter from there. -/
def pinHeld (i : Nat) (level : Bool) (s : Block) : Block :=
  let s := if bitAt s.trip.pins i == level then s else atTime (tget 0 s.trip.pinAt i + parDur s (0x3200 + i) usU) s
  { s with trip := { s.trip with pins := setBit s.trip.pins i level, pinAt := tset 0 s.trip.pinAt i s.now } }

/-- The active level of a pin: high, or low where trip.in[i].polarity is 1 (R249). -/
def pinActive (s : Block) (i : Nat) : Bool := !parB s (0x3220 + i)

/-- TRIP_ASSERT (R249, R250) of a pin TRIP0 to TRIP15. -/
def tripAssertStep (i : Nat) (s : Block) : Block :=
  if i < 16 then tripRise i (pinHeld i (pinActive s i) s) else s

/-- TRIP_RELEASE (R249). -/
def tripReleaseStep (i : Nat) (s : Block) : Block :=
  if i < 16 then tripFall i (pinHeld i (!pinActive s i) s) else s

/-- BLANKING_START (R244): the arm's next scheduled edge instant is reached. -/
def blankingStartStep (a : Nat) (s : Block) : Block :=
  match tget [] s.trip.sched a with
  | [] => s
  | e0 :: rest =>
    let e := rest.foldl min e0
    let s := atTime e s
    let s := { s with trip := { s.trip with
      sched := tset [] s.trip.sched a ((e0 :: rest).filter fun t => decide (t ≠ e)) } }
    forEach (upto 32) (fun i s =>
      let d := parDur s (0x3240 + i) usU
      if d ≠ 0 ∧ bitAt (parN s (0x3260 + i)) a then
        { s with trip := { s.trip with
          blanked := setBit s.trip.blanked i true,
          blankEnd := tset 0 s.trip.blankEnd i (max (tget 0 s.trip.blankEnd i) (e + d)) } }
      else s) s

/-- BLANKING_END (R246): an input still asserted that has not acted acts now, unless the matrix is off (R709). -/
def blankingEndStep (i : Nat) (s : Block) : Block :=
  if i < 32 ∧ bitAt s.trip.blanked i then
    let s := atTime (tget 0 s.trip.blankEnd i) s
    let s := { s with trip := { s.trip with
      blanked := setBit s.trip.blanked i false, blankEnd := tset 0 s.trip.blankEnd i 0 } }
    if bitAt s.trip.raw i ∧ !bitAt s.trip.acted i ∧ matrixOn s then tripAct i s else s
  else s

/-- An output may energise again once every latched input that opened it is cleared (R512). -/
def reopenOutputs (s : Block) : Block :=
  let held := (upto 8).filter fun k => bitAt s.trip.opened k &&
    (upto 32).any fun i => bitAt s.trip.latch i && tripHas s i 3 && parN s (0x3280 + i) = k
  driveHost { s with trip := { s.trip with opened := maskOf held } }

/-- TRIP_LATCH_CLEAR (R251, R512). -/
def tripLatchClearStep (mask : Nat) (s : Block) : Block :=
  reopenOutputs { s with trip := { s.trip with latch := clearMask s.trip.latch mask } }

end Sys2Proof.Machine
end

