-- ==== Sys2Proof/Machine/Tenter.lean ====
section
/-!
DEFINITION. Tentering (chapter 13): charge and capacitance, temperature, wear, ceilings, the cell record, and the
silicon plan.
-/

namespace Sys2Proof.Machine

/-! ### Charge of a cycle (R475) -/

/-- Value of the current at an instant, linear between stream samples, binary64 per unit. -/
def streamAt (l : List (Nat × F32)) (t : Nat) : F64 :=
  match l with
  | [] => 0#64
  | [(_, v)] => f2d v
  | (t1, v1) :: (t2, v2) :: r =>
    if t ≤ t1 then f2d v1
    else if t ≤ t2 ∧ t1 < t2 then
      let f := r64 (fvRatio ((t - t1 : Nat) : Int) (t2 - t1))
      dadd (f2d v1) (dmul (dsub (f2d v2) (f2d v1)) f)
    else streamAt ((t2, v2) :: r) t

/-- Area under a straight line from y0 to y1 over d seconds: of its part above 0, and of its part below 0. -/
def lineParts (y0 y1 d : F64) : F64 × F64 :=
  let half := fun x => dmul x (r64 (.fin false 1 (-1)))
  let area := fun y => dmul (half y) d
  -- where the line crosses 0, each part is a triangle over the share y / (y - y') of d
  let tri := fun y y' => dmul (half (ddiv (dmul y y) (dsub y y'))) d
  if dlt y0 0#64 && dlt 0#64 y1 then (tri y1 y0, dneg (tri (dneg y0) (dneg y1)))
  else if dlt 0#64 y0 && dlt y1 0#64 then (tri y0 y1, dneg (tri (dneg y1) (dneg y0)))
  else if dlt y0 0#64 || dlt y1 0#64 then (0#64, area (dadd y0 y1))
  else (area (dadd y0 y1), 0#64)

/-- Integral over [a, b] of the interpolated stream where it is positive, and where it is negative, in per unit times
seconds, by straight lines between the samples. -/
def streamParts (l : List (Nat × F32)) (a b : Nat) : F64 × F64 :=
  let pts := (a :: (l.map (·.1)).filter fun t => decide (a < t ∧ t < b)) ++ [b]
  let rec go : List Nat → F64 × F64
    | x :: y :: r =>
      let p := lineParts (streamAt l x) (streamAt l y) (r64 (fvRatio ((y - x : Nat) : Int) sU))
      let q := go (y :: r)
      (dadd p.1 q.1, dadd p.2 q.2)
    | _ => (0#64, 0#64)
  if b ≤ a then (0#64, 0#64) else go pts

def polOf : LState → Int
  | .insP => 1
  | .insN => -1
  | _ => 0

/-- Polarity the diodes impose while a cell's leg is in dead time (R475). -/
def diodePol (fb : Bool) (frm dest : LState) (iPos iNeg : Bool) : Int :=
  if fb && (frm = .insN || dest = .insN) && (frm ≠ .insP && dest ≠ .insP) then (if iNeg then -1 else 0)
  else if fb && (frm = .insN || dest = .insN) then (if iPos then 1 else if iNeg then -1 else 0)
  else if iPos then 1 else 0

/-- The cell's logical transitions in order up to an instant, those of its present window among them. -/
def transitions (c : CellSt) (tEnd : Nat) : List (Nat × LState × Nat × LState) :=
  (advanceCell c tEnd).hist

/-- Polarity intervals between two instants: begin, end, state, in dead time with the state before. -/
def polSegs (l : List (Nat × LState × Nat × LState)) (t0 t1 : Nat) : List (Nat × Nat × LState × Option LState) :=
  match l with
  | [] => []
  | (t, dest, dEnd, frm) :: r =>
    let nxt := match r with | (t2, _) :: _ => min t2 t1 | [] => t1
    let a := max t t0
    let d := min (max dEnd a) nxt
    let dead := if a < d then [(a, d, dest, some frm)] else []
    let flat := if d < nxt then [(max d a, nxt, dest, (none : Option LState))] else []
    dead ++ flat ++ polSegs r t0 t1

/-- q_k of a cell in per unit times seconds, and the units of 250 ps it was commanded inserted (R475, R476). -/
def cellCharge (fb : Bool) (str : List (Nat × F32)) (l : List (Nat × LState × Nat × LState)) (t0 t1 : Nat) : F64 × Nat :=
  (polSegs l t0 t1).foldl (fun (r : F64 × Nat) (a, b, dest, dead) =>
    let (ip, im) := streamParts str a b
    -- polarity while the current is positive, and while it is negative
    let (pp, pm) := match dead with
      | some frm => (diodePol fb frm dest true false, diodePol fb frm dest false true)
      | none => (polOf dest, polOf dest)
    let part := fun (p : Int) (i : F64) (q : F64) => if p = 1 then dadd q i else if p = -1 then dsub q i else q
    (part pm im (part pp ip r.1),
     if dest = .insP ∨ dest = .insN then r.2 + (b - a) else r.2)) (0#64, 0)

/-- The arm current's stream in a cycle, with the sample at the t0 that ends it where CYC_START gives it; without it the
last sample stands for the rest of the cycle (R475). -/
def armStream (smp : Nat → Option (F32 × Bool)) (s : Block) (a t1 : Nat) : List (Nat × F32) :=
  let k := parN s (0x2000 + a)
  let raw := (tget [] s.adc.stream k).filter (fun p => decide (p.1 < t1)) ++
    (match smp k with | some (v, _) => [(t1, v)] | none => [])
  if parB s (0x2010 + a) then raw.map fun (t, v) => (t, fneg v) else raw

/-- The squares of an arm's current over the cycle from t0 to t1, and their number (R476, R480). -/
def cycleSq (s : Block) (a : Nat) (str : List (Nat × F32)) (t0 t1 : Nat) : F64 × Nat :=
  let fs := f2d (parW s (0x9010 + a))
  let l := str.filter fun p => decide (t0 ≤ p.1 ∧ p.1 < t1)
  (l.foldl (fun r (_, v) => let x := dmul (f2d v) fs; dadd r (dmul x x)) 0#64, l.length)

/-- The cycle that ends at t1: each arm's current counts for its RMS, and its charge is added to every cell of the
switching arms (R475, R480, CHARGE_ACCUMULATE). -/
def chargeAccumulate (smp : Nat → Option (F32 × Bool)) (t0 t1 : Nat) (s : Block) : Block :=
  let s := forEach (enabledArms s) (fun a s =>
    let (sq, cnt) := cycleSq s a (armStream smp s a t1) t0 t1
    modArm a (fun x => { x with iSq := dadd x.iSq sq, iCyc := x.iCyc + cnt }) s) s
  let one := fun (a : Nat) (s : Block) =>
    let str := armStream smp s a t1
    let fs := f2d (parW s (0x9010 + a))
    let valid := (ainVal s (parN s (0x2000 + a))).valid
    let (sq, cnt) := cycleSq s a str t0 t1
    mapCells (fun g c =>
      if c.st ≠ .none ∧ cellArm s g = a then
        let (q, ins) := cellCharge (cellFB s g) str (transitions c t1) t0 t1
        let b := c.tent.blk
        let b := { b with
          q := dadd b.q (dmul q fs), ins := b.ins + ins, cyc := b.cyc + 1, iSq := dadd b.iSq sq, cnt := b.cnt + cnt,
          ok := b.ok && (arm s a).sw && inService c && valid && b.ceil0 = c.tent.ceil }
        { c with tent := { c.tent with blk := b } }
      else c) s
  let s := forEach ((enabledArms s).filter (switching s)) one s
  -- the transitions before t1 are spent; the state at t1 begins the next cycle
  mapCells (fun _ c =>
    if c.st = .none then c
    else
      let last := (transitions c t1).getLast?
      let keep := match last with | some (t, dest, d, f) => [(t, dest, d, f)] | none => []
      { c with hist := match c.plan with
        | none => keep
        | some _ => (c.hist.getLast?).toList }) s

/-! ### Blocks (R476, R477) -/

/-- The RMS of the block's current is at least a fifth of i_rated. -/
def rmsOk (s : Block) (a : Nat) (b : TentBlk) : Bool :=
  b.cnt ≠ 0 &&
    (let lim := qmul (q32 (parW s (0x9020 + a))) (qf 1 5)
     qle (qmul (qmul lim lim) (qi b.cnt)) (q64 b.iSq))

/-- λ of R477. -/
def lambda (s : Block) : F64 :=
  let t := r64 (fvRatio ((8 * tcU s : Nat) : Int) sU)
  expD (dneg (ddiv t (f2d (parW s 0x9001))))

/-- A closed block with its whole charge integral updates the sums when it qualifies (R476, R477). -/
def closeBlock (s : Block) (g : Nat) (t : TentCell) (b : TentBlk) (v chg : Nat) : TentCell :=
  match b.v0, b.chg0 with
  | some v0, some c0 =>
    let dChg := wrapN 32 ((chg : Int) - c0)
    let diff := ((dChg : Int) - (b.ins / 8 : Nat)).natAbs
    if b.ok && b.cyc = 8 && decide (diff * 8 ≤ parDur s 0x9003 usU) && rmsOk s (cellArm s g) b then
      let dv := r64 (fvRatio ((v : Int) - v0) 16)
      let l := lambda s
      let q := b.q
      { t with
        n := dadd (dmul l t.n) (r64 (.fin false 1 0)), sq := dadd (dmul l t.sq) q, sv := dadd (dmul l t.sv) dv,
        sqq := dadd (dmul l t.sqq) (dmul q q), sqv := dadd (dmul l t.sqv) (dmul q dv),
        cQual := t.cQual + 8 * tcU s, sumQual := t.sumQual + 8 * tcU s }
    else t
  | _, _ => t

/-- An accepted report of a cell with an auxiliary word advances its estimator (R476, R481). -/
def tentReport (g idx : Nat) (w : W16) (v : Nat) (s : Block) : Block :=
  let a := cellArm s g
  let i := (armCurrent s a).1
  let iA := qabs (qmul (q32 i) (q32 (parW s (0x9010 + a))))
  let rated := q32 (parW s (0x9020 + a))
  let near := qle (qmul rated (qf 9 10)) iA && qle iA (qmul rated (qf 11 10))
  modCell g (fun c =>
    let t := c.tent
    let t :=
      if idx = 5 then
        let nb : TentBlk := { v0 := some v, ok := true, ceil0 := t.ceil }
        { t with closing := some (t.blk, v, w.toNat), blk := nb }
      else if idx = 6 then
        match t.closing with
        | some (b, ve, hi) =>
          let chg := hi * 2 ^ 16 + w.toNat
          { closeBlock s g t b ve chg with closing := none, blk := { t.blk with chg0 := some chg } }
        | none => t
      else if (idx = 2 ∨ idx = 3) ∧ near ∧ w ≠ 0xFFFF#16 then
        let fresh := (idx = 2 ∧ !t.baseU) ∨ (idx = 3 ∧ !t.baseL)
        let first := t.vonU.length = 0 ∧ t.vonL.length = 0 ∧ !t.baseU ∧ !t.baseL
        let base := if first then t.tj else t.tjBase
        if first ∨ (t.tj - base).natAbs ≤ 160 then
          let t := { t with tjBase := base }
          let l := lastN 64 ((if idx = 2 then t.vonU else t.vonL) ++ [w.toNat])
          let t := if idx = 2 then { t with vonU := l } else { t with vonL := l }
          if fresh ∧ l.length = 64 then
            let m := divRne (sumNat l) 64
            if idx = 2 then { t with vonRefU := m, baseU := true } else { t with vonRefL := m, baseL := true }
          else t
        else t
      else t
    { c with tent := t }) s

/-! ### The periodic update (R477 to R484) -/

/-- C_EST from the sums; unchanged where the fit gives none. -/
def cEstOf (t : TentCell) : Nat :=
  let den := dsub (dmul t.n t.sqq) (dmul t.sq t.sq)
  let num := dsub (dmul t.n t.sqv) (dmul t.sq t.sv)
  if dlt 0#64 den then
    let slope := ddiv num den
    if dlt 0#64 slope then
      -- farads in 10 uF units: 100,000 / slope
      let c := qround (qdiv (qi 100000) (q64 slope))
      clampN 1 65535 c.toNat
    else t.cEst
  else t.cEst

/-- Tj of R480 in 1/16 degC, and TJ_UNK. -/
def tjOf (s : Block) (a : Nat) (c : CellSt) : Int × Bool :=
  let ws := [0, 1].filterMap fun k => (tfind c.aux k).filter fun w => w ≠ 0xFFFF#16
  match ws.map BitVec.toInt with
  | [] => (qround (qmul (q32 (parW s (0x2060 + a))) (qi 16)), true)
  | x :: t =>
    let x0 := arm s a
    let ms := if x0.iCyc = 0 then 0#64 else ddiv x0.iSq (r64 (fvOfInt x0.iCyc 0))
    let rms := r64 (fvSqrt (v64 ms))
    let rise := qmul (qmul (q32 (parW s (0x9030 + a))) (q64 rms)) (qi 16)
    (maxInt t x + qround rise, false)

/-- The rise of a device over its baseline (R481). -/
def vonRise (base : Bool) (ref : Nat) (l : List Nat) : Q :=
  if !base || ref = 0 || l.length = 0 then qi 0
  else qsub (qf (sumNat l) (l.length * ref)) (qi 1)

/-- The record a cell's update produces (R477 to R484). RETIRE_DUE follows the comparison of R484 at each update. -/
def tentUpdateCell (s : Block) (g : Nat) (c : CellSt) : TentCell :=
  let a := cellArm s g
  let t := c.tent
  let e := tget 0 s.model.cellTab g
  let cNom := bits e 16 16
  let vCeil := bits e 32 16
  let qualU := parDur s 0x9002 sU
  let hold := t.afterTakeover && decide (t.sumQual < qualU)
  let valid := t.cValid || decide (qualU ≤ t.cQual)
  let cEst := if hold || !valid then t.cEst else cEstOf t
  let (tj, unk) := tjOf s a c
  let upd := q32 (parW s 0x9000)
  let dt := qdiv (qsub (qf tj 16) (q32 (parW s (0x9090 + a)))) (qi 10)
  let th := dadd t.thAcc (dmul (f64OfQ upd) (pow2D (f64OfQ dt)))
  let loss := if cNom = 0 then qi 0 else qmax (qi 0) (qsub (qi 1) (qf cEst cNom))
  let c1 := if valid then qdiv (qmul loss (qi 100)) (q32 (parW s (0x9060 + a))) else qi 0
  let c2 := qdiv (qmul (qmax (vonRise t.baseU t.vonRefU t.vonU) (vonRise t.baseL t.vonRefL t.vonL)) (qi 100))
    (q32 (parW s (0x9070 + a)))
  let c3 := qdiv (q64 th) (qmul (q32 (parW s (0x9080 + a))) (qi 3600))
  let wNew := (qround (qmul (qi 65535) (qmin (qi 1) (qmax c1 (qmax c2 c3))))).toNat
  let w := max t.w wNew
  let ceil :=
    if valid then
      let k := qmax (qdiv (q32 (parW s (0x9050 + a))) (qi 100)) (qsub (qi 1) (qmul (q32 (parW s (0x9040 + a))) loss))
      let target := (qfloor (qmul (qi vCeil) k)).toNat
      min t.ceil (max target (t.ceil - vCeil / 400))
    else t.ceil
  { t with
    cEst := cEst, cValid := valid, tj := tj, tjUnk := unk, thAcc := th, w := w, ceil := ceil,
    afterTakeover := hold, retireDue := decide (parN s (0x90A0 + a) ≤ w) }

/-- TENT_UPDATE (R474): the values take effect at the next cycle start. -/
def tentUpdateStep (s : Block) : Block :=
  let l := (s.cells.filter fun (_, c) => c.st ≠ .none).map fun (g, c) => { cell := g, val := tentUpdateCell s g c : TentNext }
  let s := { s with tentNext := s.tentNext ++ l }
  forEach (upto 12) (fun a => modArm a fun x => { x with iSq := 0#64, iCyc := 0 }) s

/-- Counts of an arm's Tentering summary (Table 13-4). -/
def tentSummary (a : Nat) (s : Block) : Block :=
  let l := armCells s a
  let pct := (l.filter fun (_, c) => c.tent.cValid).filterMap fun (g, c) =>
    let n := bits (tget 0 s.model.cellTab g) 16 16
    if n = 0 then none else some (min 255 (100 * c.tent.cEst / n))
  modArm a (fun x => { x with
    retUnconf := l.any fun (_, c) => c.tent.retUnconf && c.st = .bypassed,
    due := min 2047 (l.filter fun (_, c) => c.tent.retireDue && !c.tent.retired).length,
    cMinPct := match pct with | [] => 0 | p :: t => t.foldl min p }) s

/-- Values an update, restore or reset left for this cycle start (R474, R492). What reports and retirement changed since
an update was formed stands; a restore or reset begins new sums. -/
def applyTentNext (s : Block) : Block :=
  let s0 := s
  let s := forEach s0.tentNext (fun n s => modCell n.cell (fun c =>
    if c.st = .none then c
    else if n.fresh then { c with tent := { n.val with
      n := 0#64, sq := 0#64, sv := 0#64, sqq := 0#64, sqv := 0#64, sumQual := 0, blk := {}, closing := none } }
    else { c with tent := { c.tent with
      cEst := n.val.cEst, cValid := n.val.cValid, tj := n.val.tj, tjUnk := n.val.tjUnk, thAcc := n.val.thAcc,
      w := n.val.w, ceil := n.val.ceil, afterTakeover := n.val.afterTakeover, retireDue := n.val.retireDue } }) s) s
  forEach (upto 12) tentSummary { s with tentNext := [] }

/-- The record a cell starts with at commit or after a reset (R491). -/
def freshRecord (s : Block) (g : Nat) : TentCell :=
  let e := tget 0 s.model.cellTab g
  { cEst := bits e 16 16, ceil := bits e 32 16 }

/-! ### The 24-byte record (Table 13-1) -/

def thSeconds (t : TentCell) : Nat := min (2 ^ 32 - 1) (fvFloor (v64 t.thAcc)).toNat

def recordBytes (t : TentCell) : List W8 :=
  leBytes 2 t.cEst ++ leBytes 2 t.w ++ leBytes 2 t.ceil ++ leBytes 2 t.vonRefU ++ leBytes 2 t.vonRefL ++
  leBytes 2 (maskOf (([(t.cValid, 0), (t.baseU, 1), (t.baseL, 2), (t.retireDue, 3), (t.retired, 4), (t.tjUnk, 5),
    (t.retUnconf, 6)].filter (·.1)).map (·.2))) ++
  leBytes 4 (thSeconds t) ++ leBytes 2 (wrapN 16 t.tj) ++ leBytes 2 (wrapN 16 t.tjBase) ++
  leBytes 4 (min (2 ^ 32 - 1) (t.cQual / msU))

def recordOf (l : List W8) : TentCell :=
  let f := leAt l 10 2
  { cEst := leAt l 0 2, w := leAt l 2 2, ceil := leAt l 4 2, vonRefU := leAt l 6 2, vonRefL := leAt l 8 2,
    cValid := bitAt f 0, baseU := bitAt f 1, baseL := bitAt f 2, retireDue := bitAt f 3, retired := bitAt f 4,
    tjUnk := bitAt f 5, retUnconf := bitAt f 6, thAcc := r64 (fvOfInt (leAt l 12 4) 0),
    tj := sext 16 (leAt l 16 2), tjBase := sext 16 (leAt l 18 2), cQual := leAt l 20 4 * msU }

/-! ### The silicon plan (R494 to R499) -/

/-- Volts in microvolts. -/
def uvOf (x : F32) : Nat := (qround (qmul (q32 x) (qi 1000000))).toNat

/-- Worst slack and its monitor, the lowest-numbered of equals. -/
def worstSlack (s : Block) : Int × Nat :=
  match s.si.slacks with
  | [] => (0, 0)
  | (k, v) :: t => t.foldl (fun (r : Int × Nat) (k, v) => if v < r.1 then (v, k) else r) (v, k)

def worstMargin (s : Block) : Nat × Nat :=
  match s.si.margins with
  | [] => (15, 0)
  | (k, v) :: t => t.foldl (fun (r : Nat × Nat) (k, v) => if v < r.1 then (v, k) else r) (v, k)

def slackNeed (s : Block) : Q :=
  qadd (q32 (parW s 0x9100)) (qmul (q32 (parW s 0x9101)) (qsub (qi 150) (qf s.si.tj 16)))

/-- v_max and v_fb in uV; in VID mode at most 0.84375 V (R718). -/
def siVmax (s : Block) : Nat :=
  let v := uvOf (parW s 0x9103)
  if parN s 0xF006 = 0 then min v 843750 else v
def siVfb (s : Block) : Nat :=
  let v := uvOf (parW s 0x9102)
  if parN s 0xF006 = 0 then min v (siVmax s) else v
def siFwd (s : Block) : Bool := parB s 0x9104

/-- Equivalent setpoint of R495, uV. -/
def veq (s : Block) : Int := s.si.vddSet + (if s.si.bias = 1 then 30000 else 0)
def veqMax (s : Block) : Int := siVmax s + (if siFwd s then 30000 else 0)
def vfresh : Int := 1000 * (Config.vfreshEq : Int)

/-- RESERVE, the projection and their flags after a plan (R497, R498). -/
def planReserve (s : Block) : Block :=
  let sramLow := s.si.sramAssist && decide ((worstMargin s).1 < parN s 0x9105)
  let span := veqMax s - vfresh
  let r : Nat := if sramLow ∨ span ≤ 0 then 0 else (clampI 0 100 (100 * (veqMax s - veq s) / span)).toNat
  let low := decide (r ≤ 20)
  let armed := s.si.reserveArmed || decide (25 < r)
  let sh := veq s - vfresh
  let proj := decide (5000 ≤ sh)
  let eq := s.si.hist.foldl (fun x (_, e, _) => dadd x e) 0#64
  let re := s.si.hist.foldl (fun x (_, _, r) => dadd x r) 0#64
  let ratio := qdiv (qi span) (qi sh)
  let r5 := qmul (qmul (qmul ratio ratio) (qmul ratio ratio)) ratio
  let left := qdiv (qmul (qmul (q64 s.si.tEq) (qsub r5 (qi 1))) (q64 re)) (q64 eq)
  let s := { s with si := { s.si with
    reserve := r, resLow := low, reserveArmed := armed && !low, projValid := proj,
    lifeRem := if proj then clampUI 32 (qfloor left) else 0xFFFFFFFF, plans := satInc 16 s.si.plans } }
  raiseIf (low && armed) evSiReserveLow s

/-- The plan ends: SLACK_LOW and what follows from the setpoint (R495, R496). -/
def planEnd (s : Block) : Block :=
  let (w, m) := worstSlack s
  let (g, gm) := worstMargin s
  let low := qlt (qi w) (slackNeed s)
  let s := { s with si := { s.si with
    planning := false, lowering := false, raised := false, slackLow := low,
    slackMin := w, slackMon := m, sramMargin := g, sramMon := gm,
    sramAssist := s.si.sramAssist || decide (g < parN s 0x9105) } }
  planReserve (raiseIf low evSiSlackLow s)

/-- One raising step: FORWARD at or above v_fb, else 5 mV. -/
def planRaise (s : Block) : Block :=
  let fwd := decide (siVfb s ≤ s.si.vddSet) && s.si.bias = 0 && siFwd s
  { s with si := { s.si with
      bias := if fwd then 1 else s.si.bias,
      vddSet := if fwd then s.si.vddSet else min (s.si.vddSet + 5000) (siVmax s),
      steps := s.si.steps ++ [fwd], raised := true, planning := true, stepAt := s.now + msU } }

/-- The loop of R495 with the slack as measured. -/
def planLoop (s : Block) : Block :=
  let (w, _) := worstSlack s
  let short := qlt (qi w) (slackNeed s)
  let top := s.si.vddSet = siVmax s && (s.si.bias = 1 || !siFwd s)
  if short && !top then planRaise s
  else if !s.si.raised && s.si.tenMin && qle (qadd (slackNeed s) (qi 10)) (qi w) then
    match s.si.steps.getLast? with
    | some fwd =>
      { s with si := { s.si with
          bias := if fwd then 0 else s.si.bias, vddSet := if fwd then s.si.vddSet else s.si.vddSet - 5000,
          lowering := true, planning := true, stepAt := s.now + msU } }
    | none => planEnd s
  else planEnd s

def siPlanStart (tenMin : Bool) (tj : Int) (s : Block) : Block :=
  planLoop { s with si := { s.si with tenMin := tenMin, tj := tj, raised := false, lowering := false } }

/-- T_EQ counts the hours since the last count at a die temperature (R498). -/
def countStress (tj : Int) (s : Block) : Block :=
  let h := r64 (fvRatio ((s.now - s.si.tEqAt : Nat) : Int) (3600 * sU))
  let e := dmul h (pow2D (f64OfQ (qf (tj - 1680) 160)))
  { s with si := { s.si with
      tEq := dadd s.si.tEq e, tEqAt := s.now,
      hist := (s.si.hist.filter fun (t, _) => decide (s.now < t + 2592000 * sU)) ++ [(s.now, e, h)] } }

/-- The device is in RUN or HOLD. -/
def powered (s : Block) : Bool := s.pwr.state = .run || s.pwr.state = .hold

/-- The setpoint reaches VDD_CORE: the VID code follows at once, a PMBus write stands unless VR_RETRY says that it was
not acknowledged (R718, R719). -/
def driveVdd (v : Nat) (s : Block) : Block :=
  if s.pwr.vdd = v then s
  else { s with pwr := { s.pwr with
    vdd := v, vrPrev := s.pwr.vrAcked, vrAcked := v, vrTries := 0,
    vrWait := if parN s 0xF006 = 1 then some v else none } }

def vddFollow (s : Block) : Block := if powered s then driveVdd s.si.vddSet s else s

/-- SI_PLAN (R495): the 10-minute plan in RUN or HOLD, deferred under MP_OVERLOAD (R667) and from throttle level 2
(Table 19-10). -/
def siPlanStep (tj : Int) (s : Block) : Block :=
  if powered s ∧ !s.si.planning ∧ !s.host.mpOverload ∧ s.pwr.throttle < 2 then
    vddFollow (siPlanStart true tj (countStress tj s))
  else s

/-- SI_MONITOR (R494, R495): reports of path and SRAM monitors; a slack below half the target plans at once. -/
def siMonitorStep (paths : List (Nat × Int)) (srams : List (Nat × Nat)) (tj : Int) (s : Block) : Block :=
  let s := { s with si := { s.si with
    slacks := (paths.filter fun (k, _) => decide (k < 64)).foldl (fun t (k, v) => tput k v t) s.si.slacks,
    margins := (srams.filter fun (k, _) => decide (k < 16)).foldl (fun t (k, v) => tput k (v % 16) t) s.si.margins } }
  let half := qmul (q32 (parW s 0x9100)) (qf 1 2)
  if powered s ∧ !s.si.planning ∧ paths.any (fun (_, v) => qlt (qi v) half) then
    vddFollow (siPlanStart false tj s)
  else s

/-- PLAN_STEP (R495): 1 ms after a step the slack is measured again. -/
def planStepStep (paths : List (Nat × Int)) (s : Block) : Block :=
  if !s.si.planning then s
  else
    let s := atTime s.si.stepAt s
    let s := { s with si := { s.si with
      slacks := (paths.filter fun (k, _) => decide (k < 64)).foldl (fun t (k, v) => tput k v t) s.si.slacks } }
    vddFollow (if s.si.lowering then
      if qlt (qi (worstSlack s).1) (slackNeed s) then
        match s.si.steps.getLast? with
        | some fwd => planEnd { s with si := { s.si with
            bias := if fwd then 1 else s.si.bias, vddSet := if fwd then s.si.vddSet else s.si.vddSet + 5000 } }
        | none => planEnd s
      else planEnd { s with si := { s.si with steps := s.si.steps.dropLast } }
    else planLoop s)

/-- SI_HISTORY_WRITE (R499): both flash copies, the mirror first. -/
def siHistoryWriteStep (s : Block) : Block :=
  { s with si := { s.si with
      mirrorTEq := s.si.tEq, mirrorVdd := s.si.vddSet, mirrorBias := s.si.bias, mirrorSteps := s.si.steps,
      mirrorHist := s.si.hist,
      flashTEq := s.si.tEq, flashVdd := s.si.vddSet, flashBias := s.si.bias, flashSteps := s.si.steps,
      flashHist := s.si.hist } }

end Sys2Proof.Machine
end

