-- ==== Sys2Proof/Machine/Report.lean ====
section
/-!
DEFINITION. Report frames (R141 to R153, R168 to R172), the report deadline (R59 to R61), and what reports do to cells.
-/

namespace Sys2Proof.Machine

/-! ### Fields of a report frame -/

/-- Number of slots that a report frame carries (Table 4-4). -/
def repSlots (l : List W8) : Nat := bits (leAt l 0 8) 12 6 + 1
def repSvc (l : List W8) : Bool := bitAt (leAt l 0 8) 10
def repAux (l : List W8) : Nat := bits (leAt l 0 8) 18 3

/-- The header is a report header and the length is that of R141. -/
def repForm (l : List W8) : Bool :=
  leAt l 0 1 = 0xFD && decide (bits (leAt l 0 8) 8 2 < 2) && decide (bits (leAt l 0 8) 12 6 < 48) &&
    l.length = 12 + 8 * repSlots l + 16 * b2n (repSvc l)

/-- The trailer passes (R143). -/
def repTrailer (l : List W8) : Bool := crc32c (l.take (l.length - 4)) = leAt l (l.length - 4) 4

/-- Slot j of a report frame. -/
def repSlot (l : List W8) (j : Nat) : List W8 := (l.drop (8 + 8 * j)).take 8

/-- A report slot is accepted: its CRC-16 of seed j passes and its TYPE matches the string (R168). -/
def slotOk (fb : Bool) (j : Nat) (sl : List W8) : Bool :=
  crc16 j (sl.take 6) = leAt sl 6 2 && bits (leAt sl 0 2) 0 2 = (if fb then 2 else 1)

/-! ### Report errors (R61) -/

/-- The cell is expected at the cycle's t0 (R61). -/
def expected (c : CellSt) : Bool := inService c

/-- A port of the arm whose reports need more than a cycle to arrive: its slots belong to the cycle before (R57). -/
def repLate (s : Block) (a : Nat) : Bool :=
  (servedPorts s a).any fun p => decide (tcU s < 320 + (port s p).dFar + (120 + 80 * (port s p).seg.length) + 160)

/-- A report CRC error of a cell: counted once a cycle, only in the states of R781, and not in the quiet cycle (R603). -/
def reportError (g : Nat) (s : Block) : Block :=
  let c := cell s g
  if expected c && !c.missed && !c.seen && !s.tw.quiet then
    modCell g (fun c => { c with missed := true, crcRun := if r781 s then satInc 8 c.crcRun else 0 }) s
  else s

/-- REP_DONE of an arm: the ranking starts, and a switching arm without a valid current blocks (R62, R416). -/
def repDone (a : Nat) (s : Block) : Block :=
  let s := raise (evRepDone a) (modArm a (fun x => { x with repDone := true, repDoneAt := s.now }) s)
  if switching s a && !(armCurrent s a).2 then blockArm a 7 s else s

/-- REP_DONE of a cycle whose deadline lies beyond the next t0: its ranking is owed (R61, R62). -/
def repDoneLate (a : Nat) (s : Block) : Block :=
  let x := arm s a
  let s := modArm a (fun x => { x with lateDl := x.lateDl.drop 1 }) (repDone a s)
  modArm a (fun y => { y with repDone := x.repDone, rankOwed := true }) s

/-- The report deadlines that pass the t0 of this cycle start keep the cells they still wait for (R61). -/
def lateDeadlines (t0 : Nat) (s : Block) : Block :=
  forEach (enabledArms s) (fun a s =>
    let x := arm s a
    if x.repDone || s.tw.quiet || decide (t0 + deadlineU s a ≤ s.cyc.t0) then s
    else
      let l := (armCells s a).filter fun (_, c) => expected c && (repLate s a || !(c.seen || c.missed))
      modArm a (fun x => { x with lateDl := x.lateDl ++ [(t0 + deadlineU s a, l.map (·.1))] }) s) s

/-- A slot of the cell has arrived for the oldest cycle that waits for it. -/
def lateArrived (g : Nat) (s : Block) : Block :=
  let a := cellArm s g
  if (arm s a).lateDl.length ≠ 0 && repLate s a then
    modArm a (fun x => { x with lateDl := match x.lateDl with
      | (t, l) :: rest => (t, l.filter (· ≠ g)) :: rest
      | [] => [] }) s
  else s

/-- REP_DONE when the last expected slot of the arm has arrived (R62). -/
def repDoneCheck (a : Nat) (s : Block) : Block :=
  let s := match (arm s a).lateDl with
    | (_, []) :: _ => repDoneLate a s
    | _ => s
  let l := (armCells s a).filter fun (_, c) => expected c
  if armEnabled s a && !repLate s a && !(arm s a).repDone && !s.tw.quiet && l.length ≠ 0 && l.all (fun (_, c) => c.seen || c.missed) then repDone a s
  else s

/-! ### An accepted slot -/

/-- BLOCKED counts as a fault flag in two reports sampled after the first released window began (R150). -/
def blockedRun (s : Block) (g : Nat) (c : CellSt) (blocked : Bool) : Nat :=
  match c.relS with
  | some t =>
    if blocked && inService c && switching s (cellArm s g) && decide (t < s.cyc.t0) then satInc 8 c.blkRun else 0
  | none => 0

/-- What the status and voltage of an accepted slot do (R29, R30, R72, R150, R168, R182, R186). -/
def slotAccept (g w v : Nat) (s : Block) : Block :=
  let c := cell s g
  let run := blockedRun s g c (bitAt w 3)
  let s := modCell g (fun c => { c with
    flags := w % 2 ^ 15, vcap := some v, seen := true, present := true, absent := 0,
    crcRun := if c.missed then c.crcRun else 0, blkRun := run,
    ranked := c.ranked || c.calA.done || c.calB.done }) s
  let s := if bitAt w 10 then modArm (cellArm s g) (fun x => { x with lateNow := satInc 8 x.lateNow }) s else s
  let s := if bitAt w 5 || bitAt w 6 || bitAt w 9 || decide (2 ≤ run) then faultCell g 2 s else s
  if bitAt w 4 then
    let s := modCell g (fun c => { c with bypReq := none, bypRet := false }) s
    if c.st = .faulted && c.bypReq.isSome then addChange (.bypassed g) s else s
  else s

/-- The auxiliary word of an accepted slot in a frame whose trailer passes (R151, R168). -/
def slotAux (g idx w : Nat) (x : W16) (v : Nat) (s : Block) : Block :=
  let k := if bitAt w 12 then 7 else idx
  let s := modCell g (fun c => { c with aux := tput k x c.aux }) s
  tentReport g k x v s

/-- One slot of a report. -/
def slotIn (p : Nat) (fb good : Bool) (idx : Nat) (sl : List W8) (j g : Nat) (s : Block) : Block :=
  if (cell s g).st = .none then s
  else if slotOk fb j sl then
    let w := leAt sl 0 2
    let v := leAt sl 2 2
    let s := lateArrived g (slotAccept g w v s)
    if good then slotAux g idx w (BitVec.ofNat 16 (leAt sl 4 2)) v s else s
  else
    let s := modPort p (fun x => { x with slotCrcErr := satInc 16 x.slotCrcErr }) s
    let s := if sl.any (fun b => b ≠ 0#8) then modCell g (fun c => { c with present := true, absent := 0 }) s else s
    -- the errors of a cell are recorded in every state (R29)
    lateArrived g (reportError g (modCell g (fun c => { c with repErr := satInc 16 c.repErr }) s))

/-! ### Service replies (R172, R94, R104) -/

def svcDrop (p : Nat) (r : SvcReq) (s : Block) : Block :=
  modPort p (fun x => { x with svc := x.svc.erase r }) s

/-- The reply of a cell to a request of the controller or of a mailbox. -/
def svcReply (p : Nat) (r : SvcReq) (status : Nat) (data : W32) (s : Block) : Block :=
  let s := svcDrop p r s
  if r.mbx < 8 then
    mbxDone r.mbx (if status = 0 then 0 else 0x17) status r.cell (if status = 0 then leBytes 4 data.toNat else []) s
  else if r.mbx = 9 then
    -- the partner's request on a relayed segment (R616)
    { s with tw := { s.tw with svcBack := s.tw.svcBack ++ [(r.cell, status, data)] } }
  else if r.wr then
    -- a first offset calls for the time mark of step 4 of R94
    let first := status = 0 && !(calOf s p (cell s r.cell)).marked
    let s := modPort p (fun x => { x with markDue := x.markDue || first }) s
    modCal p r.cell (fun k =>
      { k with dly := if status = 0 then k.dlyWait else k.dly, dlyWait := none, confirmed := s.now }) s
  else if status ≠ 0 then s
  else if r.addr = 0 then
    let s := modCal p r.cell (fun k => { k with ident := some data }) s
    if identOk s r.cell data then s else markBad p r.cell s
  else modCal p r.cell (fun k => { k with consts := some data }) s

/-- A request without a reply is issued again; a host request gives up after 8 times (R172, R641). -/
def svcAgain (p : Nat) (r : SvcReq) (s : Block) : Block :=
  if r.mbx < 8 ∧ 8 ≤ r.tries then mbxDone r.mbx 0x18 0 r.cell [] (svcDrop p r s)
  else modPort p (fun x => { x with svc := x.svc.map fun q =>
    if q = r then { q with sent := false, tries := q.tries + 1 } else q }) s

/-- Delay from port q to the end of the segment that port p serves: for the other port of a healthy ring that is the
first cell it faces. -/
def endDelay (s : Block) (p q : Nat) : Nat :=
  if p = q then (port s p).dFar else estUnits s (calOf s q (cell s (cellAtHop s q 0)))

/-- The requests of port q whose report has come on port p: their frame reached the segment end before this cycle's t0. -/
def svcDue (s : Block) (p q : Nat) : List SvcReq :=
  (port s q).svc.filter fun r => r.sent && decide (r.endT + endDelay s p q < s.cyc.t0)

/-- The ports whose requests a report on port p answers: p, and the monitoring port of a healthy self-ring (R172). -/
def svcPorts (s : Block) (p : Nat) : List Nat :=
  match ringMate s p with
  | some q => if (port s q).st = .monitor then [p, q] else [p]
  | none => [p]

/-- Every due request of these ports but the one answered is issued again (R172). -/
def svcReissue (p : Nat) (but : Option SvcReq) (s : Block) : Block :=
  forEach (svcPorts s p) (fun q s =>
    forEach ((svcDue s p q).filter fun r => some r ≠ but) (svcAgain q) s) s

/-- The service slot of a report frame (R170 to R172): none, an unchanged request, or a reply. -/
def repService (p : Nat) (l : List W8) (s : Block) : Block :=
  let sl := (l.drop (8 + 8 * repSlots l)).take 16
  let w := leAt sl 0 4
  let ok := repSvc l && crc16 0x3F (sl.take 14) = leAt sl 14 2
  if ok && bits w 0 2 = 2 then
    let sideB := bitAt w 2
    let q : Option Nat := if sideB = portSideB s p then some p else ringMate s p
    match q with
    | some q =>
      match (port s q).svc.find? fun r => r.sent && r.tag = bits w 10 6 with
      | some r => svcReply q r (bits w 24 8) (BitVec.ofNat 32 (leAt sl 4 4)) (svcReissue p (some r) s)
      | none => svcReissue p none s
    | none =>
      -- a twin-ring's B-side reply goes to the partner over the twin link
      svcReissue p none { s with tw := { s.tw with replyOut := s.tw.replyOut ++ [(p, sl)] } }
  else svcReissue p none s

/-! ### A whole report -/

/-- The end of a segment as its report shows it: a split ring's segment follows it (R114); a chain that ends below
its count is counted (R118). -/
def repEnd (p n : Nat) (s : Block) : Block :=
  let x := port s p
  if x.reported then s
  else if asChain s p then
    let short := decide (n < strCells s p)
    modPort p (fun x => { x with
      reported := true, endShort := if short then satInc 8 x.endShort else 0, endHop := n - 1 }) s
  else
    let s := modPort p (fun x => { x with reported := true }) s
    if x.brk && (x.st = .serve) then setSeg p ((upto (min n (strCells s p))).map (cellAtHop s p)) s else s

/-- A report frame of a segment whose hop positions count as `cellAt` gives. Where the header or the trailer fails, the
slots at their places are still looked at one by one (R168). -/
def reportCore (p : Nat) (cellAt : Nat → Nat) (l : List W8) (s : Block) : Block :=
  if leAt l 0 1 ≠ 0xFD then modPort p (fun x => { x with frameCrcErr := satInc 16 x.frameCrcErr }) s
  else
    let good := repForm l && repTrailer l
    let s := if good then s else modPort p (fun x => { x with frameCrcErr := satInc 16 x.frameCrcErr }) s
    let fb := strFB s p
    let n := min (if repForm l then repSlots l else (l.length - 12) / 8) (strCells s p)
    let s := forEach (upto n) (fun j => slotIn p fb good (repAux l) (repSlot l j) j (cellAt j)) s
    dischargeCheck (repDoneCheck (strArm s p) s)

/-- A report frame received on a port of this unit. -/
def reportIn (p : Nat) (l : List W8) (s : Block) : Block :=
  let st := (port s p).st
  if !(portUsed s p && (st = .discover || st = .serve || st = .monitor)) then s
  else
    let s := if repForm l then repService p l (repEnd p (repSlots l) s) else s
    reportCore p (cellAtHop s p) l s

/-- A report CRC error of a cycle before this one: it counts unless a good slot of the cell has come since. -/
def reportErrorLate (g : Nat) (s : Block) : Block :=
  let c := cell s g
  if expected c && !c.seen && !s.tw.quiet then
    modCell g (fun c => { c with crcRun := if r781 s then satInc 8 c.crcRun else 0 }) s
  else s

/-- REPORT_DEADLINE (R59, R61): every expected slot that has not arrived is a report CRC error; REP_DONE. A deadline
beyond T_c falls in a later cycle than its own (log entry 29). -/
def reportDeadlineStep (a : Nat) (s : Block) : Block :=
  match (arm s a).lateDl with
  | (t, l) :: _ => if armEnabled s a then repDoneLate a (forEach l reportErrorLate (atTime t s)) else s
  | [] =>
  if armEnabled s a && !(arm s a).repDone && !s.tw.quiet && decide (deadlineU s a ≤ tcU s) then
    let s := atTime (s.cyc.t0 + deadlineU s a) s
    repDone a (forEach ((armCells s a).map (·.1)) reportError s)
  else s

/-- REPORT_CRC_ERROR_LIMIT (R61): the last good values have served 3 cycles. -/
def reportCrcErrorLimitStep (g : Nat) (s : Block) : Block :=
  if r781 s && decide (3 ≤ (cell s g).crcRun) then faultCell g 3 s else s

end Sys2Proof.Machine
end

