-- ==== Sys2Proof/Machine/Governor.lean ====
section
/-!
DEFINITION. Governor loops (chapter 7): banks, the evaluation of a call, bank swaps and test-signal injection.
-/

namespace Sys2Proof.Machine

def loopOf (s : Block) (l : Nat) : LoopSt := tget {} s.gov.loops l
def modLoop (l : Nat) (f : LoopSt → LoopSt) (s : Block) : Block :=
  { s with gov := { s.gov with loops := tmod {} s.gov.loops l f } }
def engineOf (s : Block) (e : Nat) : EngineSt := tget {} s.gov.eng e
def modEngine (e : Nat) (f : EngineSt → EngineSt) (s : Block) : Block :=
  { s with gov := { s.gov with eng := tmod {} s.gov.eng e f } }

def evGovFault : Nat := 128
def evGovSwap : Nat := 129
def evGovInjDone : Nat := 130
def evGovInjAbort : Nat := 131

def f32Inf : F32 := 0x7F800000#32
def f32NegInf : F32 := 0xFF800000#32

/-- gov.loop[l] structure (R270). -/
def nSec (s : Block) (l : Nat) : Nat := parN s (0x4000 + l)
def intSec (s : Block) (l : Nat) : Nat := parN s (0x4040 + l)

/-! ### Arithmetic of R266: one rounding, subnormals flushed -/

def gfma (p q r : F32) : F32 := flush32 (r32 (fvAdd (fvMul (v32 (flush32 p)) (v32 (flush32 q))) (v32 (flush32 r))))
def gadd (a b : F32) : F32 := flush32 (fadd (flush32 a) (flush32 b))
def gsub (a b : F32) : F32 := flush32 (fsub (flush32 a) (flush32 b))
def gmul (a b : F32) : F32 := flush32 (fmul (flush32 a) (flush32 b))

/-! ### Banks (R270, R271, R273) -/

/-- One section of a bank in force. -/
structure Section where
  b0 : F32
  b1 : F32
  b2 : F32
  a1 : F32
  a2 : F32
  cLo : F32
  cHi : F32
deriving DecidableEq, Repr

def passSection : Section :=
  { b0 := f32One, b1 := 0#32, b2 := 0#32, a1 := 0#32, a2 := 0#32, cLo := f32NegInf, cHi := f32Inf }

def f32At (l : List W8) (off : Nat) : F32 := BitVec.ofNat 32 (leAt l off 4)

def bankSection (l : List W8) (j : Nat) : Section :=
  if l.length = 0 then passSection
  else
    { b0 := f32At l (0x10 + 28 * j), b1 := f32At l (0x14 + 28 * j), b2 := f32At l (0x18 + 28 * j),
      a1 := f32At l (0x1C + 28 * j), a2 := f32At l (0x20 + 28 * j),
      cLo := f32At l (0x24 + 28 * j), cHi := f32At l (0x28 + 28 * j) }

def bankLo (l : List W8) : F32 := if l.length = 0 then f32NegInf else f32At l 4
def bankHi (l : List W8) : F32 := if l.length = 0 then f32Inf else f32At l 8

/-- The stability test of R271 for a section; the integrating section may hold a marginal pole. -/
def stableSection (isInt : Bool) (c : Section) : Bool :=
  let a2 := fabs c.a2
  let lim := qadd (qi 1) (q32 c.a2)
  let a1 := qabs (q32 c.a1)
  if isInt then !flt f32One a2 && qle a1 lim else flt a2 f32One && qlt a1 lim

/-- A bank record passes R271 for a loop of n sections with integrating section i. -/
def bankOk (n i : Nat) (l : List W8) : Bool :=
  l.length = 16 + 28 * n && leAt l 0 1 = n && leAt l 1 3 = 0 && leAt l 0xC 4 = 0 &&
    flt (bankLo l) (bankHi l) &&
    (upto n).all fun j =>
      let c := bankSection l j
      [c.b0, c.b1, c.b2, c.a1, c.a2].all isFinite32 && flt c.cLo c.cHi && stableSection (decide (j = i)) c

/-- The active bank of a loop. -/
def activeBank (x : LoopSt) : List W8 := if x.active then x.bankB else x.bankA

/-- A written record takes its place in a bank (R272). -/
def loadBank (l : Nat) (b : Bool) (r : List W8) (s : Block) : Block :=
  modLoop l (fun x => if b then { x with bankB := r, struckB := false } else { x with bankA := r, struckA := false }) s

/-! ### Swap requests (R274, R275) -/

/-- The bank that the requests so far leave pending; a host request wins its fabric cycle. -/
def pendBank (reqs : List (Nat × Bool × Bool)) (before : Nat) : Option Bool :=
  (reqs.foldl (fun (r : Option (Nat × Bool × Bool)) q =>
    if before ≤ fabric q.1 then r
    else match r with
      | some (t, b, host) => if fabric t = fabric q.1 && host && !q.2.2 then some (t, b, host) else some q
      | none => some q) none).map (·.2.1)

/-- A bank that is active or that a pending request names (R272). -/
def bankBusy (x : LoopSt) (b : Bool) : Bool :=
  x.active == b || pendBank x.reqs (2 ^ 70) == some b || x.swapDue == some b

/-- A request names a bank; one that names the active bank with none pending changes nothing (R274). A host's is kept, as it
wins over a call's of the same fabric cycle whichever comes first (R275). -/
def requestSwap (l : Nat) (b host : Bool) (s : Block) : Block :=
  let x := loopOf s l
  if x.reqs.length = 0 && x.swapDue.isNone && x.active == b && !host then s
  else modLoop l (fun x => { x with reqs := x.reqs ++ [(s.now, b, host)] }) s

/-! ### Evaluation of a call (R263 to R267) -/

/-- The outputs of a call (Table 7-2). -/
structure GovOut where
  y : F32
  sat : Int
  status : Nat
deriving DecidableEq, Repr

def secState (st : List (F32 × F32)) (j : Nat) : F32 × F32 := (st[j]?).getD (0#32, 0#32)

/-- Inputs and outputs of the sections: (in, out) of each, and the cascade's output. -/
def cascade (bank : List W8) (st : List (F32 × F32)) : List Nat → F32 → List (F32 × F32) × F32
  | [], u => ([], u)
  | j :: t, u =>
    let o := gfma (bankSection bank j).b0 u (secState st j).1
    let (l, y) := cascade bank st t o
    ((u, o) :: l, y)

def clampF (lo hi x : F32) : F32 := fmin (fmax x lo) hi

/-- The new states of one section, and whether a clamp changed one (R266, R269). -/
def sectionNext (c : Section) (s2 i o : F32) : (F32 × F32) × Bool :=
  let n2 := gfma c.b2 i (gmul (fneg c.a2) o)
  let n1 := gfma c.b1 i (gfma (fneg c.a1) o s2)
  let m1 := clampF c.cLo c.cHi n1
  let m2 := clampF c.cLo c.cHi n2
  ((m1, m2), m1 ≠ n1 || m2 ≠ n2)

/-- A call evaluated on the loop's states with injection value v at point pt (R266, R267). -/
def govEval (n i : Nat) (neg : Bool) (callLim : Bool) (r : GovReq) (v : F32) (pt : Nat) (x0 : LoopSt) :
    LoopSt × GovOut :=
  let bank := activeBank x0
  let x := if r.reset then { x0 with st := [], xl := 0#32 } else x0
  let useCall := callLim && flt (flush32 r.lo) (flush32 r.hi)
  let lo := flush32 (if useCall then r.lo else bankLo bank)
  let hi := flush32 (if useCall then r.hi else bankHi bank)
  let u0 := if pt = 0 then gadd r.x v else flush32 r.x
  let (io, yc) := cascade bank x.st (upto n) u0
  let xi := ((io[i]?).map (·.1)).getD 0#32
  let yu := gadd yc r.ff
  let yu := if pt = 1 then gadd yu v else yu
  let sat : Int := if flt hi yu then 1 else if flt yu lo then -1 else 0
  let sgx := if neg then fneg xi else xi
  let frz := decide (i < n) && ((sat = 1 && flt 0#32 sgx) || (sat = -1 && flt sgx 0#32))
  let y := clampF lo hi yu
  let y := if pt = 2 then clampF lo hi (gadd y v) else y
  let upd := (upto n).map fun j =>
    if j = i && frz then (secState x.st j, false)
    else
      let (inn, out) := (io[j]?).getD (0#32, 0#32)
      sectionNext (bankSection bank j) (secState x.st j).2 inn out
  let bad := !isFinite32 yu || (!r.hold && upd.any fun (p, _) => !isFinite32 p.1 || !isFinite32 p.2)
  if bad then
    ({ x with st := [], nonfinCnt := satInc 8 x.nonfinCnt, satHi := false, satLo := false },
     { y := x0.yPrev, sat := 0, status := 3 })
  else
    let x := { x with
      yPrev := y, satHi := decide (sat = 1), satLo := decide (sat = -1),
      freezeCnt := if frz then satInc 8 x.freezeCnt else x.freezeCnt }
    if r.hold then (x, { y := y, sat := sat, status := 1 })
    else
      ({ x with
          st := upd.map (·.1), xl := ((io.getLast?).map (·.1)).getD u0,
          clampCnt := if upd.any (·.2) then satInc 8 x.clampCnt else x.clampCnt },
       { y := y, sat := sat, status := 0 })

/-! ### Injection (R278 to R285) -/

def injPar (s : Block) (e k : Nat) : W32 := parW s (0x4400 + 16 * e + k)
def injMode (s : Block) (e : Nat) : Nat := (injPar s e 2).toNat
def injBusy (x : EngineSt) : Bool := x.st = .running || x.st = .settling || x.st = .integrating

/-- Taps of Table 7-6. -/
def prbsTaps : Nat → List Nat
  | 7 => [7, 6] | 8 => [8, 6, 5, 4] | 9 => [9, 5] | 10 => [10, 7] | 11 => [11, 9]
  | 12 => [12, 6, 4, 1] | 13 => [13, 4, 3, 1] | 14 => [14, 5, 3, 1] | _ => [15, 14]

/-- One shift of the Fibonacci register; stage k is bit k - 1 and the output is the last stage (R280). -/
def prbsShift (n r : Nat) : Nat :=
  let fb := ((prbsTaps n).filter fun k => r.testBit (k - 1)).length % 2
  (2 * r) % 2 ^ n + fb

/-- Ends of the settling and of the whole injection after t0_start; none where it runs until ABORT (R279, R282). -/
def injSettle (s : Block) (e : Nat) : Q := qdiv (qf (sU * (injPar s e 9).toNat) 1) (q32 (injPar s e 4))
def injEnd (s : Block) (e : Nat) : Option Q :=
  if injMode s e = 3 then
    some (qdiv (qf (sU * ((injPar s e 9).toNat + (injPar s e 10).toNat)) 1) (q32 (injPar s e 4)))
  else
    let d := qmul (q32 (injPar s e 6)) (qi msU)
    if d.num = 0 then none else some d

/-- START accepted: the mode's frequencies are at most 0.25 / T_c, and a CHIRP has a duration (R278, R281). -/
def injStartOk (s : Block) (e : Nat) : Bool :=
  let lim := qf 1000000000 (tcU s)
  let m := injMode s e
  let f0 := q32 (injPar s e 4)
  let f1 := q32 (injPar s e 5)
  (m < 2 || qle f0 lim) && (m ≠ 2 || (qle f1 lim && !feq (injPar s e 6) f32Zero)) && !injBusy (engineOf s e)

/-- INJ_START (R278): the START waits for the next cycle start. -/
def injStartStep (e : Nat) (s : Block) : Block :=
  if e < 8 ∧ injStartOk s e then modEngine e (fun x => { x with startAt := some s.now }) s else s

/-- The instant at which the injection in progress runs to its end (R279, R282). -/
def injEndAt (s : Block) (e : Nat) : Option Nat := (injEnd s e).map fun d => (engineOf s e).t0Start + (qceil d).toNat

/-- ABORT finds nothing to stop: the injection has completed, or completes in this fabric cycle (R284). -/
def injAbortLate (s : Block) (e : Nat) : Bool :=
  (engineOf s e).st = .done || (injBusy (engineOf s e) &&
    (match injEndAt s e with | some t => decide (fabric t ≤ fabric s.now) | none => false))

/-- INJ_ABORT (R284): the ABORT waits for the next cycle start. -/
def injAbortStep (e : Nat) (s : Block) : Block :=
  if e < 8 ∧ !injAbortLate s e ∧ (injBusy (engineOf s e) ∨ (engineOf s e).startAt.isSome) then
    modEngine e (fun x => { x with abortAt := some s.now }) s
  else s

/-- f0 τ + (f1 - f0) τ² / (2 D) in turns, D in ms (Table 7-5). -/
def chirpTurn (f0 f1 d : F32) (tau : Nat) : Q :=
  let t := qf tau sU
  qadd (qmul (q32 f0) t) (qdiv (qmul (qsub (q32 f1) (q32 f0)) (qmul t t)) (qdiv (qmul (qi 2) (q32 d)) (qi 1000)))

/-- The value injected at a call of a loop, if its engine injects into it, with τ from the t0 of the call's cycle
(R279). -/
def injValue (s : Block) (e l t0 : Nat) : Option F32 :=
  let x := engineOf s e
  if injBusy x && x.loop = l && decide (x.t0Start ≤ t0) then
    let tau := t0 - x.t0Start
    let f0 := injPar s e 4
    let excess := match injEnd s e with | some d => !qlt (qi tau) d | none => false
    if excess then none
    else
      let a := injPar s e 3
      some (match injMode s e with
        | 0 => a
        | 1 => if (if t0 < s.cyc.t0 then x.prbsOld else x.prbs).testBit ((injPar s e 7).toNat - 1) then a else fneg a
        | 2 => sineOf a (chirpTurn f0 (injPar s e 5) (injPar s e 6) tau)
        | _ => sineOf a (qmul (q32 f0) (qf tau sU)))
  else none

/-- A call takes part in the correlation (R282, R283). -/
def correlate (s : Block) (e t0 : Nat) (v r : F32) (sat : Bool) (x : EngineSt) : EngineSt :=
  let tau := t0 - x.t0Start
  if injMode s e = 3 && !qlt (qi tau) (injSettle s e) then
    let th := qmul (q32 (injPar s e 4)) (qf tau sU)
    let sn := sinD th
    let cs := cosD th
    { x with
      iu := dadd x.iu (dmul (f2d v) sn), qu := dadd x.qu (dmul (f2d v) cs),
      ir := dadd x.ir (dmul (f2d r) sn), qr := dadd x.qr (dmul (f2d r) cs),
      nSamples := satInc 24 x.nSamples, satSeen := x.satSeen || sat }
  else x

def hypotD (a b : F64) : F64 := r64 (fvSqrt (v64 (dadd (dmul a a) (dmul b b))))

/-- An ABORT of an earlier fabric cycle than an instant waits for the next cycle start (R284). -/
def abortBefore (x : EngineSt) (t : Nat) : Bool :=
  match x.abortAt with | some a => decide (fabric a < fabric t) | none => false

/-- GOV_INJ_DONE (R279, R282): the injection has run to its end, unless an ABORT came before (R284). -/
def govInjDoneStep (e : Nat) (s : Block) : Block :=
  let x := engineOf s e
  match injEndAt s e with
  | some t =>
    if injBusy x && !abortBefore x t then
      let s := atTime t s
      let sine := injMode s e = 3
      raise evGovInjDone (modEngine e (fun x => { x with
        st := .done, doneAt := s.now, abortAt := none, resultValid := if sine then true else x.resultValid,
        gain := if sine then d2f (ddiv (hypotD x.ir x.qr) (hypotD x.iu x.qu)) else x.gain,
        phase := if sine then injPhase x.ir x.qr x.iu x.qu else x.phase }) s)
    else s
  | none => s

/-- The cycle start t0 for one engine: ABORT, START, the PRBS register and the end of settling (R278 to R284). -/
def injCycle (e : Nat) (s : Block) : Block :=
  let t := s.cyc.t0
  let x := engineOf s e
  let due := fun (o : Option Nat) => match o with | some a => decide (fabric a < fabric t) | none => false
  let s :=
    if due x.abortAt then
      let act := injBusy x || due x.startAt
      raiseIf act evGovInjAbort (modEngine e (fun x => { x with
        abortAt := none, startAt := none, st := if act then .aborted else x.st }) s)
    else if due x.startAt then
      modEngine e (fun x => { x with
        startAt := none, loop := 8 * e + (injPar s e 0).toNat, t0Start := t, cycles := 0,
        prbs := 2 ^ (injPar s e 7).toNat - 1, prbsOld := 2 ^ (injPar s e 7).toNat - 1, iu := 0#64, qu := 0#64, ir := 0#64, qr := 0#64,
        nSamples := 0, satSeen := false, resultValid := x.resultValid && injMode s e ≠ 3,
        st := if injMode s e = 3 then .settling else .running }) s
    else if injBusy x then
      modEngine e (fun x =>
        let k := x.cycles + 1
        { x with
          cycles := k, prbsOld := x.prbs,
          prbs := if k % max 1 (injPar s e 8).toNat = 0 then prbsShift (injPar s e 7).toNat x.prbs else x.prbs }) s
    else s
  let y := engineOf s e
  if y.st = .settling && !qlt (qi (t - y.t0Start)) (injSettle s e) then
    modEngine e (fun x => { x with st := .integrating }) s
  else s

/-! ### The call (R258 to R265) -/

/-- A call takes its place among those that wait: behind every earlier one, and in the order of the cores among those that
arrive in its fabric cycle (R258). -/
def govInsert (r : GovReq) : List GovReq → List GovReq
  | [] => [r]
  | q :: t => if fabric q.at_ = fabric r.at_ ∧ r.core < q.core then r :: q :: t else q :: govInsert r t

/-- A call enters an engine's queue, or its core stalls while the queue is full (R258). -/
def govEnqueue (r : GovReq) (s : Block) : Block :=
  modEngine (r.loop / 8) (fun x =>
    let all := govInsert r (x.queue ++ x.stalled)
    { x with queue := all.take 8, stalled := all.drop 8, queueMax := max x.queueMax (min 8 all.length) }) s

/-- The head of an engine's queue leaves it; the place goes to the first stalled call. -/
def govPop (x : EngineSt) : EngineSt :=
  match x.stalled with
  | [] => { x with queue := x.queue.drop 1 }
  | r :: t => { x with queue := x.queue.drop 1 ++ [r], stalled := t }

/-- An uncorrectable error strikes the active bank (1) or the states (2) of the loop (R261). -/
def strike (l err : Nat) (s : Block) : Block :=
  if err = 0 then s
  else
    let was := (loopOf s l).fault
    let s := modLoop l (fun x => { x with
      needReset := true, fault := true,
      struckA := x.struckA || (err = 1 && !x.active), struckB := x.struckB || (err = 1 && x.active) }) s
    raiseIf (!was) evGovFault s

/-- The loop returns FAULT (R261). -/
def loopFaulted (x : LoopSt) : Bool := x.needReset || (if x.active then x.struckB else x.struckA)

/-- A RESET of the call or of the host clears the states that an error struck (R261). -/
def resetStates (l : Nat) (s : Block) : Block :=
  modLoop l (fun x => { x with needReset := false, st := [], xl := 0#32 }) s

/-- The result of one call and the machine after its evaluation (R261 to R267, R279 to R283). -/
def govEvalCall (r : GovReq) (err : Nat) (s : Block) : GovOut × Block :=
  let l := r.loop
  let e := l / 8
  let s := modLoop l (fun x => { x with
    calls := min 2 (x.calls + 1), multiCnt := if x.calls = 1 then satInc 8 x.multiCnt else x.multiCnt }) s
  let s := if r.swap = 0 then requestSwap l false false s
    else if r.swap = 1 then requestSwap l true false s else s
  let s := strike l err s
  let s := if r.reset && (loopOf s l).needReset && err = 0 then resetStates l s else s
  if loopFaulted (loopOf s l) || err ≠ 0 then
    let was := (loopOf s l).fault
    let s := raiseIf (!was) evGovFault (modLoop l (fun x => { x with fault := true, satHi := false, satLo := false }) s)
    ({ y := (loopOf s l).yPrev, sat := 0, status := 4 }, s)
  else if isNaN32 r.x || isNaN32 r.ff then
    ({ y := (loopOf s l).yPrev, sat := 0, status := 2 }, modLoop l (fun x => { x with satHi := false, satLo := false }) s)
  else
    let iv := injValue s e l r.t0
    let v := iv.getD f32Zero
    let pt := (injPar s e 1).toNat
    let (x, o) := govEval (nSec s l) (intSec s l) (parB s (0x4080 + l)) (parB s (0x4100 + l)) r v pt (loopOf s l)
    let s := modLoop l (fun _ => x) s
    let s := raiseIf (o.status = 3) evGovFault s
    match iv with
    | some v =>
      let resp := match (injPar s e 11).toNat with | 0 => r.x | 1 => o.y | _ => r.resp
      (o, modEngine e (fun y => correlate s e r.t0 v resp (decide (o.sat ≠ 0)) { y with v := v, r := resp }) s)
    | none => (o, s)

/-! ### Bank swaps at a cycle start (R276) -/

/-- Step 3: the clamps of the new bank on every section. -/
def clampStates (bank : List W8) (n : Nat) (st : List (F32 × F32)) : List (F32 × F32) :=
  (upto n).map fun j =>
    let c := bankSection bank j
    (clampF c.cLo c.cHi (secState st j).1, clampF c.cLo c.cHi (secState st j).2)

/-- The three steps of R276. -/
def swapBank (n : Nat) (bumpless : Bool) (x : LoopSt) : LoopSt :=
  let old := activeBank x
  let y := { x with active := !x.active }
  let new := activeBank y
  let k := n - 1
  let st := (upto n).map (secState x.st)
  let st := if bumpless then
      let d := gsub (bankSection old k).b0 (bankSection new k).b0
      lset st k (gadd (secState st k).1 (gmul d x.xl), (secState st k).2)
    else st
  { y with st := clampStates new n st }

/-- A bank becomes active by the three steps; GOV_SWAP. -/
def swapTo (l : Nat) (b : Bool) (s : Block) : Block :=
  if b == (loopOf s l).active then s
  else raise evGovSwap (modLoop l (swapBank (nSec s l) (parB s (0x40C0 + l))) s)

/-- The loop is being evaluated at a cycle start: its call came before it and heads its engine's queue. -/
def evaluating (s : Block) (l : Nat) : Bool :=
  match (engineOf s (l / 8)).queue with
  | r :: _ => r.loop = l && decide (fabric r.at_ < fabric s.cyc.t0)
  | [] => false

/-- A record for the bank waits for its image: no swap to it takes effect before the image has carried it (R287). -/
def bankWaits (s : Block) (l : Nat) (b : Bool) : Bool :=
  (s.tw.varNew ++ s.tw.varQ.map (·.2)).any fun i => match i with | .bank k c _ _ => k = l && c == b | _ => false

/-- The pending swap of one loop at the cycle start, and the calls of the cycle begin anew. A swap of a loop that is being
evaluated waits for the end of that evaluation (R276). -/
def govCycle (l : Nat) (s : Block) : Block :=
  let x := loopOf s l
  let f := fabric s.cyc.t0
  let s := modLoop l (fun x => { x with calls := 0 }) s
  match pendBank x.reqs f with
  | some b =>
    if bankWaits s l b then s
    else
      let s := modLoop l (fun x => { x with reqs := x.reqs.filter fun q => decide (f ≤ fabric q.1) }) s
      if evaluating s l then modLoop l (fun x => { x with swapDue := some b }) s else swapTo l b s
  | none => s

/-- The swap that waited for the end of this evaluation. -/
def swapLate (l : Nat) (s : Block) : Block :=
  match (loopOf s l).swapDue with
  | some b => swapTo l b (modLoop l (fun x => { x with swapDue := none }) s)
  | none => s

/-- One call: its result, and the machine once its evaluation has ended. -/
def govRun (r : GovReq) (err : Nat) (s : Block) : GovOut × Block :=
  let (o, t) := govEvalCall r err s
  (o, swapLate r.loop t)

/-- The Governor's work of a cycle start. -/
def governorCycle (s : Block) : Block :=
  forEach (upto 8) injCycle (forEach (s.gov.loops.map (·.1)) govCycle s)

end Sys2Proof.Machine
end

