-- ==== Sys2Proof/Machine/Fantail.lean ====
section
/-!
DEFINITION. Fantail angle units, repetitive controllers and ramp channels (chapter 8).
-/

namespace Sys2Proof.Machine

def fant (s : Block) (i : Nat) : FantSt := tget {} s.eng.fant i
def modFant (i : Nat) (f : FantSt → FantSt) (s : Block) : Block :=
  { s with eng := { s.eng with fant := tmod {} s.eng.fant i f } }
def rpc (s : Block) (r : Nat) : RpcSt := tget {} s.eng.rpc r
def modRpc (r : Nat) (f : RpcSt → RpcSt) (s : Block) : Block :=
  { s with eng := { s.eng with rpc := tmod {} s.eng.rpc r f } }
def ramp (s : Block) (c : Nat) : RampSt := tget {} s.eng.ramp c
def modRamp (c : Nat) (f : RampSt → RampSt) (s : Block) : Block :=
  { s with eng := { s.eng with ramp := tmod {} s.eng.ramp c f } }

def evFtLock : Nat := 132
def evFtUnlock : Nat := 133
def evFtGear : Nat := 134
def evRpcSparse : Nat := 135
def evRmpDone : Nat := 136
def evRmpHardDec : Nat := 137
def evRmpFull : Nat := 138

def ftW (s : Block) (i k : Nat) : W32 := parW s (0x5000 + 64 * i + k)
def ftMode (s : Block) (i : Nat) : Nat := (ftW s i 0).toNat
def rpcW (s : Block) (r k : Nat) : W32 := parW s (0x5100 + 16 * r + k)
def rmpW (s : Block) (c k : Nat) : W32 := parW s (0x5200 + 16 * c + k)

/-! ### Ramp channels (R313 to R320) -/

/-- T_c in seconds, as the nearest binary64 and binary32. -/
def tcD (s : Block) : F64 := r64 (fvRatio (tcU s) sU)
def tcF (s : Block) : F32 := fratio (tcU s) sU

def dsqrt (a : F64) : F64 := r64 (fvSqrt (v64 a))
def dmin (a b : F64) : F64 := if dlt b a then b else a
def dmax (a b : F64) : F64 := if dlt a b then b else a
def dTwo : F64 := 0x4000000000000000#64
def dabs (a : F64) : F64 := a &&& 0x7FFFFFFFFFFFFFFF#64
def deq (a b : F64) : Bool := fvEq (v64 a) (v64 b)
def dle (a b : F64) : Bool := fvLe (v64 a) (v64 b)

/-- The shape of a channel in binary64. -/
structure Shape where
  vStart : F64
  vStop : F64
  vKnee : F64
  a1 : F64
  a2 : F64
  d1 : F64
  d2 : F64
deriving DecidableEq, Repr

def shapeOf (s : Block) (c : Nat) : Shape :=
  { vStart := f2d (rmpW s c 0), vStop := f2d (rmpW s c 1), vKnee := f2d (rmpW s c 2), a1 := f2d (rmpW s c 3),
    a2 := f2d (rmpW s c 4), d1 := f2d (rmpW s c 5), d2 := f2d (rmpW s c 6) }

/-- ve² + 2·d·r under the root. -/
def rootOf (v d r : F64) : F64 := dsqrt (dadd (dmul v v) (dmul (dmul dTwo d) r))

/-- Distance to slow from v to w at rate d: (v² - w²) / (2·d). -/
def slowDist (v w d : F64) : F64 := ddiv (dsub (dmul v v) (dmul w w)) (dmul dTwo d)

/-- vr of Table 8-1. -/
def allowed (p : Shape) (r ve : F64) : F64 :=
  if dlt p.vKnee ve then rootOf ve p.d2 r
  else
    let dk := slowDist p.vKnee ve p.d1
    if dle r dk then rootOf ve p.d1 r else rootOf p.vKnee p.d2 (dsub r dk)

/-- vj of R316: the head, the next move and the head's direction (true = falling). -/
def jointSpeed (p : Shape) (falling : Bool) (q : List (F64 × F64)) : F64 × Bool :=
  match q with
  | (xh, vh) :: (xn, vn) :: _ =>
    let same := if falling then dlt xn xh else dlt xh xn
    if same then (dmin (dmin vh vn) (allowed p (dabs (dsub xn xh)) p.vStop), true) else (p.vStop, false)
  | _ => (p.vStop, false)

/-- A queue that becomes empty (R320). -/
def rampDone (c : Nat) (was : Bool) (s : Block) : Block :=
  raiseIf (was && (ramp s c).queue.length = 0) evRmpDone s

/-- One step of a channel with a non-empty queue (R317, R318). HARD_DEC compares the new speed with that of the step before, so
that slowing at a set rate never raises it (log entry 33). -/
def rampMove (c : Nat) (s : Block) : Block :=
  let r := ramp s c
  let p := shapeOf s c
  let h := tcD s
  match r.queue with
  | [] => modRamp c (fun x => { x with v := 0#64 }) s
  | (xt, vc) :: rest =>
    let rem := dabs (dsub xt r.x)
    let zero := deq rem 0#64
    let falling := if zero then r.falling else dlt xt r.x
    let (ve, next) := jointSpeed p falling r.queue
    if zero then
      modRamp c (fun x => { x with queue := rest, stopping := false, v := if deq ve p.vStop && !next then 0#64 else x.v }) s
    else
      let v1 := if deq r.v 0#64 then p.vStart
        else dadd r.v (dmul (if dlt r.v p.vKnee then p.a1 else p.a2) h)
      let v := dmin (dmin v1 vc) (allowed p rem ve)
      let d := if dlt p.vKnee r.v then p.d2 else p.d1
      -- 1.05 in binary64
      let hard := dlt (dmul (dmul 0x3FF0CCCCCCCCCCCD#64 d) h) (dsub r.v v)
      let s := raiseIf hard evRmpHardDec (modRamp c (fun x => { x with hardDec := x.hardDec || hard }) s)
      if dle rem (dmul v h) then
        modRamp c (fun x => { x with
          x := xt, queue := rest, stopping := false, falling := falling, v := if deq ve p.vStop then 0#64 else dmin v ve }) s
      else
        let dx := dmul v h
        modRamp c (fun x => { x with x := if falling then dsub x.x dx else dadd x.x dx, v := v, falling := falling }) s

/-- Entries written in fabric cycles before that of t0 (R293). -/
def dueAt {α : Type} (t0 : Nat) (l : List (Nat × α)) : List (Nat × α) := l.filter fun p => decide (fabric p.1 < fabric t0)
def laterAt {α : Type} (t0 : Nat) (l : List (Nat × α)) : List (Nat × α) := l.filter fun p => !decide (fabric p.1 < fabric t0)

/-- A STOP or FLUSH acts after the step (R319); `late` counts the moves that arrived after it, which it leaves in the queue. -/
def rampCmd (c late : Nat) (k : RampCmd) (s : Block) : Block :=
  let r := ramp s c
  let p := shapeOf s c
  let base := r.queue.take (r.queue.length - late)
  let tail := r.queue.drop (r.queue.length - late)
  match k with
  | .stop =>
    if base.length = 0 then s
    else if deq r.v 0#64 then modRamp c (fun x => { x with queue := tail, stopping := false }) s
    else
      let dist :=
        if dlt p.vKnee r.v then dadd (slowDist r.v p.vKnee p.d2) (slowDist p.vKnee p.vStop p.d1)
        else if dlt p.vStop r.v then slowDist r.v p.vStop p.d1 else 0#64
      let m := (if r.falling then dsub r.x dist else dadd r.x dist, dmax r.v p.vStart)
      modRamp c (fun x => { x with queue := m :: tail, stopping := true }) s
  | .flush => modRamp c (fun x => { x with queue := base.take 1 ++ tail }) s
  | .set _ => s

/-- The moves due at t0 in the order of R313. -/
def movesAt (t0 : Nat) (l : List (Nat × Nat × Move)) : List (Nat × Nat × Move) :=
  sortBy (fun a b => decide (fabric a.1 < fabric b.1) || (fabric a.1 = fabric b.1 && decide (a.2.1 < b.2.1))) (dueAt t0 l)

/-- How many of some moves arrived after a command of this instant with `h` host moves before it in its fabric cycle. -/
def movesAfter (l : List (Nat × Nat × Move)) (at_ h : Nat) : Nat :=
  let same := l.filter fun m => fabric m.1 = fabric at_
  let hosts := (same.filter fun m => m.2.1 = 0).length
  same.length - min h hosts + (l.filter fun m => decide (fabric at_ < fabric m.1)).length

/-- A SET acts on a queue that is empty but for moves that arrived after it (R319). -/
def rampSetActs (moves : List (Nat × Nat × Move)) (c : Nat) (k : Nat × Nat × RampCmd) (s : Block) : Block :=
  match k.2.2 with
  | .set v =>
    if (ramp s c).queue.length = 0 ∧ movesAfter moves k.1 k.2.1 = moves.length then modRamp c (fun x => { x with x := f2d v }) s else s
  | _ => s

/-- Posted moves enter and the channel steps (R293, R317). -/
def rampStep (c : Nat) (s : Block) : Block :=
  let r := ramp s c
  let t0 := s.cyc.t0
  let moves := movesAt t0 r.posted
  let s := forEach (dueAt t0 r.cmds) (rampSetActs moves c) s
  rampMove c (modRamp c (fun x => { x with
    posted := laterAt t0 x.posted, queue := x.queue ++ moves.map fun m => (f2d m.2.2.xt, f2d m.2.2.vc) }) s)

/-- The work of one channel at t0: posted moves enter, the channel steps, commands act, outputs publish. -/
def rampCycle (c : Nat) (s : Block) : Block :=
  let r := ramp s c
  let t0 := s.cyc.t0
  let moves := movesAt t0 r.posted
  let was := r.queue.length + moves.length ≠ 0
  let s := rampStep c s
  let s := forEach (dueAt t0 r.cmds) (fun k s => rampCmd c (movesAfter moves k.1 k.2.1) k.2.2 s) s
  let s := modRamp c (fun x => { x with
    cmds := laterAt t0 x.cmds, pubX := d2f x.x, busy := x.queue.length ≠ 0,
    pubV := d2f (if x.falling then dneg x.v else x.v) }) s
  rampDone c was s

/-- The posted move that gives way to one of order `o`: of the same fabric cycle, the last that enters after it (R313). -/
def rampDisplaced (c o : Nat) (s : Block) : Option (Nat × Nat × Move) :=
  ((ramp s c).posted.filter fun m => fabric m.1 = fabric s.now && decide (o < m.2.1)).foldl
    (fun k m => match k with | some p => if p.2.1 ≤ m.2.1 then some m else k | none => some m) none

def rampRoom (s : Block) (c : Nat) : Bool := decide ((ramp s c).queue.length + (ramp s c).posted.length < 8)

/-- A move is posted: rejected when not finite or slow, discarded when the queue is full (R313); FULL is returned. In one
fabric cycle a host move enters before the graph's and a lower core's before a higher one's, so the later of them goes. -/
def rampPost (c order : Nat) (m : Move) (s : Block) : Bool × Block :=
  if !(isFinite32 m.xt && isFinite32 m.vc && flt f32Zero m.vc) then (false, s)
  else
    let put := fun (s : Block) => modRamp c (fun x => { x with posted := x.posted ++ [(s.now, order, m)] }) s
    let full := fun (s : Block) => raise evRmpFull (modRamp c (fun x => { x with fullSeen := true }) s)
    if rampRoom s c then (false, put s)
    else match rampDisplaced c order s with
      | some p => (false, full (put (modRamp c (fun x => { x with posted := x.posted.erase p }) s)))
      | none => (true, full s)

/-- RAMP_MOVE (R313): the host posts a move. -/
def rampMoveStep (c : Nat) (xt vc : F32) (s : Block) : Block :=
  if c < 32 then (rampPost c 0 { xt := xt, vc := vc } s).2 else s

/-- RAMP_POST (R347): a graph block posts a move. -/
def rampPostStep (c core : Nat) (xt vc : F32) (s : Block) : Block :=
  if c < 32 then (rampPost c (1 + core) { xt := xt, vc := vc } s).2 else s

def rampAddCmd (c : Nat) (k : RampCmd) (s : Block) : Block :=
  let h := ((ramp s c).posted.filter fun m => fabric m.1 = fabric s.now && m.2.1 = 0).length
  if c < 32 then modRamp c (fun x => { x with cmds := x.cmds ++ [(s.now, h, k)] }) s else s

/-- RAMP_STOP, RAMP_FLUSH and RAMP_SET (R319); a SET is rejected unless the queue is empty. -/
def rampStopStep (c : Nat) (s : Block) : Block :=
  if (ramp s c).queue.length = 0 ∧ (ramp s c).posted.length = 0 then s else rampAddCmd c .stop s
def rampFlushStep (c : Nat) (s : Block) : Block := rampAddCmd c .flush s
def rampSetStep (c : Nat) (v : F32) (s : Block) : Block :=
  if (ramp s c).queue.length = 0 ∧ (ramp s c).posted.length = 0 then rampAddCmd c (.set v) s else s

/-! ### Fantails: following (R296 to R299) -/

def fHalf : F32 := 0x3F000000#32
def fTwo : F32 := 0x40000000#32
def fThree : F32 := 0x40400000#32
def fSqrt3 : F32 := 0x3FDDB3D7#32
def fTwoPi : F32 := 0x40C90FDB#32

/-- th + round(f * h * 2^32), the product in binary64 and the rounding to nearest even. -/
def advance (th : Nat) (f : F32) (h : F64) : Nat :=
  let p := dmul (dmul (f2d f) h) 0x41F0000000000000#64
  wrapN 32 ((th : Int) + fvRne (v64 p))

def setLocked (i : Nat) (b : Bool) (s : Block) : Block :=
  let was := (fant s i).locked
  if was = b then s
  else raise (if b then evFtLock else evFtUnlock) (modFant i (fun x => { x with locked := b }) s)

/-- The lock conditions have held at every step for lock_time (R299). -/
def lockHeld (s : Block) (i t : Nat) : Bool :=
  match (fant s i).lockFrom with | some a => decide (a + parDur s (0x5000 + 64 * i + 0xE) msU ≤ t) | none => false

/-- One following step on a sample at an instant (R297 to R299, R417); gives the angle at the sample. -/
def followStep (i : Nat) (xa xb xc : F32) (valid : Bool) (h : F32) (hd : F64) (t : Nat) (s : Block) : Nat × Block :=
  let x := fant s i
  let al := fdiv (fsub (fsub (fmul fTwo xa) xb) xc) fThree
  let be := fdiv (fsub xb xc) fSqrt3
  let w := fmul fTwoPi x.f
  let hw := fmul h w
  let k := ftW s i 9
  let da := fadd x.da (fmul hw (fsub (fmul k (fsub al x.da)) x.qa))
  let qa := fadd x.qa (fmul hw da)
  let db := fadd x.db (fmul hw (fsub (fmul k (fsub be x.db)) x.qb))
  let qb := fadd x.qb (fmul hw db)
  let pa := fdiv (fsub da qb) fTwo
  let pb := fdiv (fadd qa db) fTwo
  let amp := fsqrt (fadd (fmul pa pa) (fmul pb pb))
  let th := BitVec.ofNat 32 x.th
  let vq := fadd (fmul (fneg pa) (sinTurn th)) (fmul pb (cosTurn th))
  let ok := valid && fle (ftW s i 0xC) amp
  let e := fdiv vq amp
  let fNom := ftW s i 6
  let fMin := ftW s i 7
  let fMax := ftW s i 8
  let integ := if ok then fmin (fmax (fadd x.integ (fmul (fmul (ftW s i 0xB) h) e)) (fsub fMin fNom)) (fsub fMax fNom)
    else x.integ
  let f := if ok then fmin (fmax (fadd (fadd fNom integ) (fmul (ftW s i 0xA) e)) fMin) fMax else x.f
  let lockErr := ftW s i 0xD
  let good := ok && fle (fabs e) lockErr
  let bad := !ok || flt (fmul fTwo lockErr) (fabs e)
  let s := modFant i (fun x => { x with
    da := da, qa := qa, db := db, qb := qb, amp := amp, ampLow := !ok, integ := integ, f := f,
    th := advance x.th f hd, lockFrom := if good then (x.lockFrom <|> some t) else none }) s
  let s := if bad then setLocked i false s else if good && lockHeld s i t then setLocked i true s else s
  (x.th, s)

/-- FT_LOCK (R299): the lock conditions have held for lock_time. -/
def ftLockStep (i : Nat) (s : Block) : Block :=
  match (fant s i).lockFrom with
  | some a =>
    if i < 4 ∧ ftMode s i = 1 ∧ !(fant s i).form then
      setLocked i true (atTime (a + parDur s (0x5000 + 64 * i + 0xE) msU) s)
    else s
  | none => s

/-! ### Forming, gearing and the order at t0 (R291, R300 to R305) -/

/-- A change of form takes effect (R302). -/
def formChange (i : Nat) (s : Block) : Block :=
  let x := fant s i
  let want := ftMode s i = 1 && ftW s i 1 = 1#32
  if ftMode s i ≠ 1 ∨ want = x.form then s
  else if want then
    let s := modFant i (fun x => { x with form := true, lockFrom := none, ampLow := false, amp := f32Zero }) s
    let s := setLocked i true s
    let c := (ftW s i 0xF).toNat
    if ftW s i 0x11 = 1#32 then
      let was := (ramp s c).queue.length ≠ 0
      rampDone c was (modRamp c (fun r => { r with x := f2d x.f, v := 0#64, queue := [], stopping := false }) s)
    else s
  else
    setLocked i false (modFant i (fun x => { x with form := false, integ := fsub x.f (ftW s i 6), lockFrom := none }) s)

/-- One forming step (R300, R301). -/
def formStep (i : Nat) (s : Block) : Nat × Block :=
  let x := fant s i
  let xr := (ramp s (ftW s i 0xF).toNat).pubX
  let f := fmin (fmax (fsub xr (fmul (ftW s i 0x10) x.droop)) (ftW s i 7)) (ftW s i 8)
  (x.th, modFant i (fun x => { x with f := f, th := advance x.th f (tcD s) }) s)

/-- floor(num * D / den). -/
def gearFloor (num : Int) (d : Int) (den : Nat) : Int := (num * d) / (den : Int)

/-- One geared step (R304, R305). -/
def gearStep (i : Nat) (s : Block) : Nat × Block :=
  let x := fant s i
  let m := fant s (ftW s i 0x12).toNat
  let tm := m.angle
  if !x.started then
    let y := { x with started := true, d := tm }
    (wrapN 32 ((y.phi : Int) + gearFloor y.num y.d y.den), modFant i (fun _ => y) s)
  else
    let tp := m.anglePrev
    let tx := (ftW s i 0x19).toNat
    let dm := wrapN 32 ((tm : Int) - tp)
    let dx := wrapN 32 ((tx : Int) - tp)
    let arm := match x.armed with | some a => decide (fabric a < fabric s.cyc.t0) | none => false
    if arm && decide (0 < dx) && decide (dx ≤ dm) then
      let phi := if (ftW s i 0x1A).toNat = 1 then wrapN 32 ((x.phi : Int) + gearFloor x.num ((x.d + dx : Nat) : Int) x.den)
        else (ftW s i 0x18).toNat
      let y := { x with
        num := (ftW s i 0x16).toInt, den := (ftW s i 0x17).toNat, phi := phi, d := wrapN 32 ((tm : Int) - tx),
        armed := none, gearDone := true, landedAt := some s.now }
      (wrapN 32 ((y.phi : Int) + gearFloor y.num y.d y.den), raise evFtGear (modFant i (fun _ => y) s))
    else
      let y := { x with d := (x.d + dm) % (max 1 x.den * 2 ^ 32) }
      (wrapN 32 ((y.phi : Int) + gearFloor y.num y.d y.den), modFant i (fun _ => y) s)

/-- AMP and AMP_LOW of a unit that does not follow (Table 8-3). -/
def notFollowing (i : Nat) (s : Block) : Block := modFant i (fun x => { x with amp := f32Zero, ampLow := false }) s

/-- h of a STREAM step, 0.5 us, as binary32 and binary64. -/
def streamH : F32 := 0x350637BD#32
def streamHD : F64 := 0x3EA0C6F7A0B5ED8D#64

/-- The t0 of a STREAM unit whose sample at t0 has not been stepped: the cycle start steps it when it carries the samples;
else the angle that the sample will have is published and its own step follows. -/
def streamAtStart (smp : Nat → Option (F32 × Bool)) (i t0 : Nat) (put : Nat → F32 → Block → Block) (s : Block) : Block :=
  match smp (ftW s i 2).toNat, smp (ftW s i 3).toNat, smp (ftW s i 4).toNat with
  | some a, some b, some c =>
    let (th, s) := followStep i a.1 b.1 c.1 (a.2 && b.2 && c.2) streamH streamHD t0 s
    put th (fant s i).f (modFant i (fun x => { x with outAt := some (t0, th), tookT0 := true }) s)
  | _, _, _ => put (fant s i).th (fant s i).f (modFant i (fun x => { x with tookT0 := false }) s)

/-- FREQ of the geared units from their masters' (R303). -/
def gearFreq (i : Nat) (s : Block) : Block :=
  if ftMode s i = 2 then
    modFant i (fun x => { x with freq := fmul (fratio x.num (max 1 x.den)) (fant s (ftW s i 0x12).toNat).freq }) s
  else s

/-- The step of one Fantail at t0; `smp` gives an input's instantaneous sample at t0 and whether it is VALID (R53). -/
def fantCycle (smp : Nat → Option (F32 × Bool)) (i : Nat) (s : Block) : Block :=
  let t0 := s.cyc.t0
  let s := modFant i (fun x =>
    { x with droop := (dueAt t0 x.droops).foldl (fun _ p => p.2) x.droop, droops := laterAt t0 x.droops }) s
  let put := fun (a : Nat) (f : F32) (s : Block) =>
    modFant i (fun x => { x with anglePrev := x.angle, angle := a, freq := f }) s
  match ftMode s i with
  | 0 => put 0 f32Zero (setLocked i false (notFollowing i s))
  | 1 =>
    if (fant s i).form then let (a, s) := formStep i (setLocked i true s); put a (fant s i).f s
    else if (ftW s i 5).toNat = 0 then
      let k := fun n => (smp (ftW s i n).toNat).getD (f32Zero, false)
      let (a, s) := followStep i (k 2).1 (k 3).1 (k 4).1 ((k 2).2 && (k 3).2 && (k 4).2) (tcF s) (tcD s) t0 s
      put a (fant s i).f s
    else
      -- STREAM: the step of the sample at t0 (R297), unless the stream's own step has taken it
      match (fant s i).outAt with
      | some (t, a) => if t = t0 then put a (fant s i).f s else streamAtStart smp i t0 put s
      | none => streamAtStart smp i t0 put s
  | _ =>
    let (a, s) := gearStep i s
    let x := fant s i
    let fm := (fant s (ftW s i 0x12).toNat).freq
    let s := notFollowing i s
    put a (fmul (fratio x.num (max 1 x.den)) fm) (setLocked i true s)

def rpcLen (s : Block) (r : Nat) : Nat := (rpcW s r 1).toNat

/-- P of R312 as an exact fraction; none for FREQ 0. -/
def rpcPeriod (s : Block) (f : F32) : Option Q :=
  let q := qabs (q32 f)
  if q.num = 0 then none else some (qdiv (qf sU (tcU s)) q)

/-- PERIOD and SPARSE as FREQ and len stand (R312, Table 8-4). -/
def rpcStatus (r : Nat) (s : Block) : Block :=
  let p := rpcPeriod s (fant s (rpcW s r 0).toNat).freq
  let per := match p with | some q => min 0xFFFF (qfloor (qmul q (qi 8))).toNat | none => 0xFFFF
  let sparse := match p with | some q => qlt q (qi (rpcLen s r)) | none => false
  let was := (rpc s r).sparse
  raiseIf (sparse && !was) evRpcSparse (modRpc r (fun x => { x with period := per, sparse := sparse }) s)

/-- The controllers that have a parameter set or have stepped. -/
def rpcUsed (s : Block) (r : Nat) : Bool :=
  s.eng.rpc.any (fun p => p.1 = r) || s.par.val.any fun p => decide (0x5100 + 16 * r ≤ p.1 ∧ p.1 < 0x5110 + 16 * r)

/-- SPARSE follows FREQ and len of every controller in use (R312). -/
def rpcSparse (s : Block) : Block := forEach ((upto 16).filter (rpcUsed s)) rpcStatus s

/-- The work of R291 at t0; the outputs count as published from publication or 400 ns after t0 on. -/
def enginesCycle (smp : Nat → Option (F32 × Bool)) (s : Block) : Block :=
  let s := forEach (upto 4) formChange s
  let s := forEach (s.eng.ramp.map (·.1)) rampCycle s
  let s := rpcSparse (forEach (upto 4) (fantCycle smp) s)
  { s with cyc := { s.cyc with published := false } }

/-- FT_STREAM_STEP (R297): a sample of the three streams; `valid` says whether each was VALID. -/
def ftStreamStep (i : Nat) (xa xb xc : F32) (valid : Bool) (s : Block) : Block :=
  if i < 4 ∧ ftMode s i = 1 ∧ !(fant s i).form ∧ (ftW s i 5).toNat = 1 then
    if (fant s i).tookT0 ∧ s.now = s.cyc.t0 then modFant i (fun x => { x with tookT0 := false }) s
    else
      let (th, s) := followStep i xa xb xc valid streamH streamHD s.now s
      let s := modFant i (fun x => { x with outAt := some (s.now, th), tookT0 := false }) s
      -- the sample at t0, stepped after the cycle start: FREQ is the one of the coming cycle (R294)
      if s.cyc.started ∧ s.now = s.cyc.t0 then
        rpcSparse (forEach (upto 4) gearFreq (modFant i (fun x => { x with freq := x.f }) s))
      else s
  else s

/-- FT_DROOP (R293); a NaN or an infinity is ignored (R301). -/
def ftDroopStep (i : Nat) (v : F32) (s : Block) : Block :=
  if i < 4 ∧ isFinite32 v then modFant i (fun x => { x with droops := x.droops ++ [(s.now, v)] }) s else s

/-- GEAR_ARM (R306): ARM while armed is rejected. -/
def gearArmStep (i : Nat) (s : Block) : Block :=
  if i < 4 ∧ (fant s i).armed.isNone then modFant i (fun x => { x with armed := some s.now }) s else s

/-- The angle of a unit at a coming t0, which its state fixes before the t0 comes. -/
def angleAhead (i : Nat) (s : Block) : Block :=
  let put := fun (a : Nat) (s : Block) => modFant i (fun x => { x with anglePrev := x.angle, angle := a }) s
  match ftMode s i with
  | 0 => put 0 s
  | 1 =>
    let x := fant s i
    put (match x.outAt with | some (t, a) => if t = s.cyc.t0 && (ftW s i 5).toNat = 1 && !x.form then a else x.th | none => x.th) s
  | _ => let (a, s) := gearStep i s; put a s

/-- The armed change lands at a cycle start of this very fabric cycle that has not come yet. -/
def landsNow (s : Block) (i : Nat) : Bool :=
  let t := (nextStart s).1
  fabric t = fabric s.now && (fant s i).armed.isSome &&
    (fant (forEach (upto 4) angleAhead { s with cyc := { s.cyc with t0 := t } }) i).armed.isNone

/-- A CANCEL that finds the change landed, or landing in its fabric cycle (R308). -/
def gearCancelLate (s : Block) (i : Nat) : Bool := (fant s i).armed.isNone || landsNow s i

/-- GEAR_CANCEL (R308). -/
def gearCancelStep (i : Nat) (s : Block) : Block :=
  if i < 4 ∧ !gearCancelLate s i then modFant i (fun x => { x with armed := none }) s else s

/-- A READY ONLY write of num, den or phi is in force at once (R10). -/
def gearWritten (idx : Nat) (s : Block) : Block :=
  let i := (idx - 0x5000) / 64
  if 0x5000 ≤ idx ∧ idx < 0x5100 then
    if idx % 64 = 0x13 then modFant i (fun x => { x with num := (ftW s i 0x13).toInt }) s
    else if idx % 64 = 0x14 then modFant i (fun x => { x with den := (ftW s i 0x14).toNat }) s
    else if idx % 64 = 0x15 then modFant i (fun x => { x with phi := (ftW s i 0x15).toNat }) s
    else s
  else s

/-! ### Repetitive controllers (R309 to R312) -/

/-- rd(z) of R311. -/
def rpcRead (m : Nat) (mem : Tab F32) (z : F64) : F32 :=
  let k := fvFloor (v64 z)
  let j := (k % ((max 1 m : Nat) : Int)).toNat
  let w := d2f (dsub z (r64 (fvOfInt k 0)))
  fadd (fmul (fsub f32One w) (tget f32Zero mem j)) (fmul w (tget f32Zero mem ((j + 1) % max 1 m)))

/-- A call of a repetitive controller and its output (R310, R311). -/
def rpcCall (r : Nat) (e : F32) (fz reset : Bool) (s : Block) : F32 × Block :=
  let x := rpc s r
  let again : Option F32 := match x.last with | some (t, y) => if t = s.cyc.t0 then some y else none | none => none
  match again with
  | some y => (y, modRpc r (fun x => { x with multi := true }) s)
  | none =>
    let s := rpcStatus r s
    let ft := fant s (rpcW s r 0).toNat
    let m := rpcLen s r
    let mem := if reset then [] else x.mem
    let p := r64 (.fin false (ft.angle * m) (-32))
    let pl := dadd p (dmul (dmul (dmul (f2d (rpcW s r 4)) (f2d ft.freq)) (tcD s)) (r64 (fvOfInt m 0)))
    let y := rpcRead m mem pl
    let upd := !fz && !(rpcW s r 6 ≠ 0#32 && !ft.locked) && isFinite32 e
    let k := fvFloor (v64 p)
    let j := (k % ((max 1 m : Nat) : Int)).toNat
    let j1 := (j + 1) % max 1 m
    let w := d2f (dsub p (r64 (fvOfInt k 0)))
    let dv := fsub (fadd (fmul (rpcW s r 3) (rpcRead m mem p)) (fmul (rpcW s r 2) e)) (rpcRead m mem p)
    let a := fadd (tget f32Zero mem j) (fmul (fsub f32One w) dv)
    let mem1 := if upd then tset f32Zero mem j a else mem
    let b := fadd (tget f32Zero mem1 j1) (fmul w dv)
    let mem2 := if upd then tset f32Zero mem1 j1 b else mem1
    let ym := rpcW s r 5
    let out := fmin (fmax y (fneg ym)) ym
    (out, modRpc r (fun x => { x with
      mem := mem2, frozen := !upd, outLim := !feq out y, last := some (s.cyc.t0, out),
      wrote := some (j, tget f32Zero mem2 j, tget f32Zero mem2 j1, reset) }) s)

/-- RPC_CALL (R311). -/
def rpcCallStep (r : Nat) (e : F32) (fz reset : Bool) (s : Block) : Block :=
  if r < 16 then (rpcCall r e fz reset s).2 else s

end Sys2Proof.Machine
end

