-- ==== Sys2Proof/Machine/Graph.lean ====
section
/-!
DEFINITION. The control graph (chapter 9): the image in force, the value blocks of Table 9-4 and the expression block.
-/

namespace Sys2Proof.Machine

/-! ### The image in force (R330 to R335, R358, R359) -/

def img (s : Block) : List W8 := s.graph.image
def imgN (l : List W8) (off n : Nat) : Nat := leAt l off n

def nSig (l : List W8) : Nat := imgN l 0x0C 2
def nBlk (l : List W8) : Nat := imgN l 0x0E 2
def nTask (l : List W8) : Nat := imgN l 0x10 2
def sigEntry (l : List W8) (n : Nat) : Nat := imgN l (imgN l 0x14 4 + 8 * n) 8
/-- TYPE of a signal: 0 binary32, 1 int32, 2 bool (Table 9-2). -/
def sigType (l : List W8) (n : Nat) : Nat := bits (sigEntry l n) 0 2
def blkOff (l : List W8) (b : Nat) : Nat := imgN l 0x18 4 + 16 * b
def blkType (l : List W8) (b : Nat) : Nat := imgN l (blkOff l b) 1
def blkTask (l : List W8) (b : Nat) : Nat := imgN l (blkOff l b + 1) 1
def blkIn (l : List W8) (b : Nat) : Nat := imgN l (blkOff l b + 2) 1
def blkOut (l : List W8) (b : Nat) : Nat := imgN l (blkOff l b + 3) 1
def blkState (l : List W8) (b : Nat) : Nat := imgN l (blkOff l b + 4) 1
def blkPin (l : List W8) (b k : Nat) : Nat := imgN l (imgN l (blkOff l b + 8) 4 + 2 * k) 2
def blkPar (l : List W8) (b k : Nat) : W32 := BitVec.ofNat 32 (imgN l (imgN l (blkOff l b + 12) 4 + 4 * k) 4)
def taskOff (l : List W8) (t : Nat) : Nat := imgN l 0x1C 4 + 32 * t
/-- The blocks of a task in ascending number (R335, R337). -/
def taskBlocks (l : List W8) (t : Nat) : List Nat := (upto (nBlk l)).filter fun b => blkTask l b = t
def tPrio (l : List W8) (t : Nat) : Nat := imgN l (taskOff l t) 1
def tPart (l : List W8) (t : Nat) : Nat := imgN l (taskOff l t + 1) 1
def tCores (l : List W8) (t : Nat) : Nat := imgN l (taskOff l t + 2) 2
def tMask (l : List W8) (t : Nat) : Nat := imgN l (taskOff l t + 4) 4
def tAll (l : List W8) (t : Nat) : Bool := imgN l (taskOff l t + 8) 1 = 1
def tPolicy (l : List W8) (t : Nat) : Nat := imgN l (taskOff l t + 9) 1
def tBinds (l : List W8) (t : Nat) : Nat := imgN l (taskOff l t + 10) 1
def tStart (l : List W8) (t : Nat) : Bool := imgN l (taskOff l t + 11) 1 = 1
def tBind (l : List W8) (t k : Nat) : Nat := imgN l (imgN l (taskOff l t + 12) 4 + 4 * k) 4
def tDmaCh (l : List W8) (t : Nat) : Nat := imgN l (taskOff l t + 0x14) 1
def tDmaAt (l : List W8) (t : Nat) : Nat := imgN l (taskOff l t + 0x15) 1
def tDmaDesc (l : List W8) (t : Nat) : Nat := imgN l (taskOff l t + 0x18) 8

/-! ### Signals and block ends (R325, R328) -/

/-- The signals that block ends of this fabric cycle have written: value before and writing task. -/
def sigFresh (s : Block) : Tab (W32 × Nat) := if s.graph.sigAt = fabric s.now + 1 then s.graph.sigOld else []

/-- The value that a block of a task sees of a signal: from before a block end of another task in this fabric cycle
(R328). -/
def sigSeen (s : Block) (t n : Nat) : W32 :=
  match tfind (sigFresh s) n with
  | some (v, u) => if u = t then sigRead s n else v
  | none => sigRead s n

/-- The value of a signal before the block ends of the present fabric cycle (R355). -/
def sigBefore (s : Block) (n : Nat) : W32 := match tfind (sigFresh s) n with | some p => p.1 | none => sigRead s n

/-- A bool signal holds 0 or 1 (R325). -/
def sigNorm (s : Block) (n : Nat) (v : W32) : W32 :=
  if (img s).length ≠ 0 ∧ sigType (img s) n = 2 then (if v = 0#32 then 0#32 else 1#32) else v

/-- A block of task t writes a signal at its end. -/
def sigPut (t n : Nat) (v : W32) (s : Block) : Block :=
  let l := sigFresh s
  sigWrite n (sigNorm s n v) { s with graph := { s.graph with
    sigAt := fabric s.now + 1, sigOld := if (tfind l n).isSome then l else tput n (sigRead s n, t) l } }

/-- The value of an input pin; `d` where it is unbound (R341). -/
def pinIn (s : Block) (b k : Nat) (d : W32) : W32 :=
  let p := blkPin (img s) b k
  if p = 0xFFFF then d else sigSeen s (blkTask (img s) b) p

/-- The inputs of a block as one snapshot (R328); unbound pins read 0. -/
def blkIns (s : Block) (b : Nat) : List W32 := (upto (blkIn (img s) b)).map fun k => pinIn s b k 0#32

/-- The state words of a block. -/
def blkStates (s : Block) (b : Nat) : List W32 :=
  (upto (blkState (img s) b)).map fun k => sigRead s (blkPin (img s) b (blkIn (img s) b + blkOut (img s) b + k))

/-- Task t writes signals by pins; an unbound output is discarded (R341). -/
def writePins (t : Nat) : List (Nat × Option W32) → Block → Block
  | [], s => s
  | (p, some v) :: l, s => writePins t l (if p = 0xFFFF then s else sigPut t p v s)
  | (_, none) :: l, s => writePins t l s

/-- What a block computes: outputs (none keeps the value) and new states. -/
structure BlkVal where
  outs : List (Option W32) := []
  states : List W32 := []
deriving DecidableEq, Repr

/-- All outputs and states of a block become visible together (R328). -/
def blkWrite (b : Nat) (v : BlkVal) (s : Block) : Block :=
  let l := img s
  let ni := blkIn l b
  let no := blkOut l b
  let outs := (mapIdx (fun k x => (k, x)) 0 v.outs).filter fun (k, _) => decide (k < no)
  let sts := (mapIdx (fun k x => (k, x)) 0 v.states).filter fun (k, _) => decide (k < blkState l b)
  writePins (blkTask l b) (outs.map (fun (k, x) => (blkPin l b (ni + k), x)) ++
    sts.map (fun (k, x) => (blkPin l b (ni + no + k), some x))) s

def wAt (l : List W32) (k : Nat) : W32 := (l[k]?).getD 0#32
def bW (b : Bool) : W32 := if b then 1#32 else 0#32
def iW (x : Int) : W32 := BitVec.ofInt 32 x
def outs (l : List W32) : BlkVal := { outs := l.map some }
def outsSt (l st : List W32) : BlkVal := { outs := l.map some, states := st }

/-! ### Arithmetic of the blocks (R266, R784) -/

def fNaN : W32 := r32 .nan
def gdiv (a b : F32) : F32 := flush32 (fdiv (flush32 a) (flush32 b))
def gsqrt (a : F32) : F32 := flush32 (fsqrt (flush32 a))
def gneg (a : F32) : F32 := if isNaN32 a then fNaN else fneg (flush32 a)
def gabs (a : F32) : F32 := if isNaN32 a then fNaN else fabs (flush32 a)

def foldNaN (f : F32 → F32 → F32) (l : List F32) : F32 :=
  if l.any isNaN32 then fNaN
  else match l.map flush32 with | [] => 0#32 | x :: t => t.foldl f x

def minN (l : List F32) : F32 := foldNaN fmin l
def maxN (l : List F32) : F32 := foldNaN fmax l

/-- min(max(x, lo), hi); NaN when any is NaN (R784). -/
def clampN32 (x lo hi : F32) : F32 :=
  if isNaN32 x || isNaN32 lo || isNaN32 hi then fNaN else fmin (fmax (flush32 x) (flush32 lo)) (flush32 hi)

/-- binary32 to int32: nearest, ties to even, saturating, NaN to 0 (CONVERT mode 0). -/
def f2i (x : F32) : W32 :=
  match v32 (flush32 x) with
  | .nan => 0#32
  | .inf n => if n then 0x80000000#32 else 0x7FFFFFFF#32
  | v => iW (clampS 32 (fvRne v))

def i2f (x : W32) : F32 := fofInt x.toInt
def f2b (x : F32) : Bool := !isNaN32 x && !feq (flush32 x) f32Zero

/-- Angle plus turns, the product in binary64 (R783). -/
def angleAdd (a : W32) (t : F32) : W32 :=
  if isFinite32 t then iW ((a.toNat : Int) + fvRne (v64 (dmul (f2d (flush32 t)) 0x41F0000000000000#64))) else a

/-- Comparison by the codes of COMPARE, on flushed operands (R266); false with NaN. -/
def cmpOp (m : Nat) (a b : F32) : Bool :=
  if isNaN32 a || isNaN32 b then false
  else
    let a := flush32 a
    let b := flush32 b
    match m with
    | 0 => flt a b | 1 => fle a b | 2 => feq a b | 3 => !feq a b | 4 => flt b a | _ => fle b a

def abcAb (a b c : F32) : F32 × F32 × F32 :=
  (gdiv (gsub (gsub (gmul fTwo a) b) c) fThree, gdiv (gsub b c) fSqrt3, gdiv (gadd (gadd a b) c) fThree)

def abAbc (al be z : F32) : F32 × F32 × F32 :=
  let h := gneg (gdiv al fTwo)
  -- √3 / 2
  let k := gmul 0x3F5DB3D7#32 be
  (gadd al z, gadd (gadd h k) z, gadd (gsub h k) z)

def abDq (al be : F32) (th : W32) : F32 × F32 :=
  let c := cosTurn th
  let n := sinTurn th
  (gadd (gmul al c) (gmul be n), gadd (gmul (gneg al) n) (gmul be c))

def dqAb (d q : F32) (th : W32) : F32 × F32 :=
  let c := cosTurn th
  let n := sinTurn th
  (gsub (gmul d c) (gmul q n), gadd (gmul d n) (gmul q c))

/-! ### Source blocks -/

/-- The ten aggregates of Table 5-2. -/
def armAgg (s : Block) (a : Nat) : List W32 :=
  let x := arm s a
  [iW x.nAvail, iW x.nAvailFB, iW x.nReserve, x.vSum, x.vMean, x.vMin, x.vMax, x.vSqSum, x.vMeanRsv, iW x.stale]

/-- STATE of CELL_V and of Table 10-4. -/
def stateCode : CState → Nat
  | .available => 0 | .reserve => 1 | .bypassed => 2 | .faulted => 3 | .none => 0xFF

def srcBlock (s : Block) (ty : Nat) (p : Nat → W32) : Option (List W32) :=
  let a := (p 0).toNat
  match ty with
  | 0x01 =>
    let x := ainVal s a
    some [gadd (gmul (p 1) x.avg) (p 2), gadd (gmul (p 1) x.inst) (p 2)]
  | 0x02 => some (armAgg s a)
  | 0x03 =>
    let c := cell s a
    some [fratio c.rankV 16, iW (stateCode c.rankSt), bW c.rankStale]
  | 0x04 => some [tget 0#32 s.cyc.latched a]
  | 0x05 => let x := fant s a; some [BitVec.ofNat 32 x.angle, x.freq, bW x.locked]
  | 0x06 => let x := ramp s a; some [x.pubX, x.pubV, bW x.busy]
  | 0x07 =>
    let x := arm s a
    some [bW x.rankSw, bW x.dir, bW x.inDb, fratio x.rankLat sU, iW x.rankLate]
  | 0x08 => some [p 0]
  | 0x09 => some [BitVec.ofNat 32 s.cyc.index, tcF s]
  | 0x0A => some [bW (scClosed s a)]
  | _ => none

/-! ### Arithmetic and transform blocks -/

def mathBlock (ty : Nat) (x : List W32) (p : Nat → W32) : Option (List W32) :=
  let i := wAt x
  match ty with
  | 0x10 => some [match x with | [] => 0#32 | h :: t => t.foldl gadd h]
  | 0x12 => some [match x with | [] => 0#32 | h :: t => t.foldl gmul h]
  | 0x11 => some [gsub (i 0) (i 1)]
  | 0x13 => some [gdiv (i 0) (i 1)]
  | 0x14 => some [gadd (gmul (p 0) (i 0)) (p 1)]
  | 0x15 => some [gabs (i 0)]
  | 0x18 => some [gsqrt (i 0)]
  | 0x16 => some [minN x]
  | 0x17 => some [maxN x]
  | 0x19 => some [angleAdd (i 0) (i 1)]
  | 0x1A => some [r32 (fvOfInt (i 0 - i 1).toInt (-32))]
  | 0x1B => some [match (p 0).toNat with
      | 0 => f2i (i 0) | 1 => i2f (i 0) | 2 => bW (f2b (i 0))
      | 3 => if i 0 = 0#32 then f32Zero else f32One | 4 => bW (i 0 ≠ 0#32) | _ => bW (i 0 ≠ 0#32)]
  | 0x20 => let (a, b, z) := abcAb (i 0) (i 1) (i 2); some [a, b, z]
  | 0x21 => let (a, b, c) := abAbc (i 0) (i 1) (i 2); some [a, b, c]
  | 0x22 => let (d, q) := abDq (i 0) (i 1) (i 2); some [d, q]
  | 0x23 => let (a, b) := dqAb (i 0) (i 1) (i 2); some [a, b]
  | 0x24 => let (a, b, z) := abcAb (i 0) (i 1) (i 2); let (d, q) := abDq a b (i 3); some [d, q, z]
  | 0x25 => let (al, be) := dqAb (i 0) (i 1) (i 3); let (a, b, c) := abAbc al be (i 2); some [a, b, c]
  | 0x26 => some [gdiv (gsub (i 0) (i 3)) fTwo, gdiv (gadd (i 2) (i 1)) fTwo,
                  gdiv (gadd (i 0) (i 3)) fTwo, gdiv (gsub (i 1) (i 2)) fTwo]
  | 0x27 => some [sinTurn (i 0), cosTurn (i 0)]
  | 0x28 =>
    let zero := feq (i 0) f32Zero && feq (i 1) f32Zero
    some [gsqrt (gadd (gmul (i 0) (i 0)) (gmul (i 1) (i 1))), if zero then 0#32 else polarAngle (i 0) (i 1)]
  | 0x40 => some [bW (cmpOp (p 0).toNat (i 0) (i 1))]
  | 0x41 => some [bW (x.all (· ≠ 0#32))]
  | 0x42 => some [bW (x.any (· ≠ 0#32))]
  | 0x44 => some [bW ((x.filter (· ≠ 0#32)).length % 2 = 1)]
  | 0x43 => some [bW (i 0 = 0#32)]
  | 0x4B =>
    let n := x.length - 1
    let k := (clampI 0 ((n : Int) - 1) (i 0).toInt).toNat
    some [i (k + 1)]
  | 0x53 =>
    let m := [i 0, i 1, i 2]
    some [gdiv (gadd (gadd (i 0) (i 1)) (i 2)) fThree, gneg (gdiv (gadd (maxN m) (minN m)) fTwo)]
  | 0x54 =>
    let h := gdiv (i 0) fTwo
    some [gsub (gsub h (i 1)) (i 2), gsub (gadd h (i 1)) (i 2)]
  | _ => none

/-! ### Blocks with states -/

def rise (now was : W32) : Bool := now ≠ 0#32 && was = 0#32

/-- Elapsed time of TIMER and PULSE: difference of cycle indices times T_c (R346). -/
def elapsed (s : Block) (start : W32) : F32 := gmul (fofNat (BitVec.ofNat 32 s.cyc.index - start).toNat) (tcF s)

/-- TIMER (R783): states are the cycle index of the last change and flags: bit 0 IN, bit 1 timing, bit 2 PT reached, which
stays until the next change. -/
def timerBlock (s : Block) (off : Bool) (pt : F32) (inn : Bool) (st : List W32) : BlkVal :=
  let pt := flush32 pt
  let was := bitAt (wAt st 1).toNat 0
  let run := bitAt (wAt st 1).toNat 1
  let change := if off then was && !inn else inn && !was
  let start := if change then BitVec.ofNat 32 s.cyc.index else wAt st 0
  let run := if off then (if inn then false else run || change) else inn
  let e := elapsed s start
  let done := run && ((bitAt (wAt st 1).toNat 2 && !change) || fle pt e)
  let et := if done then pt else if run then e else f32Zero
  let q := if off then inn || (run && !done) else inn && done
  outsSt [bW q, et] [start, BitVec.ofNat 32 (b2n inn + 2 * b2n run + 4 * b2n done)]

/-- PULSE: states are the cycle index of the start and flags: bit 0 IN, bit 1 active. -/
def pulseBlock (s : Block) (pt : F32) (inn : Bool) (st : List W32) : BlkVal :=
  let pt := flush32 pt
  let was := bitAt (wAt st 1).toNat 0
  let act := bitAt (wAt st 1).toNat 1 && flt (elapsed s (wAt st 0)) pt
  let go := inn && !was && !act
  let start := if go then BitVec.ofNat 32 s.cyc.index else wAt st 0
  let act := act || (go && flt f32Zero pt)
  outsSt [bW act] [start, BitVec.ofNat 32 (b2n inn + 2 * b2n act)]

def stateBlock (s : Block) (ty : Nat) (x : List W32) (p : Nat → W32) (st : List W32) : Option BlkVal :=
  let i := wAt x
  let y := wAt st 0
  match ty with
  | 0x29 =>
    let w := gmul fTwoPi (fant s (p 0).toNat).freq
    let hw := gmul (tcF s) w
    let d := gadd y (gmul hw (gsub (gmul (p 1) (gsub (i 0) y)) (wAt st 1)))
    let q := gadd (wAt st 1) (gmul hw d)
    some (outsSt [d, q] [d, q])
  | 0x33 =>
    let up := gmul (p 0) (tcF s)
    let dn := gmul (p 1) (tcF s)
    let d := gsub (i 0) y
    let v := if i 1 ≠ 0#32 then i 0
      else if flt up d then gadd y up else if flt d (fneg dn) then gsub y dn else flush32 (i 0)
    some (outsSt [v] [v])
  | 0x34 =>
    let v := if fle (flush32 (p 0)) (flush32 (i 0)) then 1#32 else if fle (flush32 (i 0)) (flush32 (p 1)) then 0#32 else y
    some (outsSt [v] [v])
  | 0x35 =>
    let k := gsub f32One (expF (gneg (gdiv (tcF s) (p 0))))
    let v := if i 1 ≠ 0#32 then i 0 else gadd y (gmul (gsub (i 0) y) k)
    some (outsSt [v] [v])
  | 0x36 => some { outs := [if rise (i 1) y then some (i 0) else none], states := [i 1] }
  | 0x45 =>
    let set := i 0 ≠ 0#32
    let rst := i 1 ≠ 0#32
    let q := if set && rst then p 0 = 0#32 else if set then true else if rst then false else y ≠ 0#32
    some (outsSt [bW q] [bW q])
  | 0x46 =>
    let inn := i 0 ≠ 0#32
    let q := y ≠ 0#32
    let n := if inn = q then 0 else (wAt st 1).toNat + 1
    let flip := inn ≠ q && decide ((if inn then (p 0).toNat else (p 1).toNat) ≤ n)
    let q := if flip then inn else q
    some (outsSt [bW q] [bW q, BitVec.ofNat 32 (if flip then 0 else n)])
  | 0x47 =>
    let k := (p 0).toNat
    some (outsSt [wAt st (k - 1)] ((i 0) :: st.take k))
  | 0x48 => some (timerBlock s (p 0 = 1#32) (p 1) (i 0 ≠ 0#32) st)
  | 0x49 => some (pulseBlock s (p 0) (i 0 ≠ 0#32) st)
  | 0x4A =>
    let c := y.toInt
    let mx := (p 0).toInt
    let c := if rise (i 0) (wAt st 1) then min (c + 1) mx else c
    let c := if rise (i 1) (wAt st 2) then max (c - 1) 0 else c
    let c := if i 2 ≠ 0#32 then 0 else c
    some (outsSt [iW c, bW (c = mx)] [iW c, i 0, i 1])
  | 0x4C => some (outsSt [bW (rise (i 0) y), bW (i 0 = 0#32 && y ≠ 0#32)] [i 0])
  | _ => none

/-! ### Converter quantities (R345) -/

/-- Mean capacitance of the AVAILABLE cells in farads, from C_NOM or the estimate, in 10 µF units. -/
def meanCap (s : Block) (a : Nat) (est : Bool) : F32 :=
  let l := (armCells s a).filter fun (_, c) => c.st = .available
  let c := sumNat (l.map fun (g, c) => if est then c.tent.cEst else bits (tget 0 s.model.cellTab g) 16 16)
  if l.length = 0 then f32Zero else fratio c (100000 * l.length)

def arrangement (s : Block) (side : Nat) : Nat := parN s (0x1000 + side)

def sideEnergy (s : Block) (side : Nat) (x : List W32) : List W32 :=
  let i := wAt x
  let six := arrangement s side = 1 || arrangement s side = 4
  let es := fun (p : Nat) => if six then gadd (i (2 * p)) (i (2 * p + 1)) else flush32 (i p)
  let ed := fun (p : Nat) => if six then gsub (i (2 * p)) (i (2 * p + 1)) else f32Zero
  [es 0, es 1, es 2, ed 0, ed 1, ed 2, gadd (gadd (es 0) (es 1)) (es 2)]

def circCurrent (s : Block) (side : Nat) : List W32 :=
  let i := fun (k : Nat) => (armCurrent s (6 * side + k)).1
  let six := arrangement s side = 1 || arrangement s side = 4
  let half := fun (p : Nat) => gdiv (gadd (i (2 * p)) (i (2 * p + 1))) fTwo
  let sum := fun (f : Nat → F32) => gadd (gadd (f 0) (f 1)) (f 2)
  let idc := if six then sum half else gdiv (sum i) fThree
  let ac := fun (p : Nat) => if six then gsub (i (2 * p)) (i (2 * p + 1)) else i p
  let circ := fun (p : Nat) => if six then gsub (half p) (gdiv idc fThree) else idc
  [ac 0, ac 1, ac 2, circ 0, circ 1, circ 2, idc]

/-- ARM_ENERGY, SIDE_ENERGY and CIRC_CURRENT; a side without an arrangement gives free values. -/
def convBlock (s : Block) (ty : Nat) (x : List W32) (p : Nat → W32) : Option (List W32) :=
  let none_ := arrangement s (p 0).toNat = 0
  let free := (upto 7).map fun k => BitVec.ofNat 32 (Config.freeWord (s.free + k)).toNat
  match ty with
  | 0x50 =>
    let a := (p 0).toNat
    some [gmul (gmul fHalf (meanCap s a (p 1 = 1#32))) (arm s a).vSqSum]
  | 0x51 => some (if none_ then free else sideEnergy s (p 0).toNat x)
  | 0x52 => some (if none_ then free else circCurrent s (p 0).toNat)
  | _ => none

/-- LIMIT: an unbound LO or HI takes LO_P or HI_P (R784). -/
def limitVal (x lo hi : F32) : List W32 :=
  let y := clampN32 x lo hi
  let x := flush32 x
  let sat : Int := if isNaN32 y then 0 else if flt (flush32 hi) x then 1 else if flt x (flush32 lo) then -1 else 0
  [y, iW sat]

/-! ### The expression block (R351 to R354) -/

/-- The machine of an expression program; a state keeps its word until STS writes it. -/
structure ExprSt where
  stack : List F32
  outs : List (Option W32)
  states : List W32
deriving DecidableEq, Repr

/-- A rounding to an integer keeps zeros, infinities, NaN and the sign of a zero result. -/
def toIntegral (f : FV → Int) (a : F32) : F32 :=
  match v32 (flush32 a) with
  | .fin n m e =>
    let r := fofInt (f (.fin n m e))
    if r = f32Zero && n then 0x80000000#32 else r
  | .nan => fNaN
  | _ => a

def truth (a : F32) : Bool := f2b a
def fW (b : Bool) : F32 := if b then f32One else f32Zero

def unOp (op : Nat) (a : F32) : Option F32 :=
  match op with
  | 0x14 => some (gneg a) | 0x15 => some (gabs a) | 0x19 => some (gsqrt a) | 0x1A => some (gdiv f32One a)
  | 0x1B => some (toIntegral fvFloor a) | 0x1C => some (toIntegral fvRne a)
  | 0x1D => some (if isNaN32 a then fNaN else if flt f32Zero (flush32 a) then f32One else if flt (flush32 a) f32Zero then fofInt (-1) else f32Zero)
  | 0x20 => some (sinF a) | 0x21 => some (cosF a)
  | 0x23 => some (expF a) | 0x24 => some (lnF a)
  | 0x3A => some (fW (!truth a))
  | _ => none

def binOp (op : Nat) (a b : F32) : Option F32 :=
  match op with
  | 0x10 => some (gadd a b) | 0x11 => some (gsub a b) | 0x12 => some (gmul a b) | 0x13 => some (gdiv a b)
  | 0x16 => some (minN [a, b]) | 0x17 => some (maxN [a, b])
  | 0x22 => some (atan2F a b)
  | 0x30 => some (fW (cmpOp 0 a b)) | 0x31 => some (fW (cmpOp 1 a b)) | 0x32 => some (fW (cmpOp 2 a b))
  | 0x33 => some (fW (cmpOp 3 a b)) | 0x34 => some (fW (cmpOp 4 a b)) | 0x35 => some (fW (cmpOp 5 a b))
  | 0x38 => some (fW (truth a && truth b)) | 0x39 => some (fW (truth a || truth b))
  | 0x3B => some (fW (truth a != truth b))
  | _ => none

def triOp (op : Nat) (a b c : F32) : Option F32 :=
  match op with
  | 0x18 => some (gfma a b c) | 0x1E => some (clampN32 a b c) | 0x3C => some (if truth a then b else c)
  | _ => none

/-- Operations that take values and give one, by the depth they need; the top of the stack is the head. -/
def arithOp (op : Nat) : List F32 → List F32
  | a :: t =>
    match unOp op a with
    | some r => r :: t
    | none =>
      match t with
      | b :: u =>
        match binOp op b a with
        | some r => r :: u
        | none =>
          match u with
          | c :: w => match triOp op c b a with | some r => r :: w | none => a :: b :: c :: w
          | [] => a :: t
      | [] => a :: t
  | [] => []

/-- LDI: an input as its signal's type gives it. -/
def loadIn (ty : Nat) (w : W32) : F32 := if ty = 1 then i2f w else if ty = 2 then fW (w ≠ 0#32) else flush32 w
/-- STO: a value as the output signal's type takes it. -/
def storeOut (ty : Nat) (a : F32) : W32 := if ty = 1 then f2i a else if ty = 2 then bW (f2b a) else a

/-- One operation other than SKZ and END; `oty` and `sty` give the types of the signals that outputs and states bind. -/
def exprOp (ins : List F32) (consts : List W32) (oty sty : Nat → Nat) (op arg : Nat) (m : ExprSt) : ExprSt :=
  match op, m.stack with
  | 0x00, _ => m
  | 0x01, st => { m with stack := ((ins[arg]?).getD 0#32) :: st }
  | 0x02, st => { m with stack := wAt consts arg :: st }
  | 0x03, st => { m with stack := loadIn (sty arg) ((m.states[arg]?).getD 0#32) :: st }
  | 0x04, a :: st => { m with stack := st, outs := lset m.outs arg (some (storeOut (oty arg) a)) }
  | 0x05, a :: st => { m with stack := st, states := lset m.states arg (storeOut (sty arg) a) }
  | 0x06, a :: st => { m with stack := a :: a :: st }
  | 0x07, _ :: st => { m with stack := st }
  | 0x08, b :: a :: st => { m with stack := a :: b :: st }
  | 0x09, b :: a :: st => { m with stack := a :: b :: a :: st }
  | op, st => { m with stack := arithOp op st }

/-- The program from an operation on, with operations still to skip. -/
def exprRun (ins : List F32) (consts : List W32) (oty sty : Nat → Nat) : List Nat → Nat → ExprSt → ExprSt
  | [], _, m => m
  | _ :: t, n + 1, m => exprRun ins consts oty sty t n m
  | w :: t, 0, m =>
    let op := w % 256
    let arg := w / 256 % 256
    if op = 0x41 then m
    else if op = 0x40 then
      match m.stack with
      | c :: st => exprRun ins consts oty sty t (if truth c then 0 else arg) { m with stack := st }
      | [] => m
    else exprRun ins consts oty sty t 0 (exprOp ins consts oty sty op arg m)

/-- An expression block (R351 to R354); an N_OPS byte of 0 stands for 256 operations (log entry 34). -/
def exprBlock (s : Block) (b : Nat) (x st : List W32) : BlkVal :=
  let l := img s
  let rec0 := (blkPar l b 0).toNat
  let nOps := imgN l rec0 1
  let nc := imgN l (rec0 + 1) 1
  let consts := (upto nc).map fun k => BitVec.ofNat 32 (imgN l (rec0 + 8 + 4 * k) 4)
  let ops := (upto (if nOps = 0 then 256 else nOps)).map fun k => imgN l (rec0 + 8 + 4 * nc + 4 * k) 4
  let pinTy := fun (k : Nat) => let p := blkPin l b k; if p = 0xFFFF then 0 else sigType l p
  let ins := mapIdx (fun k w => loadIn (pinTy k) w) 0 x
  let ni := blkIn l b
  let m := exprRun ins consts (fun k => pinTy (ni + k)) (fun k => pinTy (ni + blkOut l b + k)) ops 0
    { stack := [], outs := (upto (blkOut l b)).map fun _ => none, states := st }
  { outs := m.outs, states := m.states }

/-- The blocks that only compute: what they read and what they give. -/
def valueBlock (s : Block) (b : Nat) : Option BlkVal :=
  let ty := blkType (img s) b
  let x := blkIns s b
  let p := blkPar (img s) b
  let st := blkStates s b
  if ty = 0x70 then some (exprBlock s b x st)
  else if ty = 0x32 then
    some (outs (limitVal (wAt x 0) (pinIn s b 1 (p 0)) (pinIn s b 2 (p 1))))
  else
    match srcBlock s ty p with
    | some l =>
      -- a host setpoint bound to a bool signal gives 1 for any non-zero word (R630)
      let o := blkPin (img s) b (blkIn (img s) b)
      if ty = 0x04 ∧ o ≠ 0xFFFF ∧ sigType (img s) o = 2 then some (outs (l.map fun w => bW (decide (w ≠ 0#32))))
      else some (outs l)
    | none =>
      match mathBlock ty x p with
      | some l => some (outs l)
      | none =>
        match convBlock s ty x p with
        | some l => some (outs l)
        | none => stateBlock s ty x p st

end Sys2Proof.Machine
end

