-- ==== Sys2Proof/Machine/Damsel.lean ====
section
/-!
DEFINITION. Tasks, the Damsel, the blocks that act, message queues and DMA (chapters 9 and 10).
-/

namespace Sys2Proof.Machine

def evTaskOverrun : Nat := 22
def evTaskFault : Nat := 23
def evTaskCancelled : Nat := 24
def evDmaDone : Nat := 25
def evDmaFault : Nat := 26
def evQueueStall : Nat := 27

/-! ### Lists and cores -/

def prioList (s : Block) (p : Nat) : List Nat := tget [] s.dam.prio p
def modPrio (p : Nat) (f : List Nat → List Nat) (s : Block) : Block :=
  { s with dam := { s.dam with prio := tmod [] s.dam.prio p f } }

def freeCore (c : Nat) (s : Block) : Block :=
  modCore c (fun x => { x with task := none, mark := none, wait := .none, begun := false }) s

/-! ### Message queues (R373 to R378) -/

def queue (s : Block) (q : Nat) : QueueSt := tget {} s.dam.queues q
def modQueue (q : Nat) (f : QueueSt → QueueSt) (s : Block) : Block :=
  { s with dam := { s.dam with queues := tmod {} s.dam.queues q f } }
def qDepth (s : Block) (q : Nat) : Nat := parN s (0x6000 + q)
def qBase (s : Block) (q : Nat) : Nat := parN s (0x6040 + q)
def qSrc (s : Block) (q : Nat) : Nat := parN s (0x6080 + q)

/-- No place is free: places that blocked posts have reserved count as taken (R375). -/
def queueFull (s : Block) (q : Nat) : Bool :=
  decide (qDepth s q ≤ (queue s q).fill + (queue s q).waiting.length)

def qSlot (s : Block) (q k : Nat) : Nat := qBase s q + 32 * (((queue s q).head + k) % max 1 (qDepth s q))

/-- The accesses of earlier fabric cycles are past. -/
def queueFresh (q : Nat) (s : Block) : Block :=
  if (queue s q).accAt = fabric s.now + 1 then s
  else modQueue q (fun x => { x with accAt := fabric s.now + 1, entered := [], taken := [], refused := [] }) s

def entryBytes (w : List W32) : List W8 := (upto 8).flatMap fun k => leBytes 4 (wAt w k).toNat

/-- An entry enters the queue (R373): behind the entries of earlier fabric cycles, and among those of this one behind
the accesses that R374 serves before its own. -/
def queueEnter (q : Nat) (p : QPost) (s : Block) : Block :=
  let s := queueFresh q s
  let x := queue s q
  let k := (x.entered.takeWhile fun y => decide (y.rank ≤ p.rank)).length
  let l := x.entered.take k ++ p :: x.entered.drop k
  let base := x.fill - x.entered.length
  let s := forEach (mapIdx (fun i y => (i, y)) k (l.drop k)) (fun (i, y) s =>
    writeBytes (qSlot s q (base + i)) (entryBytes y.w) s) s
  raise (evQueuePost q) (modQueue q (fun x => { x with
    fill := x.fill + 1, fillMax := max x.fillMax (x.fill + 1), entered := l }) s)

/-- The head entry, as it leaves the queue; one that entered in this fabric cycle stays, since takes come first (R374). -/
def queueTake (q : Nat) (s : Block) : Option (List W32 × Block) :=
  let s := queueFresh q s
  if (queue s q).fill ≤ (queue s q).entered.length then none
  else
    let l := readBytes s (qSlot s q 0) 32
    some ((upto 8).map fun k => BitVec.ofNat 32 (leAt l (4 * k) 4),
      modQueue q (fun x => { x with head := (x.head + 1) % max 1 (qDepth s q), fill := x.fill - 1 }) s)

/-- A post or a hardware entry finds the queue full (Table 10-13). -/
def queueStalls (q : Nat) (s : Block) : Block :=
  raiseIf (!(queue s q).stall) evQueueStall (modQueue q (fun x => { x with stall := true }) s)

/-- The entry that entered last in this fabric cycle leaves again. -/
def queueUnenter (q : Nat) (s : Block) : Block :=
  modQueue q (fun x => { x with fill := x.fill - 1, entered := x.entered.dropLast }) s

/-- The task of a post that loses its place can still block on it: it has not ended its release (R375). -/
def postBlocks (s : Block) (p : QPost) : Bool :=
  (core s (p.rank - 4)).task = some p.who || (task s p.who).st = .preempted

/-- The last post of this fabric cycle gives its place up to an access that ranks before it (R374): a task's post blocks
its task, a host's is refused. -/
def queueYield (q : Nat) (p : QPost) (s : Block) : Block :=
  let s := queueStalls q (queueUnenter q s)
  if p.rank = 3 then
    modMbx p.who (fun x => { x with resp := { x.resp with status := 0x0D, item := q } })
      (modQueue q (fun x => { x with refused := x.refused ++ [p] }) s)
  else
    modTask p.who (fun x => { x with st := .blocked })
      (modQueue q (fun x => { x with waiting := x.waiting ++ [(p.who, p.w)] })
        (if (core s (p.rank - 4)).task = some p.who then freeCore (p.rank - 4) s
         else modPrio (tPrio (img s) p.who) (List.filter (· ≠ p.who)) s))

/-- The post of this fabric cycle that an access of a rank takes the place of (log entry 30). -/
def queueBehind (s : Block) (q rank : Nat) : Option QPost :=
  match (queue s q).entered.getLast? with
  | some p =>
    if (queue s q).accAt = fabric s.now + 1 && decide (rank < p.rank) && (p.rank = 3 || (decide (4 ≤ p.rank) && postBlocks s p))
    then some p else none
  | none => none

/-- An access of R374 puts an entry in; false = it finds no place. -/
def queuePut (q : Nat) (p : QPost) (s : Block) : Bool × Block :=
  if !queueFull s q then (true, queueEnter q p s)
  else match queueBehind s q p.rank with
    | some y => (true, queueEnter q p (queueYield q y s))
    | none => (false, s)

/-- The retry of a held entry (R376). -/
def hwRetry (q : Nat) (s : Block) : Block :=
  match (queue s q).hwHeld with
  | some w =>
    match queuePut q { rank := 2, who := 0, w := w } s with
    | (true, s) => modQueue q (fun x => { x with hwHeld := none }) s
    | (false, s) => s
  | none => s

/-- A hardware source offers an entry (R376); one offered while another is held is dropped. -/
def hwOffer (q : Nat) (w : List W32) (s : Block) : Block :=
  let s := hwRetry q s
  if (queue s q).hwHeld.isSome then modQueue q (fun x => { x with lostCnt := satInc 16 x.lostCnt }) s
  else
    match queuePut q { rank := 2, who := 0, w := w } s with
    | (true, s) => s
    | (false, s) =>
      queueStalls q (modQueue q (fun x => { x with hwHeld := some w, stallCnt := satInc 16 x.stallCnt }) s)

/-- A post of the host or of a task: the held entry of the hardware source, which it retries in every fabric cycle, goes
before it (R374, R376). -/
def queuePost (q : Nat) (p : QPost) (s : Block) : Bool × Block := queuePut q p (hwRetry q s)

/-- A host post of mailbox m (R374); one that finds no place is refused, unless a take of the same fabric cycle follows. -/
def hostPost (q m : Nat) (w : List W32) (s : Block) : Bool × Block :=
  let p : QPost := { rank := 3, who := m, w := w }
  match queuePost q p s with
  | (true, s) => (true, s)
  | (false, s) =>
    (false, queueStalls q (modQueue q (fun x => { x with refused := x.refused ++ [p] }) (queueFresh q s)))

/-- A take has freed a place in the fabric cycle in which a host post was refused: takes come first, so the post enters. -/
def refusedEnter (q : Nat) (s : Block) : Block :=
  match (queue s q).refused with
  | p :: rest =>
    match queuePost q p s with
    | (true, s) =>
      modMbx p.who (fun x => { x with resp := { x.resp with status := 0, item := 0 } })
        (modQueue q (fun x => { x with refused := rest }) s)
    | (false, s) => s
  | [] => s

/-- What a take shows at its pins: the words and VALID; without an entry the words keep their values. -/
def takePins (s : Block) (k : QTake) : List (Nat × Option W32) :=
  match k.w with
  | some w => mapIdx (fun i p => (p, some (wAt (w ++ [1#32]) i))) 0 k.pins
  | none => mapIdx (fun i p => (p, some (if i = 8 then 0#32 else sigBefore s p))) 0 k.pins

/-- A take by a core (R374): takes of one fabric cycle come in ascending core number, so it gets the entry of the next
higher core that has taken already, and that one the next entry. -/
def queueTakeBy (q : Nat) (k : QTake) (s : Block) : Block :=
  let s := queueFresh q s
  let (w, s) := match queueTake q s with | some (w, s) => (some w, s) | none => (none, s)
  let old := (queue s q).taken
  let lo := old.filter fun y => decide (y.core ≤ k.core)
  let hi := old.filter fun y => decide (k.core < y.core)
  let all := (k :: hi).zip (hi.map (·.w) ++ [w])
  let l := all.map fun (y, w) => { y with w := w }
  let s := modQueue q (fun x => { x with taken := lo ++ l }) s
  let s := forEach l (fun y s => writePins y.task (takePins s y) s) s
  refusedEnter q s

/-! ### DMA channels (R384 to R391) -/

def dma (s : Block) (c : Nat) : DmaSt := tget {} s.dam.dma c
def modDma (c : Nat) (f : DmaSt → DmaSt) (s : Block) : Block :=
  { s with dam := { s.dam with dma := tmod {} s.dam.dma c f } }

/-- A start; refused while the channel is RUNNING or HALTED (R384). -/
def dmaStart (c part desc : Nat) (s : Block) : Block :=
  modDma c (fun x =>
    if x.st = .idle then
      { x with
          st := .running, outcome := 0, cause := 0, part := part, residual := 0, faultAddr := 0, descAddr := desc,
          fetching := true, src := 0, dst := 0, count := 0, k := 0, ctrl := 0, next := 0 }
    else { x with startsRefused := satInc 32 x.startsRefused }) s

/-- The window records of a partition in force. -/
def windowRec (s : Block) (p w : Nat) : List W8 := tget [] s.par.wins (32 * p + w)

/-- A window of Table 10-6 covers a span with the permission bit. -/
def windowCovers (r : List W8) (a n perm : Nat) : Bool :=
  leAt r 8 4 ≠ 0 && decide (leAt r 0 8 ≤ a) && decide (a + n ≤ leAt r 0 8 + leAt r 8 4) && bitAt (leAt r 12 1) perm

/-- R382 for one granule; partition 0 covers every region (R379, R402). -/
def partAllows (s : Block) (p a perm : Nat) : Bool :=
  p = 0 || (upto 32).any fun w => windowCovers (windowRec s p w) a 32 perm

/-- A fault halts the channel (R388, R389). -/
def dmaHalt (c cause addr residual : Nat) (s : Block) : Block :=
  raise evDmaFault (modDma c (fun x => { x with
    st := .halted, outcome := 3, cause := cause, faultAddr := addr, residual := residual, fetching := false }) s)

/-- Host memory answers with an error, or Bus Master Enable is 0 (R626). -/
def hostFails (s : Block) (err : Nat) : Bool := err = 2 || !s.host.busMaster

/-- The fault of a read of one granule, if any; `win` and `code` are its window and granule-code causes. -/
def readCause (s : Block) (p a err win code : Nat) : Option Nat :=
  match regionOf a with
  | .unmapped => some 7
  | r =>
    if !partAllows s p a 0 then some win
    else if r = .host then (if hostFails s err then some 9 else none)
    else if err = 1 then some code else none

def writeCause (s : Block) (p a : Nat) : Option Nat :=
  match regionOf a with
  | .unmapped => some 7
  | r =>
    if r = .signals then some 8
    else if !partAllows s p a 1 then some 2
    else if r = .host ∧ !s.host.busMaster then some 9 else none

/-- A granule as read: from host memory it is what the host answers. -/
def granule (s : Block) (a : Nat) (host : List W8) : List W8 :=
  if regionOf a = .host then (upto 32).map fun k => (host[k]?).getD 0#8 else readBytes s a 32

/-- Table 10-7 is met. -/
def descOk (l : List W8) : Bool :=
  leAt l 0 8 % 32 = 0 && decide (leAt l 0 8 < 2 ^ 48) && leAt l 8 8 % 32 = 0 && decide (leAt l 8 8 < 2 ^ 48) &&
    decide (1 ≤ leAt l 16 4) && decide (leAt l 16 4 ≤ 2 ^ 20) && decide (leAt l 20 4 < 4) &&
    decide (leAt l 24 8 < 2 ^ 48) && (bitAt (leAt l 20 4) 0 || leAt l 24 8 % 32 = 0)

/-- A descriptor fetch returns (R385, R389); err 1 is a granule-code error, 2 a PCIe completion error. -/
def dmaDescriptorFetchStep (c err : Nat) (host : List W8) (s : Block) : Block :=
  let x := dma s c
  if c < 32 ∧ x.st = .running ∧ x.fetching then
    match readCause s x.part x.descAddr err 4 6 with
    | some k => dmaHalt c k x.descAddr 0 s
    | none =>
      let l := granule s x.descAddr host
      if descOk l then
        modDma c (fun x => { x with
          fetching := false, src := leAt l 0 8, dst := leAt l 8 8, count := leAt l 16 4, ctrl := leAt l 20 4,
          next := leAt l 24 8, k := 0 }) s
      else dmaHalt c 5 x.descAddr 0 s
  else s

/-- A descriptor ends: EVT, then the chain's end or the next descriptor. -/
def descEnd (c : Nat) (s : Block) : Block :=
  let x := dma s c
  let s := raiseIf (bitAt x.ctrl 1) evDmaDone s
  if bitAt x.ctrl 0 then
    modDma c (fun x => { x with st := .idle, outcome := 1, residual := 0 })
      { s with dam := { s.dam with dmaDone := setBit s.dam.dmaDone c true } }
  else modDma c (fun x => { x with fetching := true, descAddr := x.next }) s

/-- The last granule of a chain that an abort of this fabric cycle has stopped (R390). -/
def lastAborted (s : Block) (x : DmaSt) : Bool :=
  match x.aborted with
  | some (t, _) => x.st = .idle && x.outcome = 2 && fabric t = fabric s.now && x.residual = 1 && bitAt x.ctrl 0
  | none => false

/-- A chain completed in the fabric cycle of its abort: the DMA_ABORT returns ALREADY_COMPLETE (R390). -/
def abortAmend (x : DmaSt) (s : Block) : Block :=
  match x.aborted with
  | some (t, m) =>
    if m < 8 ∧ (mbx s m).mstate = 3 ∧ (mbx s m).doneAt = t then
      modMbx m (fun y => { y with resp := { y.resp with status := 1 } }) s
    else s
  | none => s

/-- A granule read returns and its write issues (R386, R388, R390). -/
def dmaGranuleReadStep (c err : Nat) (host : List W8) (s : Block) : Block :=
  let x := dma s c
  let late := lastAborted s x
  if c < 32 ∧ (x.st = .running ∨ late) ∧ !x.fetching then
    let sa := x.src + 32 * x.k
    let da := x.dst + 32 * x.k
    match readCause s x.part sa err 1 3 with
    | some k => dmaHalt c k sa (x.count - x.k) s
    | none =>
      match writeCause s x.part da with
      | some k => dmaHalt c k da (x.count - x.k) s
      | none =>
        let s := modDma c (fun x => { x with k := x.k + 1 }) (writeBytes da (granule s sa host) s)
        let s := if x.k + 1 = x.count then descEnd c s else s
        if late then abortAmend x s else s
  else s

/-- An abort at the granule boundary where the channel stands (R390), asked for by mailbox m (8: none); true =
ALREADY_COMPLETE. -/
def dmaAbort (m c : Nat) (s : Block) : Bool × Block :=
  let x := dma s c
  if x.st = .running then
    (false, modDma c (fun x => { x with
      st := .idle, outcome := 2, residual := if x.fetching then 0 else x.count - x.k, fetching := false,
      aborted := some (s.now, m) }) s)
  else (true, s)

/-- RW1C of DMA_HALT (R391). -/
def dmaHaltClearStep (mask : Nat) (s : Block) : Block :=
  forEach ((upto 32).filter (bitAt mask)) (fun c => modDma c fun x => if x.st = .halted then { x with st := .idle } else x) s

/-! ### Releases (R358 to R364, R75 to R78) -/

def imgTasks (s : Block) : Nat := if (img s).length = 0 then 0 else nTask (img s)

/-- The event a binding source code names (Table 10-3). -/
def srcEvent (src : Nat) : Nat :=
  if src < 0x100 then src
  else if src = 0x100 then evCycStart
  else if src = 0x101 then evAdcReady
  else if src < 0x120 then evRepDone (src - 0x110)
  else if src < 0x200 then evRankDone (src - 0x120)
  else if src < 0x300 then evQueuePost (src - 0x200)
  else evTaskEnd (src - 0x300)

/-- One occurrence of a source at binding k (R359, R360). -/
def bindOccurs (l : List W8) (t : Nat) (x : TaskSt) (k : Nat) : TaskSt :=
  let w := tBind l t k
  let c := tget 0 x.counters k
  { x with
      flags := if c = 0 then setBit x.flags (bits w 0 5) true else x.flags,
      counters := tset 0 x.counters k ((c + 1) % max 1 (bits w 20 8)) }

/-- The flags that a list of raised events sets in a task. -/
def bindAll (l : List W8) (t : Nat) (evs : List Nat) (x : TaskSt) : TaskSt :=
  (upto (tBinds l t)).foldl (fun x k =>
    let n := (evs.filter fun e => e = srcEvent (bits (tBind l t k) 8 12)).length
    (upto n).foldl (fun x _ => bindOccurs l t x k) x) x

def setFlags (evs : List Nat) (s : Block) : Block :=
  forEach (upto (imgTasks s)) (fun t => modTask t (bindAll (img s) t evs)) s

/-- A DMA chain of the task starts (R384). -/
def taskDma (t at_ : Nat) (s : Block) : Block :=
  let l := img s
  if tDmaCh l t < 32 ∧ tDmaAt l t = at_ then dmaStart (tDmaCh l t) (tPart l t) (tDmaDesc l t) s else s

/-! ### One evaluation in a fabric cycle (R64, R362) -/

/-- What the Damsel did in earlier fabric cycles is past. -/
def damselFresh (s : Block) : Block :=
  if s.dam.evalAt = fabric s.now + 1 then s
  else { s with dam := { s.dam with evalAt := fabric s.now + 1, pre := [], preDma := [], grants := [] } }

/-- Keeps a task as it stood before the first release or re-arm of this fabric cycle (R370, R371). -/
def keepPre (t : Nat) (s : Block) : Block :=
  if (tfind s.dam.pre t).isSome then s
  else { s with dam := { s.dam with pre := tput t (task s t) s.dam.pre } }

/-- Keeps the DMA channel that a release of the task starts (R370). -/
def keepDma (t : Nat) (s : Block) : Block :=
  let c := tDmaCh (img s) t
  if c < 32 ∧ (tfind s.dam.preDma c).isNone then { s with dam := { s.dam with preDma := tput c (dma s c) s.dam.preDma } }
  else s

/-- The task is in its list since a release of this fabric cycle. -/
def releasedNow (s : Block) (t : Nat) : Bool := (task s t).st = .ready && decide (fabric (task s t).relAt = fabric s.now)

/-- A released task goes to the end of its list; those of one fabric cycle stand in ascending number (R365). -/
def enterList (s : Block) (t : Nat) : List Nat → List Nat
  | [] => [t]
  | u :: l => if releasedNow s u && decide (t < u) then t :: u :: l else u :: enterList s t l

/-- A release falls on a task whose previous release has not completed (R75, R76, R78). -/
def overrun (t : Nat) (s : Block) : Block :=
  let s := modTask t (fun x => { x with
    ovrCnt := satInc 16 x.ovrCnt, ovrConsec := satInc 8 x.ovrConsec, outcome := 2 }) s
  let s := raise evTaskOverrun s
  if parN s 0x0012 ≤ (task s t).ovrConsec then
    blockArms ((upto 12).filter fun a => sinkTask s a = some t) 8 s
  else s

/-- The mask is met (R362). -/
def flagsHit (l : List W8) (t flags : Nat) : Bool :=
  let m := tMask l t
  if tAll l t then flags &&& m = m else flags &&& m ≠ 0

/-- The release part of R362 for one task. -/
def releaseTask (t : Nat) (s : Block) : Block :=
  let l := img s
  let x := task s t
  if x.st = .cancelled ∨ x.cancelPend then s
  else if x.hitAt = fabric s.now + 1 then
    -- one evaluation in a fabric cycle: the flags that join the hit go with it
    let s := { s with dam := { s.dam with
      pre := s.dam.pre.map fun p => if p.1 = t then (t, { p.2 with flags := p.2.flags ||| x.flags }) else p } }
    modTask t (fun x => { x with flags := clearMask x.flags (tMask l t) }) s
  else if !flagsHit l t x.flags then s
  else
    let s := modTask t (fun x => { x with flags := clearMask x.flags (tMask l t), hitAt := fabric s.now + 1 }) (keepPre t s)
    -- the quiet cycle (R603), a role that releases no task (Table 16-1), HOLD and power entry (R700): the release is
    -- dropped and counts as nothing
    if s.tw.quiet || !isActive s || s.pwr.suppressed then s
    else if x.st = .idle then
      let s := modPrio (tPrio l t) (enterList s t) s
      let s := modTask t (fun y => { y with
        st := .ready, ovrConsec := 0, next := 0, relAt := s.now, relCyc := s.cyc.index, relT0 := s.cyc.t0,
        started := false, held := false }) s
      taskDma t 0 (keepDma t s)
    else overrun t s

/-! ### Dispatch (R365 to R368) -/

def mayRun (l : List W8) (t c : Nat) : Bool := bitAt (tCores l t) c

/-- The first task that a core may run in the highest-priority list that holds one. -/
def nextTask (s : Block) (c : Nat) : Option Nat :=
  ((upto 8).flatMap (prioList s)).find? fun t => mayRun (img s) t c

def dispatchCore (c : Nat) (s : Block) : Block :=
  if (core s c).task.isSome then s
  else
    match nextTask s c with
    | none => s
    | some t =>
      let g : Grant := { core := c, task := t, st := (task s t).st, was := (task s t).core,
                         ahead := (prioList s (tPrio (img s) t)).takeWhile (· ≠ t) }
      let s := { s with dam := { s.dam with grants := s.dam.grants ++ [g] } }
      let s := modPrio (tPrio (img s) t) (List.filter (· ≠ t)) s
      let s := modTask t (fun x => { x with st := .running, core := c }) s
      modCore c (fun x => { x with task := some t, mark := none, wait := .none, givenAt := s.now, begun := false }) s

/-- Puts a task back into its list, behind the tasks that stood ahead of it. -/
def putAfter (ahead : List Nat) (t : Nat) : List Nat → List Nat
  | [] => [t]
  | u :: l => if (u :: l).any ahead.contains then u :: putAfter ahead t l else t :: u :: l

/-- A core has the task and has not begun it: it can still be given another in the same fabric cycle. -/
def notBegun (s : Block) (c t : Nat) : Bool := (core s c).task = some t && !(core s c).begun

/-- A grant of this fabric cycle is withdrawn before the dispatch is worked out anew. -/
def ungrant (g : Grant) (s : Block) : Block :=
  if notBegun s g.core g.task ∧ (task s g.task).st = .running ∧ (task s g.task).core = g.core then
    let s := modTask g.task (fun x => { x with st := g.st, core := g.was }) s
    modPrio (tPrio (img s) g.task) (putAfter g.ahead g.task) (freeCore g.core s)
  else s

/-- The grants and marks of this fabric cycle are withdrawn, the last one first. -/
def ungrantAll (s : Block) : Block :=
  let s := s.dam.grants.reverse.foldl (fun s g => ungrant g s) s
  let s := forEach (upto 16) (fun c s =>
    if (core s c).markAt = fabric s.now + 1 then modCore c (fun x => { x with mark := none }) s else s) s
  { s with dam := { s.dam with grants := [] } }

/-- Marks whose task is no longer READY are withdrawn (R367). -/
def dropMarks (s : Block) : Block :=
  forEach (upto 16) (fun c s =>
    match (core s c).mark with
    | some t => if (task s t).st = .ready then s else modCore c (fun x => { x with mark := none }) s
    | none => s) s

/-- The core that R367 marks for a ready task. -/
def markCore (s : Block) (t : Nat) : Option Nat :=
  let l := img s
  let able := (upto 16).filter fun c =>
    mayRun l t c && (core s c).mark.isNone &&
      (match (core s c).task with | some u => decide (tPrio l t < tPrio l u) | none => false)
  let prioOf : Nat → Nat := fun c => match (core s c).task with | some u => tPrio l u | none => 0
  able.foldl (fun r c => match r with | some d => if prioOf d ≤ prioOf c then some c else r | none => some c) none

def markTask (t : Nat) (s : Block) : Block :=
  if (task s t).st ≠ .ready ∨ (upto 16).any (fun c => (core s c).mark = some t) then s
  else match markCore s t with | some c => modCore c (fun x => { x with mark := some t, markAt := fabric s.now + 1 }) s | none => s

def dispatch (s : Block) : Block :=
  let s := dropMarks (forEach (upto 16) dispatchCore s)
  forEach ((upto 8).flatMap (prioList s)) markTask s

/-- Flags of these events are set in a later fabric cycle than the present one (R362). -/
def flagsLater (evs : List Nat) (s : Block) : Block :=
  { s with dam := { s.dam with later := s.dam.later ++ evs.map fun e => (fabric s.now, e) } }

/-- The Damsel's evaluation (R64, R362): flags, releases, dispatch, for the events that commands of this fabric cycle have
raised and those kept from earlier ones. It runs once in a fabric cycle: worked out again when more events of the cycle
come, it leaves what one evaluation of them all leaves. What it raises itself is seen in a later fabric cycle. -/
def damselEval (raised : List Nat) (s : Block) : Block :=
  let own := fun e => e = evTaskOverrun || e = evTaskCancelled
  let past := fun (p : Nat × Nat) => decide (p.1 < fabric s.now)
  let evs := (s.dam.later.filter past).map (·.2) ++ raised.filter fun e => !own e
  let n := s.ev.raised.length
  let s := damselFresh { s with dam := { s.dam with later := s.dam.later.filter fun p => !past p } }
  let s := flagsLater (raised.filter own) s
  let s := setFlags evs (ungrantAll s)
  let s := forEach (upto (imgTasks s)) releaseTask s
  dispatch (flagsLater (s.ev.raised.drop n) s)

/-! ### The end of a block and of a release (R363, R368, R393, R394) -/

/-- A queue binding sets its flag while its queue holds an entry (R361). -/
def queueFlags (t : Nat) (s : Block) : Block :=
  let l := img s
  forEach (upto (tBinds l t)) (fun k s =>
    let src := bits (tBind l t k) 8 12
    if 0x200 ≤ src ∧ src < 0x300 ∧ (queue s (src - 0x200)).fill ≠ 0 then
      modTask t (fun x => { x with flags := setBit x.flags (bits (tBind l t k) 0 5) true }) s
    else s) s

/-- A release ends with an outcome of Table 10-10. -/
def endRelease (t outcome : Nat) (st : TState) (s : Block) : Block :=
  let s := modTask t (fun x => { x with
    st := st, outcome := outcome, cancelPend := false, next := 0,
    runMax := max x.runMax (clampU 16 ((s.now - x.relAt) / 40)) }) s
  let s := queueFlags t s
  if outcome = 1 ∨ outcome = 5 then taskDma t 1 (raise (evTaskEnd t) s) else s

/-- A task becomes CANCELLED (R369). -/
def cancelled (t outcome : Nat) (s : Block) : Block := raise evTaskCancelled (endRelease t outcome .cancelled s)

/-- A task leaves its core at a block boundary and heads its priority list. -/
def toListHead (t : Nat) (s : Block) : Block :=
  modPrio (tPrio (img s) t) (t :: ·) (modTask t (fun x => { x with st := .preempted }) s)

/-- The end of a block of task t on core c. -/
def finishBlock (c t : Nat) (s : Block) : Block :=
  let s := modTask t (fun x => { x with next := x.next + 1 }) s
  let s := modCore c (fun x => { x with wait := .none }) s
  let x := task s t
  if x.cancelPend then freeCore c (cancelled t 4 s)
  else if (taskBlocks (img s) t).length ≤ x.next then
    freeCore c (endRelease t (if x.held then 5 else 1) .idle s)
  else if (core s c).mark.isSome then freeCore c (toListHead t s)
  else s

/-- The release ends at the faulting block; a pending cancel takes the task to CANCELLED there (R369). -/
def faultEnd (c t outcome : Nat) (s : Block) : Block :=
  freeCore c (if (task s t).cancelPend then cancelled t 4 s else endRelease t outcome .idle s)

/-- A fault strikes block b of task t on core c (R392 to R394); cause 1 GRANULE, 2 ENGINE, 3 RESUME. -/
def blockFault (c t b cause : Nat) (s : Block) : Block :=
  let first := !(task s t).held
  let s := modTask t (fun x => { x with
    faultBlk := b, faultCause := cause, faultCnt := if first then satInc 8 x.faultCnt else x.faultCnt }) s
  let s := raiseIf first evTaskFault s
  let arms := (upto 12).filter fun a => sinkTask s a = some t
  match tPolicy (img s) t with
  | 0 => if cause = 3 then faultEnd c t 6 s else finishBlock c t (modTask t (fun x => { x with held := true }) s)
  | 2 => if arms = [] then faultEnd c t 6 s else faultEnd c t 7 (blockArms arms 9 s)
  | 3 => faultEnd c t 8 (raise evDeclTaskTrip (blockArms (enabledArms s) 9 s))
  | _ => faultEnd c t 6 s

/-! ### Blocks that act (R347 to R350, R344) -/

def pinOr (s : Block) (b k : Nat) (d : W32) : W32 := pinIn s b k d

/-- EVENT_POST: a rising IN raises the source once in a fabric cycle (R348). -/
def eventPost (n : Nat) (s : Block) : Block :=
  if tget 0 s.dam.posted n = fabric s.now + 1 then s
  else raise n { s with dam := { s.dam with posted := tset 0 s.dam.posted n (fabric s.now + 1) } }

def recTap (k : Nat) (v : W32) (s : Block) : Block :=
  { s with graph := { s.graph with taps := tset 0#32 s.graph.taps k v } }

def readbackWrite (k : Nat) (v : W32) (s : Block) : Block :=
  { s with host := { s.host with readback := tset 0#32 s.host.readback k v } }

/-- A task's post on core c: the entry enters, or the task reserves the next place that frees; true = blocked (R374,
R375). -/
def taskPost (q c t : Nat) (w : List W32) (s : Block) : Bool × Block :=
  match queuePost q { rank := 4 + c, who := t, w := w } s with
  | (true, s) => (false, s)
  | (false, s) => (true, queueStalls q (modQueue q (fun x => { x with waiting := x.waiting ++ [(t, w)] }) s))

/-- The post that a task waits for is abandoned (R369). -/
def abandonPost (t : Nat) (s : Block) : Block :=
  forEach (s.dam.queues.map (·.1)) (fun q => modQueue q fun y => { y with waiting := y.waiting.filter fun p => p.1 ≠ t }) s

/-- The task of core c blocks on its post and gives up the core; its block has ended (R375). A pending cancel takes the
task to CANCELLED there, and the post is abandoned (R369). -/
def blockTask (c t : Nat) (s : Block) : Block :=
  if (task s t).cancelPend then freeCore c (cancelled t 4 (abandonPost t s))
  else freeCore c (modTask t (fun x => { x with st := .blocked, next := x.next + 1 }) s)

/-- The call of a GOV_CALL block (Table 7-1, R341). -/
def govReqOf (s : Block) (c t b : Nat) : GovReq :=
  { core := c, task := t, blk := b, loop := (blkPar (img s) b 0).toNat % 64,
    x := pinIn s b 0 0#32, ff := pinIn s b 1 0#32, lo := pinIn s b 2 0#32, hi := pinIn s b 3 0#32,
    reset := pinIn s b 4 0#32 ≠ 0#32, hold := pinIn s b 5 0#32 ≠ 0#32, swap := (pinIn s b 6 (iW (-1))).toInt,
    resp := pinIn s b 7 0#32, at_ := s.now, t0 := s.cyc.t0 }

/-- PSC_SINK block by its MODE (R349). -/
def pscBlock (b : Nat) (x : TaskSt) (s : Block) : Block :=
  let a := (blkPar (img s) b 0).toNat
  let p := pinIn s b 0 0#32
  let d := pinIn s b 1 0#32
  if blkPar (img s) b 1 = 0#32 then pscSink a (some p) (some d) false x.relCyc x.relT0 s
  else
    let same := tget 0 s.graph.lastPeriod b = p.toNat + 1
    let s := { s with graph := { s.graph with lastPeriod := tset 0 s.graph.lastPeriod b (p.toNat + 1) } }
    pscSink a (if same then none else some p) (some d) true x.relCyc x.relT0 s

/-- QUEUE_TAKE block on core c: TAKE unbound reads true (R341). -/
def takeBlock (c b : Nat) (s : Block) : Block :=
  let l := img s
  if pinIn s b 0 1#32 = 0#32 then blkWrite b { outs := (upto 8).map (fun _ => none) ++ [some 0#32] } s
  else
    queueTakeBy (blkPar l b 0).toNat
      { core := Fin.ofNat 17 c, task := blkTask l b, w := none,
        pins := (upto 9).map fun k => if k < blkOut l b then blkPin l b (blkIn l b + k) else 0xFFFF } s

/-- Executes block b of task t on core c to its end, or to the point where it waits. -/
def runBlock (c t b : Nat) (s : Block) : Block :=
  let l := img s
  let p0 := (blkPar l b 0).toNat
  let x0 := pinIn s b 0 0#32
  let x := task s t
  match blkType l b with
  | 0x30 => modCore c (fun y => { y with wait := .gov }) (govEnqueue (govReqOf s c t b) s)
  | 0x31 =>
    let (y, s) := rpcCall p0 x0 (pinIn s b 1 0#32 ≠ 0#32) (pinIn s b 2 0#32 ≠ 0#32) s
    finishBlock c t (blkWrite b (outs [y]) s)
  | 0x60 => finishBlock c t (armInsert p0 (blkPar l b 1).toNat x0 x.relCyc x.relT0 s)
  | 0x61 => finishBlock c t (pscBlock b x s)
  | 0x62 =>
    let post := pinIn s b 2 0#32
    let was := wAt (blkStates s b) 0
    let (full, s) := if rise post was then rampPost p0 (1 + c) { xt := x0, vc := pinIn s b 1 0#32 } s else (false, s)
    finishBlock c t (blkWrite b (outsSt [bW full] [post]) s)
  | 0x63 => finishBlock c t (ftDroopStep p0 x0 s)
  | 0x64 =>
    let was := wAt (blkStates s b) 0
    let s := if rise x0 was then eventPost p0 s else s
    finishBlock c t (blkWrite b (outsSt [] [x0]) s)
  | 0x65 => finishBlock c t (recTap p0 x0 s)
  | 0x66 => finishBlock c t (readbackWrite p0 x0 s)
  | 0x0B => finishBlock c t (takeBlock c b s)
  | 0x67 =>
    if pinIn s b 8 0#32 = 0#32 then finishBlock c t s
    else
      let (blocked, s) := taskPost p0 c t ((upto 8).map fun k => pinIn s b k 0#32) s
      if blocked then blockTask c t s else finishBlock c t s
  | _ =>
    let s' := match valueBlock s b with | some v => blkWrite b v s | none => s
    finishBlock c t { s' with free := s'.free + 8 }

/-- The Fantail and ramp outputs of the cycle are published: at the latest 400 ns after t0 (R291). -/
def publishedNow (s : Block) : Bool := s.cyc.published || decide (s.cyc.t0 + 1600 ≤ s.now)

/-- What a source block has to wait for (R339, R292). -/
def sourceWait (s : Block) (b : Nat) : Wait :=
  match blkType (img s) b with
  | 0x01 => if s.cyc.adcReady then .none else .adc
  | 0x05 => if publishedNow s then .none else .published
  | 0x06 => if publishedNow s then .none else .published
  | _ => .none

/-- The next block of the task on core c executes (R337); `err` is a fault that strikes it: 1 a granule-code error in
a signal or the core's copy, 2 one in the queue entry taken, 3 one in the resume record (R392). -/
def blockExecuteStep (c err : Nat) (s : Block) : Block :=
  match (core s c).task with
  | none => s
  | some t =>
    if (core s c).wait ≠ .none then s
    else
      let resume := (task s t).started && !(core s c).begun
      let s := modCore c (fun x => { x with begun := true }) s
      match (taskBlocks (img s) t)[(task s t).next]? with
      | none => finishBlock c t s
      | some b =>
        if err = 3 ∧ resume then blockFault c t b 3 s
        else
          let w := sourceWait s b
          if w ≠ .none then modCore c (fun x => { x with wait := w }) s
          else
            let s := modTask t (fun x => { x with started := true }) s
            if err = 1 then blockFault c t b 1 s
            else if err = 2 ∧ blkType (img s) b = 0x0B ∧ pinIn s b 0 1#32 ≠ 0#32 then
              match queueTake (blkPar (img s) b 0).toNat s with
              | some (_, s) => blockFault c t b 1 s
              | none => runBlock c t b s
            else runBlock c t b s

/-- The source of a waiting block becomes ready and the block resumes (R339, R292). -/
def blockSourceWaitEndStep (c : Nat) (s : Block) : Block :=
  let go := modCore c fun x => { x with wait := .none }
  match (core s c).wait with
  | .adc => if s.cyc.adcReady then go s else s
  | .published => go { s with cyc := { s.cyc with published := true } }
  | _ => s

/-! ### Standing commands of the effects -/

/-- The head of an engine's queue is evaluated and its block ends (R258, R261, R392). -/
def govCallStep (e err : Nat) (s : Block) : Block :=
  match (engineOf s e).queue with
  | [] => s
  | r :: _ =>
    let (o, s) := govRun r err (modEngine e govPop s)
    let status := iW o.status
    if (core s r.core).task = some r.task ∧ (core s r.core).wait = .gov then
      let s := modCore r.core (fun x => { x with wait := .none }) s
      if o.status = 4 then blockFault r.core r.task r.blk 2 (blkWrite r.blk { outs := [none, none, some status] } s)
      else finishBlock r.core r.task (blkWrite r.blk (outs [o.y, iW o.sat, status]) s)
    else s

def eventPostStep (n : Nat) (s : Block) : Block := if 160 ≤ n ∧ n ≤ 223 then eventPost n s else s
def recTapStep (k : Nat) (v : W32) (s : Block) : Block := if k < 64 then recTap k v s else s
def readbackStep (k : Nat) (v : W32) (s : Block) : Block := if k < 256 then readbackWrite k v s else s

/-- A block takes the head entry into eight signals, and a ninth for VALID, from number `sig` on. -/
def queueTakeStep (q sig : Nat) (s : Block) : Block :=
  queueTakeBy q { core := 16, task := 256, w := none, pins := (upto 9).map (sig + ·) } s

/-- The task of core c posts an entry (R375). -/
def queuePostBlockStep (q c : Nat) (w : List W32) (s : Block) : Block :=
  match (core s c).task with
  | none => s
  | some t =>
    let (blocked, s) := taskPost q c t w s
    if blocked then blockTask c t s else s

/-- A reserved place is free: the first blocked post completes and its task heads its list (R375). -/
def queuePostWaitEndStep (q : Nat) (s : Block) : Block :=
  match (queue s q).waiting with
  | [] => s
  | (t, w) :: rest =>
    if (queue s q).fill < qDepth s q then
      let s := queueEnter q { rank := 1, who := t, w := w } (modQueue q (fun x => { x with waiting := rest }) s)
      if (task s t).st = .blocked then toListHead t s else s
    else s

/-! ### Cancel and re-arm (R369 to R372) -/

/-- The arm switched until an overrun of this fabric cycle blocked it. -/
def overrunNow (x : ArmSt) (now : Nat) : Bool :=
  x.ovrBlock && (match x.blockedAt with | some u => decide (fabric u = fabric now) | none => false)

/-- A cancel of the task is refused: it writes the sink of a switching arm (R372). The cancels of a fabric cycle come
before its releases (R362), so an arm that a release of the cycle has blocked still counts as switching. -/
def cancelRefused (s : Block) (t : Nat) : Bool :=
  (upto 12).any fun a => sinkTask s a = some t && (switching s a || overrunNow (arm s a) s.now)

/-- A release or a re-arm of the task in this fabric cycle yields to a cancel (R370, R371): the task stands as before it,
with the flags that have been set since, and so do its list, its core and its DMA channel. -/
def undoRelease (t : Nat) (s : Block) : Block :=
  let s := damselFresh s
  match tfind s.dam.pre t with
  | none => s
  | some y =>
    let x := task s t
    let flags := y.flags ||| x.flags
    if y.st = .idle ∨ y.st = .cancelled then
      if x.st = .running ∧ !notBegun s x.core t then s
      else
        let s := if x.st = .running then freeCore x.core s else s
        let s := modPrio (tPrio (img s) t) (List.filter (· ≠ t)) s
        let s := match tfind s.dam.preDma (tDmaCh (img s) t) with
          | some d => modDma (tDmaCh (img s) t) (fun _ => d) s
          | none => s
        modTask t (fun x => { y with flags := flags, counters := x.counters }) s
    else
      let s := { s with dam := { s.dam with later := s.dam.later.erase (fabric s.now, evTaskOverrun) } }
      modTask t (fun x => { x with flags := flags, ovrCnt := y.ovrCnt, ovrConsec := y.ovrConsec, outcome := y.outcome }) s

/-- A cancel by the task's state (R369, R370). -/
def cancelTask (t : Nat) (s : Block) : Block :=
  let s := undoRelease t s
  let x := task s t
  let s := modTask t (fun x => { x with cancelAt := some s.now }) s
  match x.st with
  | .idle => raise evTaskCancelled (modTask t (fun x => { x with st := .cancelled }) s)
  | .cancelled => s
  | .ready =>
    cancelled t 3 (modPrio (tPrio (img s) t) (List.filter (· ≠ t)) s)
  | .preempted => cancelled t 4 (modPrio (tPrio (img s) t) (List.filter (· ≠ t)) s)
  | .blocked => cancelled t 4 (abandonPost t s)
  | .running =>
    let c := x.core
    if !(core s c).begun ∧ s.now < (core s c).givenAt + 80 then
      freeCore c (cancelled t (if x.started then 4 else 3) s)
    else modTask t (fun x => { x with cancelPend := true }) s

/-- The write of CANCEL to a task status block (R369, R372). -/
def taskCancelStep (t : Nat) (s : Block) : Block :=
  if t < imgTasks s then
    if cancelRefused s t then modTask t (fun x => { x with cancelRef := true }) s
    else cancelTask t (modTask t (fun x => { x with cancelRef := false }) s)
  else s

/-- A re-arm; one in the fabric cycle of a cancel yields to it (R371). -/
def rearm (clear : Bool) (t : Nat) (s : Block) : Block :=
  let x := task s t
  let same : Bool := match x.cancelAt with | some u => decide (fabric u = fabric s.now) | none => false
  if t < imgTasks s ∧ x.st = .cancelled ∧ !same then
    modTask t (fun x => { x with st := .idle, flags := if clear then 0 else x.flags }) (keepPre t (damselFresh s))
  else s

def taskRearmStep (t : Nat) (s : Block) : Block := rearm false t s
def taskRearmClearStep (t : Nat) (s : Block) : Block := rearm true t s

end Sys2Proof.Machine
end

