-- ==== Sys2Proof/Machine/Adc.lean ====
section
/-!
DEFINITION. Analogue measurement (chapter 11): conversions, cycle values, streams, injected groups, calibration,
test DAC, open wire and the trip comparators.
-/

namespace Sys2Proof.Machine

def evAdcRefReady : Nat := 96
def evAdcRefFault : Nat := 97
def evAdcCalDone : Nat := 98
def evAdcCalFail : Nat := 99
def evAdcCalAbort : Nat := 100
def evAdcInjDone : Nat := 101
def evAdcInjLost : Nat := 102
def evAdcOpenWire : Nat := 103
def evAdcClip : Nat := 104

/-- The cycle values of all four units are in the mirror (R54, R415). -/
def adcReadyStep (s : Block) : Block :=
  if s.cyc.started && !s.cyc.adcReady then
    let s := forEach (upto 64) (fun k s =>
      let x := ainVal s k
      let y := if inSeq s k then mirror s k x else
        { x with valid := false, calIn := false, nConv := 0, extrap := false, clip := false, opened := false, test := false,
                 cycle := s.cyc.index }
      raiseIf (y.opened && !x.opened) evAdcOpenWire
        (raiseIf (y.clip && !x.clip) evAdcClip (modIn k (fun _ => y) s))) s
    raise evAdcReady { s with cyc := { s.cyc with adcReady := true } }
  else s

/-- Conversions older than the cycle that ended at t0 go, but for the two latest of them. -/
def trimConvs (from_ : Nat) (l : List (Nat × Int)) : List (Nat × Int) :=
  lastN 2 (l.filter fun c => decide (c.1 < from_)) ++ l.filter fun c => decide (from_ ≤ c.1)

/-- The latest stream sample of an input. -/
def streamLast (s : Block) (k : Nat) : F32 :=
  match (tget [] s.adc.stream k).getLast? with | some p => p.2 | none => f32Zero

/-- The stream sample i of an input in the cycle (R413); a calibration repeats the last one (R426). -/
def streamSample (k i : Nat) (s : Block) : Block :=
  if k < 64 ∧ i < s.cyc.n ∧ inSeq s k ∧ !stopped s (26 + unitOf k) ∧ s.cyc.started then
    let t := s.cyc.t0 + 2000 * i
    let s := atTime t s
    let x := ainVal s k
    let v := if calRunning (adcUnit s (unitOf k)) then streamLast s k else (instAt k x t).1
    let s := modIn k (fun x => { x with last := v }) s
    let old := (tget [] s.adc.stream k).filter fun p => decide (s.cyc.t0 - s.cyc.lastLen ≤ p.1)
    { s with adc := { s.adc with stream := tset [] s.adc.stream k (old ++ [(t, v)]) } }
  else s

/-- A grid-following Fantail's stream step on the latest samples of its inputs (R297, R417). -/
def ftStreamCmd (i : Nat) (s : Block) : Block :=
  let k := fun n => (ftW s i n).toNat
  let ok := (ainVal s (k 2)).valid && (ainVal s (k 3)).valid && (ainVal s (k 4)).valid
  ftStreamStep i (streamLast s (k 2)) (streamLast s (k 3)) (streamLast s (k 4)) ok s

/-! ### Calibration (R409, R423 to R429) -/

/-- The unit's regular sequence starts anew: R412 sees no older conversion. -/
def clearConvs (u : Nat) (s : Block) : Block :=
  forEach (upto 64) (fun k s => if unitOf k = u then modIn k (fun x => { x with convs := [] }) s else s) s

def calBegin (u : Nat) (s : Block) : Block :=
  modUnit u (fun x => { x with
    calState := if x.pend.isSome || x.conv.isSome then 1 else 2, calAt := s.now, calHeld := false, restarts := 0 }) s

/-- A calibration ends: outcome and cause of Table 11-8; the sequence resumes (R428). -/
def calEnd (u outcome cause : Nat) (s : Block) : Block :=
  let s := if calRunning (adcUnit s u) then clearConvs u s else s
  let s := modUnit u (fun x => { x with
    calState := 0, calHeld := false, outcome := outcome, cause := cause,
    calDone := if outcome = 1 then some s.now else none }) s
  raise (if outcome = 1 then evAdcCalDone else if outcome = 2 then evAdcCalFail else evAdcCalAbort) s

/-- START by Table 11-6: 0 accepted, 1 IN_USE, 2 REF_NOT_READY, 3 BUSY. -/
def calStart (u : Nat) (s : Block) : Nat × Block :=
  let x := adcUnit s u
  if s.seq.state = .energize ∨ s.seq.state = .run ∨ s.seq.state = .discharge then (1, s)
  else if !x.refReady then (2, s)
  else if x.calState ≠ 0 then (3, s)
  else (0, calBegin u s)

def calStartStep (u : Nat) (s : Block) : Block := if u < 4 then (calStart u s).2 else s


/-- Duration of a calibration state (Table 11-5). -/
def calTime : Nat → Nat
  | 2 => 2 * usU
  | 3 => 40 * usU
  | 4 => 60 * usU
  | 5 => 80 * usU
  | 6 => 16 * usU
  | _ => 2 * usU

/-- VERIFY ends in this fabric cycle or has ended: an ABORT comes too late (R429). -/
def verifyEnds (x : AdcUnit) (now : Nat) : Bool :=
  x.calState = 7 && !x.calHeld && decide (fabric (x.calAt + calTime 7) ≤ fabric now)

/-- ABORT (R429); true = ALREADY_COMPLETE. -/
def calAbort (u : Nat) (s : Block) : Bool × Block :=
  if (adcUnit s u).calState = 0 ∨ verifyEnds (adcUnit s u) s.now then (true, s) else (false, calEnd u 3 0 s)

def calAbortStep (u : Nat) (s : Block) : Block := if u < 4 then (calAbort u s).2 else s

/-- CAL_STATE_END (R426, R428): `pass` is the result of VERIFY. -/
def calStateEndStep (u : Nat) (pass : Bool) (s : Block) : Block :=
  let x := adcUnit s u
  if u < 4 ∧ calRunning x ∧ !x.calHeld then
    let s := atTime (x.calAt + calTime x.calState) s
    if x.calState = 7 then calEnd u (if pass then 1 else 2) (if pass then 0 else 1) s
    else modUnit u (fun x => { x with calState := x.calState + 1, calAt := s.now }) s
  else s

/-- No injected group is pending any more: a pending calibration starts, a pre-empted state restarts (R425, R427). -/
def calResume (u : Nat) (s : Block) : Block :=
  let x := adcUnit s u
  if x.pend.isSome || x.conv.isSome then s
  else if x.calState = 1 then modUnit u (fun x => { x with calState := 2, calAt := s.now }) s
  else if x.calHeld then
    let s := modUnit u (fun x => { x with calHeld := false, calAt := s.now, restarts := satInc 8 x.restarts }) s
    if 64 ≤ x.restarts + 1 then calEnd u 2 2 s else s
  else s

/-- REF_READY rises no sooner than 4.0 ms after it fell, or after its unit's power came (R408, R409). -/
def refReadyStep (u : Nat) (s : Block) : Block :=
  if u < 4 ∧ (adcUnit s u).on ∧ !(adcUnit s u).refReady then
    let s := atTime ((adcUnit s u).refFell + 4 * msU) s
    let s := modUnit u (fun x => { x with refReady := true, refAt := s.now, calDone := none }) s
    calBegin u (raise evAdcRefReady s)
  else s

/-- REF_READY clears; a calibration ends FAILED with REF_LOST (R428). -/
def refClear (u : Nat) (s : Block) : Block :=
  let s := modUnit u (fun x => { x with refReady := false, refFell := s.now }) s
  if (adcUnit s u).calState ≠ 0 then calEnd u 2 3 s else s

/-- ADC_REF_FAULT (R408). -/
def adcRefFaultStep (u : Nat) (s : Block) : Block :=
  if u < 4 ∧ (adcUnit s u).refReady then refClear u (raise evAdcRefFault s) else s

def vanaBadStep (u : Nat) (s : Block) : Block := if u < 4 then modUnit u (fun x => { x with vanaBad := true }) s else s
def vanaReturnStep (u : Nat) (s : Block) : Block := if u < 4 then modUnit u (fun x => { x with vanaBad := false }) s else s

/-- BG_CAL_ON of Table 11-8. -/
def bgCalOn (s : Block) (u : Nat) : Bool := parB s (0x7008 + u) && (adcUnit s u).on && !calRunning (adcUnit s u)

/-- SPARE_SLICE_ROTATION (R423, R424): `skew` is the largest residual measured, in ps. -/
def spareSliceRotationStep (u skew : Nat) (s : Block) : Block :=
  if u < 4 ∧ bgCalOn s u then
    let s := atTime ((adcUnit s u).rotAt + 2 * msU) s
    modUnit u (fun x => { x with spare := (x.spare + 1) % 9, rotAt := s.now, skewRes := clampU 16 skew }) s
  else s

/-! ### Injected groups (R419 to R422) -/

def injInputs (s : Block) (u : Nat) : List Nat :=
  ((upto 4).map fun j => parN s (0x7200 + 16 * u + j)).takeWhile (· ≠ 0xFF)
def injTrig (s : Block) (u : Nat) : Nat := parN s (0x7204 + 16 * u)
def injArg (s : Block) (u : Nat) : Nat := parN s (0x7205 + 16 * u)

/-- The queue that takes a unit's records. -/
def injQueue (s : Block) (u : Nat) : Option Nat :=
  (upto 64).find? fun q => qSrc s q = 2 && parN s (0x60C0 + q) = u && qDepth s q ≠ 0

/-- A record of the unit is held (R422). -/
def injHeld (s : Block) (u : Nat) : Bool :=
  match injQueue s u with | some q => (queue s q).hwHeld.isSome | none => false

/-- A trigger of the unit's group with its slot (R419, R421). -/
def injTrigger (u t : Nat) (win : Option Nat) (s : Block) : Block :=
  let x := adcUnit s u
  if (injInputs s u).length = 0 ∨ !x.on then s
  else if x.pend.isSome ∨ x.conv.isSome ∨ injHeld s u ∨ !x.refReady then
    raise evAdcInjLost (modUnit u (fun x => { x with injLost := satInc 16 x.injLost }) s)
  else modUnit u (fun x => { x with pend := some { slot := slotAfter s t, trig := injTrig s u, win := win } }) s

/-- INJ_GO (R419): a HOST trigger. -/
def injGoStep (u : Nat) (s : Block) : Block :=
  if u < 4 ∧ injTrig s u = 1 then injTrigger u (s.now + 40) none s else s

/-- EVENT and TRIP triggers of the events a command raised. -/
def injEvents (evs : List Nat) (s : Block) : Block :=
  forEach (upto 4) (fun u s =>
    let hit := (injTrig s u = 2 && decide (injArg s u < 256) && evs.contains (injArg s u)) ||
      (injTrig s u = 3 && evs.contains (evTripMatrix (injArg s u)))
    if hit then injTrigger u (s.now + 40) none s else s) s

/-- EDGE_WINDOW and EDGE_FRAC triggers of a window whose frame launches (R419, R245). -/
def injWindow (a sAbs : Nat) (s : Block) : Block :=
  forEach (upto 4) (fun u s =>
    let x := adcUnit s u
    if (injTrig s u = 4 || injTrig s u = 5) && injArg s u = a && x.trigS ≠ some sAbs then
      let s := modUnit u (fun x => { x with trigS := some sAbs, pend :=
        match x.pend with | some p => if p.win.isSome && decide (sAbs ≤ p.slot) then none else x.pend | none => none }) s
      -- a calibration that waited for a dropped group goes on
      let s := calResume u s
      let d := parDur s (0x7206 + 16 * u) usU
      if injTrig s u = 4 then injTrigger u (sAbs + d) (some sAbs) s
      else
        match (arm s a).fracEdge with
        | some (w, e) => if w = sAbs then injTrigger u (e + d) (some sAbs) s else s
        | none => s
    else s) s

/-- INJ_GROUP_START (R420): the group takes its first slot; it pre-empts a calibration (R427). -/
def injGroupStartStep (u : Nat) (s : Block) : Block :=
  match (adcUnit s u).pend with
  | none => s
  | some p =>
    let s := atTime p.slot s
    modUnit u (fun x => { x with
      pend := none, calHeld := calRunning x,
      conv := some { slot := p.slot, trig := p.trig, inputs := injInputs s u, cyc := s.cyc.index,
                     cal := calRunning x, codes := [] } }) s

/-- The record of Table 11-4. -/
def injRecord (u : Nat) (c : InjConv) : List W32 :=
  let pairs := c.inputs.zip c.codes
  let clips := maskOf ((mapIdx (fun j p => (j, codeClips p.1 p.2)) 0 pairs).filterMap fun (j, b) => if b then some j else none)
  let vals := pairs.map fun p => f32OfQ (perUnit p.1 p.2)
  [BitVec.ofNat 32 (u + 4 * pairs.length + 32 * c.trig + 256 * b2n c.cal + 512 * clips),
   BitVec.ofNat 32 c.cyc, BitVec.ofNat 32 c.slot] ++ (upto 4).map (wAt vals) ++ [0#32]

/-- The last entry is ready: the record goes to the status block and the queue (R422). -/
def injDone (u : Nat) (c : InjConv) (s : Block) : Block :=
  let r := injRecord u c
  let s := modUnit u (fun x => { x with
    conv := none, injTime := (wAt r 2).toNat, injVal := (upto 4).map fun j => wAt r (3 + j) }) s
  let s := calResume u s
  match injQueue s u with
  | none => raise evAdcInjDone s
  | some q =>
    let s := hwOffer q r s
    if (queue s q).hwHeld.isSome then s else raise evAdcInjDone s

/-- ADC_CONVERSION (R405): the conversion of a slot instant is ready with its code. -/
def adcConversionStep (u slot : Nat) (code : Int) (s : Block) : Block :=
  let x := adcUnit s u
  if u < 4 ∧ x.on ∧ !stopped s (26 + u) ∧ s.cyc.started ∧ s.cyc.t0 - s.cyc.lastLen ≤ slot ∧ (slot + 20 * tcU s - s.cyc.t0) % 20 = 0 then
    let s := atTime (slot + 320) s
    match x.conv with
    | some c =>
      if slot = c.slot + 20 * c.codes.length then
        let c := { c with codes := c.codes ++ [code] }
        if c.codes.length = c.inputs.length then injDone u c s
        else modUnit u (fun x => { x with conv := some c }) s
      else if calRunning x then s
      else
        let k := slotInput s u slot
        modIn k (fun y => { y with convs := trimConvs (s.cyc.t0 - s.cyc.lastLen) y.convs ++ [(slot, code)] }) s
    | none =>
      if calRunning x then s
      else
        let k := slotInput s u slot
        modIn k (fun y => { y with convs := trimConvs (s.cyc.t0 - s.cyc.lastLen) y.convs ++ [(slot, code)] }) s
  else s

/-- HW_SOURCE_RETRY (R376); a record of a unit that enters raises ADC_INJ_DONE (R422). -/
def hwSourceRetryStep (q : Nat) (s : Block) : Block :=
  let was := (queue s q).hwHeld.isSome
  let s := hwRetry q s
  raiseIf (was && (queue s q).hwHeld.isNone && qSrc s q = 2) evAdcInjDone s

/-! ### What a cycle start does (R430, R433) -/

def adcCycle (s : Block) : Block :=
  let s := { s with adc := { s.adc with pullUp := s.cyc.index % 2 = 0 } }
  forEach (upto 4) (fun u s => modUnit u (fun x => { x with
    testPrev := x.test, test := parN s (0x7010 + u), testCode := (parW s (0x7014 + u)).toInt }) s) s

/-- A test selection of an input while cells can switch is refused with IN_USE (R430). -/
def testInUse (s : Block) (v : Nat) : Bool :=
  v ≠ 0xFF && (s.seq.state = .energize || s.seq.state = .run || s.seq.state = .discharge)

/-- What a commit does to the units: which have a new regular sequence or reference mode (R409, R414). -/
def adcCommit (first : Bool) (seqChanged modeChanged : Nat → Bool) (s : Block) : Block :=
  let s := forEach (upto 4) (fun u s =>
    let s := if seqChanged u || modeChanged u || first then
        forEach (upto 64) (fun k s => if unitOf k = u then modIn k (fun _ => {}) s else s) s
      else s
    if modeChanged u then refClear u s else s) s
  { s with adc := { s.adc with ready := true } }

/-! ### Comparators (R435 to R438) -/

def cmpP (s : Block) (j k : Nat) : W32 := parW s (0x7400 + 16 * j + k)
/-- A threshold in microvolts, rounded to 1.0 mV (R436). -/
def cmpThr (s : Block) (j k : Nat) : Int := 1000 * qround (qmul (q32 (cmpP s j k)) (qi 1000))
def cmpHyst (s : Block) (j : Nat) : Int := qround (qmul (q32 (cmpP s j 6)) (qi 1000000))

/-- A level holds for an input in microvolts: outside its thresholds, or not yet back inside by more than the
hysteresis. -/
def levelHolds (was : Bool) (lo hi h v : Int) : Bool :=
  decide (v < lo ∨ hi < v) || (was && !decide (lo + h < v ∧ v < hi - h))

def setCmp (j : Nat) (x : CmpSt) (s : Block) : Block :=
  let s := { s with adc := { s.adc with cmps := tset {} s.adc.cmps j x } }
  { s with trip := { s.trip with l2 := setBit s.trip.l2 j x.l2 } }

/-- The comparator's output follows its levels: level 1 through filter1, or level 2 (R247, R437). -/
def cmpDrive (j : Nat) (s : Block) : Block :=
  let x := tget {} s.adc.cmps j
  if x.l1Out || x.l2 then
    if bitAt s.trip.raw (16 + j) then
      -- level 2 joins an assertion that blanking still hides
      if x.l2 && !bitAt s.trip.acted (16 + j) then tripAct (16 + j) s else s
    else tripRise (16 + j) s
  else if bitAt s.trip.raw (16 + j) then tripFall (16 + j) s else s

/-- CMP_INPUT_CROSS (R435, R437): the input of comparator j now stands at v microvolts. -/
def cmpInputCrossStep (j : Nat) (v : Int) (s : Block) : Block :=
  if j < 16 ∧ cmpP s j 0 ≠ 0#32 then
    let x := tget {} s.adc.cmps j
    let h := cmpHyst s j
    let l1 := levelHolds x.l1.isSome (cmpThr s j 2) (cmpThr s j 3) h v
    let l2 := levelHolds x.l2 (cmpThr s j 4) (cmpThr s j 5) h v
    let y : CmpSt := { l1 := if l1 then (x.l1 <|> some s.now) else none,
                       l1Out := l1 && (x.l1Out || cmpP s j 7 = 0#32), l2 := l2 }
    cmpDrive j (setCmp j y s)
  else s

/-- CMP_LEVEL1 (R437): level 1 has held for filter1. -/
def cmpLevel1Step (j : Nat) (s : Block) : Block :=
  let x := tget {} s.adc.cmps j
  match x.l1 with
  | none => s
  | some t =>
    if j < 16 ∧ cmpP s j 0 ≠ 0#32 ∧ !x.l1Out then
      let s := atTime (t + parDur s (0x7407 + 16 * j) usU) s
      cmpDrive j (setCmp j { x with l1Out := true } s)
    else s

/-- A comparator that is disabled never asserts (R435). -/
def cmpSettle (s : Block) : Block :=
  forEach (s.adc.cmps.map (·.1)) (fun j s => if cmpP s j 0 = 0#32 then cmpDrive j (setCmp j {} s) else s) s

end Sys2Proof.Machine
end

