-- ==== Sys2Proof/Machine/Time.lean ====
section
/-!
DEFINITION. Station time, the PTP instance, its servo and holdover (chapter 18).
-/

namespace Sys2Proof.Machine

def evPtpLock : Nat := 233
def evPtpHoldover : Nat := 234
def evPtpMaster : Nat := 235

def modTime (f : TimeSt → TimeSt) (s : Block) : Block := { s with time := f s.time }

/-! ### Station time (R674 to R680) -/

/-- ST(F) in whole ns. -/
def stAt (t : TimeSt) (f : Nat) : Int :=
  t.base / 2 ^ 32 + ((f : Int) - t.fB) * (2 ^ 40 + t.rate) / 2 ^ 42

/-- Station time now, as a 64-bit count. -/
def stNow (s : Block) : Nat := wrapN 64 (stAt s.time s.now)

/-- The tick boundary at or before now (R673). -/
def tickNow (s : Block) : Nat := s.now / 8 * 8

/-- FRC_LO_READ (R678). -/
def frcLoReadStep (s : Block) : Block :=
  modTime (fun t => { t with latchFrc := tickNow s % 2 ^ 64, latchSt := wrapN 64 (stAt t (tickNow s)) }) s

/-- A step of station time (R676). -/
def stepTime (base : Int) (f : Nat) (s : Block) : Block :=
  modTime (fun t => { t with
    base := base, fB := f, stepSeq := (t.stepSeq + 1) % 2 ^ 16, timeValid := true, everLocked := false }) s

/-- A rate change of this fabric cycle applies anew from the base that a SET_GO of the cycle has set (R680). -/
def rateAfterSet (s : Block) : Block :=
  match s.time.rateWas with
  | some (r, fc) =>
    if fabric fc = fabric s.now then
      modTime (fun t => { t with base := stAt { t with rate := r } fc * 2 ^ 32, fB := fc }) s
    else s
  | none => s

/-- SET_GO (R680). -/
def setGoStep (s : Block) : Block :=
  if s.time.state = .uncalibrated ∨ s.time.state = .slave then modTime (fun t => { t with setRef := true }) s
  else
    rateAfterSet (modTime (fun t => { t with setRef := false })
      (stepTime (((s.time.setHi.toNat * 2 ^ 32 + s.time.setLo.toNat : Nat) : Int) * 2 ^ 32) (tickNow s) s))

/-- RATE_CHANGE (R675): at F_c the base moves to ST(F_c) and the new rate applies. -/
def rateChangeStep (s : Block) : Block :=
  match s.time.rateNew with
  | none => s
  | some (r, fc) =>
    modTime (fun t => { t with base := stAt t fc * 2 ^ 32, fB := fc, rate := r, rateNew := none, rateWas := some (t.rate, fc) }) (atTime fc s)

/-! ### The instance -/

def ptpMode (s : Block) : Nat := parN s 0xE000
def ptpP2P (s : Block) : Bool := parN s 0xE001 = 1
def ptpPrimary (s : Block) : Nat := parN s 0xE004
def ptpBackup (s : Block) : Bool := parB s 0xE005

/-- 2^k seconds in 250 ps units. -/
def pow2Sec (k : Int) : Nat := if 0 ≤ k then sU * 2 ^ k.toNat else sU / 2 ^ (-k).toNat
def announceU (s : Block) : Nat := pow2Sec (sext 8 (parN s 0xE009))
/-- The announce receipt timeout. -/
def announceOutU (s : Block) : Nat := parN s 0xE00A * announceU s

/-- A write to any ptp parameter restarts the instance (R691). -/
def isPtpIdx (i : Nat) : Bool :=
  decide (0xE000 ≤ i ∧ i < 0xE010) || decide (0xE012 ≤ i ∧ i < 0xE016) || decide (0xE020 ≤ i ∧ i < 0xE022)

def ptpRestart (s : Block) : Block :=
  modTime (fun t => { t with
    state := if ptpMode s = 0 then .disabled else .initializing, activePort := ptpPrimary s, ptpLocked := false,
    holdAge := if t.holdover then min (2 ^ 32 - 1) ((s.now - t.holdFrom) / sU) else t.holdAge, holdover := false,
    rateNew := none, fI := r64 (fvOfInt t.rate 0), lockRun := 0, qual := 0, foreign := [], master := none,
    timeout := none, sync := none, lastSync := none, delayReq := none, pdelayReq := none, pdelay := none,
    pathKnown := false, primaryLost := false, txAt := [] }) s

/-- This clock enters MASTER (Table 18-3). -/
def ptpToMaster (s : Block) : Block :=
  if s.time.state = .master then s
  else raise evPtpMaster (modTime (fun t => { t with state := .master, master := none }) s)

/-- An instance in INITIALIZING goes on at its first event. -/
def ptpBegin (s : Block) : Block :=
  if s.time.state = .initializing then
    if ptpMode s = 3 then ptpToMaster s else modTime (fun t => { t with state := .listening }) s
  else s

/-- The instance handles messages: on, and the firmware runs (R668). -/
def ptpRuns (s : Block) : Bool := s.rst.phase = .up && ptpMode s ≠ 0 && s.time.state ≠ .disabled && !s.host.mpRestarting

/-! ### Holdover (R686) -/

def enterHoldover (t : Nat) (s : Block) : Block :=
  if s.time.holdover then modTime (fun x => { x with qual := 0 }) s
  else
    raise evPtpHoldover (modTime (fun x => { x with
      holdover := true, holdFrom := t, ptpLocked := false, rateNew := none, lockRun := 0, qual := 0 }) s)

def holdAge (s : Block) : Nat :=
  if s.time.holdover then min (2 ^ 32 - 1) ((s.now - s.time.holdFrom) / sU) else s.time.holdAge

/-! ### Masters (R681, R683, R686) -/

def foreignOf (s : Block) (p : Nat) : List PtpForeign := tget [] s.time.foreign p

/-- A foreign master whose Announce messages are valid: two in a row, the last within the receipt timeout. -/
def foreignOk (s : Block) (x : PtpForeign) : Bool := decide (2 ≤ x.count) && decide (s.now ≤ x.last + announceOutU s)

/-- The data set of an Announce message as the comparison of IEEE 1588 orders it. -/
def annKey (a : PtpAnn) : List Nat := [a.prio1, a.cls, a.acc, a.var, a.prio2, a.gm, a.steps, a.src, a.srcPort]
def ownKey (s : Block) : List Nat :=
  [parN s 0xE006, 248, 0xFE, Config.clockVar, parN s 0xE007, Config.clockId, 0, Config.clockId, 0]

def keyLt : List Nat → List Nat → Bool
  | a :: l, b :: m => decide (a < b) || (a = b && keyLt l m)
  | _, _ => false

/-- The best valid foreign master of a port. -/
def bestForeign (s : Block) (p : Nat) : Option PtpAnn :=
  ((foreignOf s p).filter (foreignOk s)).foldl (fun r x => match r with
    | some a => if keyLt (annKey x.ann) (annKey a) then some x.ann else some a
    | none => some x.ann) none

/-- BACKUP_OK. -/
def backupOk (s : Block) : Bool := ptpBackup s && (bestForeign s (1 - ptpPrimary s)).isSome

/-- The best master clock algorithm selects a master. -/
def selectMaster (a : PtpAnn) (s : Block) : Block :=
  let same := s.time.master = some (a.src, a.srcPort) ∧ s.time.gmId = a.gm
  let s :=
    if same then s
    else
      let s := if s.time.gmId ≠ a.gm ∧ s.time.gmId ≠ 0 then
          raise evPtpMaster (enterHoldover s.now (modTime (fun t => { t with masterChg := satInc 16 t.masterChg }) s))
        else s
      modTime (fun t => { t with
        state := .uncalibrated, qual := 0, sync := none, lastSync := none, delayReq := none, pathKnown := false }) s
  modTime (fun t => { t with
    master := some (a.src, a.srcPort), gmId := a.gm, utcValid := a.utcValid, utcOffset := a.utc, primaryLost := false }) s

/-- The foreign master that the best master clock algorithm selects on the active port (Table 18-1). -/
def ptpChoice (s : Block) : Option PtpAnn :=
  match ptpMode s, bestForeign s s.time.activePort with
  | 1, some a => if keyLt (annKey a) (ownKey s) then some a else none
  | 2, some a => some a
  | _, _ => none

/-- The state decision on the active port. A clock that takes its own identity over that of the master it had selects a
different grandmaster (R686). -/
def ptpDecide (s : Block) : Block :=
  match ptpChoice s with
  | some a => selectMaster a s
  | none =>
    if ptpMode s = 1 ∧ (bestForeign s s.time.activePort).isSome then
      ptpToMaster (if s.time.master.isSome then enterHoldover s.now s else s)
    else s

def ptpMovePort (p : Nat) (s : Block) : Block :=
  ptpDecide (modTime (fun t => { t with
    activePort := p, portSwitch := satInc 16 t.portSwitch, primaryLost := false, sync := none, lastSync := none, delayReq := none,
    pdelayReq := none, pdelay := none, pathKnown := false }) s)

/-- The active port loses its selected master (R683, R686); t is the instant from which holdover counts. -/
def loseMaster (p t : Nat) (s : Block) : Block :=
  if p ≠ s.time.activePort then s
  else
    let s := modTime (fun x => { x with
      foreign := tset [] x.foreign p ((tget [] x.foreign p).filter fun y => x.master ≠ some (y.ann.src, y.ann.srcPort)) }) s
    if p = ptpPrimary s ∧ ptpBackup s ∧ (bestForeign s (1 - p)).isSome then ptpMovePort (1 - p) s
    else
      let had := s.time.master.isSome
      let lost := s.time.primaryLost || p = ptpPrimary s
      let s := modTime (fun x => { x with master := none, sync := none, lastSync := none, primaryLost := lost }) s
      match ptpChoice s with
      | some a => selectMaster a s
      | none =>
        let s := if had then enterHoldover t s else s
        if ptpMode s = 1 then ptpToMaster s
        else if had then modTime (fun x => { x with state := .listening }) s
        else s

/-- An Announce message brings the instance to its port (R683): to the primary after 16 announce intervals, to the backup
when the primary has lost its master. -/
def ptpMoves (s : Block) (p : Nat) (x : PtpForeign) : Bool :=
  p ≠ s.time.activePort && foreignOk s x &&
    (if p = ptpPrimary s then decide (x.runFrom + 16 * announceU s ≤ s.now) else s.time.primaryLost)

/-- ANNOUNCE (R683). -/
def announceStep (a : PtpAnn) (s : Block) : Block :=
  if !ptpRuns s || decide (2 ≤ a.port) then s
  else
    let s := ptpBegin s
    let s := modTime (fun t => { t with annRx := satInc 16 t.annRx, linkDown := setBit t.linkDown a.port false }) s
    if a.domain ≠ parN s 0xE003 ∨ ptpMode s = 3 ∨ (a.port ≠ ptpPrimary s ∧ !ptpBackup s) then s
    else
      let l := foreignOf s a.port
      let own := fun (x : PtpForeign) => x.ann.src = a.src && x.ann.srcPort = a.srcPort
      let x : PtpForeign := match l.find? own with
        | some x => if s.now ≤ x.last + announceOutU s then { x with ann := a, last := s.now, count := x.count + 1 }
          else { ann := a, last := s.now, runFrom := s.now, count := 1 }
        | none => { ann := a, last := s.now, runFrom := s.now, count := 1 }
      let s := modTime (fun t => { t with
        foreign := tset [] t.foreign a.port (lastN 5 ((l.filter fun x => !own x) ++ [x])) }) s
      if ptpMoves s a.port x then ptpMovePort a.port s else ptpDecide s

/-- The instant at which the selected master's announce receipt timeout passes. -/
def announceEnd (s : Block) : Nat :=
  match s.time.master with
  | some (c, p) =>
    match (foreignOf s s.time.activePort).find? fun x => x.ann.src = c && x.ann.srcPort = p with
    | some x => x.last + announceOutU s
    | none => s.now
  | none => s.now

/-- ANNOUNCE_TIMEOUT (R683, R688). -/
def announceTimeoutStep (p : Nat) (s : Block) : Block :=
  if ptpMode s = 0 ∨ s.time.state = .disabled ∨ p ≠ s.time.activePort then s
  else
    let t := announceEnd s
    if s.host.mpRestarting then modTime (fun x => { x with timeout := some (p, t) }) (atTime t s)
    else if s.rst.phase = .up then loseMaster p t (atTime t (ptpBegin s)) else s

/-- ETH_LINK_LOSS (R683). -/
def ethLinkLossStep (p : Nat) (s : Block) : Block :=
  if 2 ≤ p then s
  else
    let s := modTime (fun t => { t with linkDown := setBit t.linkDown p true, foreign := tset [] t.foreign p [] }) s
    if ptpRuns s then loseMaster p s.now s
    else if s.host.mpRestarting ∧ p = s.time.activePort ∧ s.time.timeout.isNone then
      modTime (fun x => { x with timeout := some (p, s.now) }) s
    else s

/-! ### The servo (R684, R685, R687) -/

/-- A value in units of 2^-16 ns as binary64 ns. -/
def nsD (x : Int) : F64 := r64 (fvOfInt x (-16))

/-- RATE units (2^-40) in one ns per second, times 2^-16 ns. -/
def rateUnit : F64 := r64 (fvRatio (2 ^ 40) (10 ^ 9))

/-- |o| in units of 2^-16 ns against a limit in ns given as binary32 times a whole factor. -/
def offAbove (o : Int) (lim : F32) (k : Nat) : Bool := qlt (qmul (q32 lim) (qi k)) (qf o.natAbs (2 ^ 16))

def clampD (lim x : F64) : F64 := if dlt lim x then lim else if dlt x (dneg lim) then dneg lim else x

/-- One run of the servo on an offset in units of 2^-16 ns. -/
def ptpServo (o : Int) (s : Block) : Block :=
  let s := modTime (fun t => { t with offset := o }) s
  let t := s.time
  if t.holdover then
    let n := t.qual + 1
    if parN s 0xE015 ≤ n then
      modTime (fun t => { t with
        holdAge := holdAge s, holdover := false, qual := 0, state := .slave, fI := r64 (fvOfInt t.rate 0) }) s
    else modTime (fun t => { t with qual := n }) s
  else
    let s := modTime (fun t => { t with state := .slave }) s
    if !t.everLocked && offAbove o (parW s 0xE010) 1000 then
      let b := (stAt t s.now) * 2 ^ 32 - o * 2 ^ 16
      modTime (fun t => { t with fI := 0#64, lockRun := 0, rateNew := none }) (stepTime b s.now s)
    else
      -- lock_thr (R685)
      let run := if offAbove o (parW s 0xE014) 1 then 0 else min 16 (t.lockRun + 1)
      let rise := decide (16 ≤ run) && !t.ptpLocked
      let fall := offAbove o (parW s 0xE014) 4
      let s := raiseIf rise evPtpLock (modTime (fun t => { t with
        lockRun := run, ptpLocked := (t.ptpLocked || decide (16 ≤ run)) && !fall,
        everLocked := t.everLocked || decide (16 ≤ run) }) s)
      -- rate update (R684)
      let h := r64 (fvOfInt 1 (sext 8 (parN s 0xE008)))
      let e := dmul (ddiv (nsD o) h) rateUnit
      let f := dadd t.fI (dmul (f2d (parW s 0xE013)) e)
      let lim := dmul (f2d (parW s 0xE011)) (r64 (fvRatio (2 ^ 40) (10 ^ 6)))
      let r := fvRne (v64 (clampD lim (dadd f (dmul (f2d (parW s 0xE012)) e))))
      let fc := s.now + 1 + Config.rateLead s.free
      modTime (fun t => { t with fI := f, rateNew := some (clampI (-549755814) 549755814 r, fc) }) (useFree s)

/-- Half the asymmetry of a port, in units of 2^-16 ns (Table 18-1). -/
def asymHalf (s : Block) (p : Nat) : Int := qround (qmul (q32 (parW s (0xE020 + p))) (qi (2 ^ 15)))

/-- Station time of an instant in units of 2^-16 ns. -/
def stFine (s : Block) (f : Nat) : Int := stAt s.time f * 2 ^ 16

/-- The origin time of a Sync is complete: an offset measurement once the path delay is known. -/
def syncMeasured (t1 : Int) (rx : Nat) (s : Block) : Block :=
  let s := modTime (fun t => { t with lastSync := some (t1, rx, !t.pathKnown) }) s
  if s.time.pathKnown then ptpServo (stFine s rx - t1 - s.time.meanPath - asymHalf s s.time.activePort) s else s

/-- The message comes from the selected master on the active port in this clock's domain. -/
def fromMaster (s : Block) (m : PtpMsg) : Bool :=
  ptpRuns s && m.port = s.time.activePort && m.domain = parN s 0xE003 && s.time.master = some (m.src, m.srcPort) &&
    (s.time.state = .uncalibrated || s.time.state = .slave)

/-- SYNC (R684): a one-step Sync carries its origin time, a two-step one waits for its Follow_Up. -/
def syncStep (m : PtpMsg) (s : Block) : Block :=
  let s := if ptpRuns s then ptpBegin s else s
  if !fromMaster s m then s
  else
    let s := modTime (fun t => { t with syncRx := satInc 16 t.syncRx }) s
    if m.twoStep then modTime (fun t => { t with sync := some (m.seq, s.now, m.corr) }) s
    else syncMeasured (m.stamp * 2 ^ 16 + m.corr) s.now s

/-- FOLLOW_UP (R681). -/
def followUpStep (m : PtpMsg) (s : Block) : Block :=
  match s.time.sync with
  | some (q, rx, c) =>
    if fromMaster s m && m.seq = q then
      syncMeasured (m.stamp * 2 ^ 16 + m.corr + c) rx (modTime (fun t => { t with sync := none }) s)
    else s
  | none => s

/-- A path delay is known; a Sync that waited for the first one is measured now. -/
def pathMeasured (d : Int) (s : Block) : Block :=
  let s := modTime (fun t => { t with meanPath := d, pathKnown := true }) s
  match s.time.lastSync with
  | some (t1, rx, true) => syncMeasured t1 rx s
  | _ => s

/-- DELAY_RESP (R681): the end-to-end path delay from t1, t2 of the last Sync and t3, t4 of the request. -/
def delayRespStep (m : PtpMsg) (s : Block) : Block :=
  match s.time.delayReq, s.time.lastSync with
  | some (q, tx), some (t1, rx, _) =>
    if fromMaster s m && !ptpP2P s && m.seq = q then
      let d := ((stFine s rx - t1) + (m.stamp * 2 ^ 16 - m.corr - stFine s tx)) / 2
      pathMeasured d (modTime (fun t => { t with delayReq := none }) s)
    else s
  | _, _ => s

/-- A message of the peer delay mechanism on the active port. -/
def peerMsg (s : Block) (m : PtpMsg) : Bool :=
  ptpRuns s && ptpP2P s && m.port = s.time.activePort && m.domain = parN s 0xE003

/-- PDELAY_RESP (R681): a one-step response carries the turnaround in its correction. -/
def pdelayRespStep (m : PtpMsg) (s : Block) : Block :=
  match s.time.pdelayReq with
  | some (q, tx) =>
    if peerMsg s m && m.seq = q then
      if m.twoStep then modTime (fun t => { t with pdelay := some (q, m.stamp * 2 ^ 16 - m.corr, s.now) }) s
      else pathMeasured ((stFine s s.now - stFine s tx - m.corr) / 2) (modTime (fun t => { t with pdelayReq := none }) s)
    else s
  | none => s

/-- PDELAY_RESP_FOLLOW_UP (R681). -/
def pdelayRespFollowUpStep (m : PtpMsg) (s : Block) : Block :=
  match s.time.pdelay, s.time.pdelayReq with
  | some (q, t2, rx), some (_, tx) =>
    if peerMsg s m && m.seq = q then
      let d := ((stFine s rx - stFine s tx) - (m.stamp * 2 ^ 16 + m.corr - t2)) / 2
      pathMeasured d (modTime (fun t => { t with pdelay := none, pdelayReq := none }) s)
    else s
  | _, _ => s

/-! ### Messages sent -/

def ptpKindNo : PtpKind → Nat
  | .sync => 0 | .followUp => 8 | .delayReq => 1 | .delayResp => 9 | .pdelayReq => 2 | .pdelayResp => 3
  | .pdelayRespFollowUp => 10 | .announce => 11

def ptpSend (k : PtpKind) (x : PtpTx) (s : Block) : Block :=
  modTime (fun t => { t with sent := tset {} t.sent (ptpKindNo k) x }) s

/-- The tag of a message: VLAN and priority with POWER_P2P (Table 18-1). -/
def ptpTag (s : Block) : Option (Nat × Nat) := if ptpP2P s then some (parN s 0xE00C, parN s 0xE00D) else none

/-- An answer to a message. -/
def ptpAnswer (m : PtpMsg) (s : Block) : PtpTx :=
  { port := m.port, seq := m.seq, dest := (m.src, m.srcPort), stamp := stAt s.time s.now, tag := ptpTag s }

/-- A message of a periodic kind; an Announce carries this clock's data set. -/
def ptpMessage (k : PtpKind) (n : Nat) (s : Block) : PtpTx :=
  { port := s.time.activePort, seq := n, stamp := stAt s.time s.now, tag := ptpTag s, dataSet := if k = .announce then ownKey s else [] }

/-- DELAY_REQ (R681): answered while master. -/
def delayReqStep (m : PtpMsg) (s : Block) : Block :=
  if ptpRuns s && s.time.state = .master && !ptpP2P s && m.port = s.time.activePort && m.domain = parN s 0xE003 then
    ptpSend .delayResp (ptpAnswer m s) s
  else s

/-- PDELAY_REQ (R681): answered in two steps. -/
def pdelayReqStep (m : PtpMsg) (s : Block) : Block :=
  if peerMsg s m then
    let x := ptpAnswer m s
    ptpSend .pdelayRespFollowUp x (ptpSend .pdelayResp x s)
  else s

/-- A message of a periodic kind that the instance's state sends (Table 18-1): Sync in two steps and Announce as master,
Delay_Req as slave, Pdelay_Req with peer delay. -/
def ptpSends (s : Block) (k : PtpKind) : Bool :=
  match k with
  | .announce | .sync => s.time.state = .master
  | .delayReq => !ptpP2P s && (s.time.state = .uncalibrated || s.time.state = .slave)
  | .pdelayReq => ptpP2P s
  | _ => false

/-- The interval of a periodic kind (Table 18-4). -/
def ptpEvery (s : Block) (k : PtpKind) : Nat :=
  pow2Sec (sext 8 (parN s (match k with | .announce => 0xE009 | .sync => 0xE008 | _ => 0xE00B)))

/-- A periodic message is due an interval after the last of its kind. -/
def ptpTxStart (k : PtpKind) (s : Block) : Block :=
  let s := match tfind s.time.txAt (ptpKindNo k) with | some t => atTime (t + ptpEvery s k) s | none => s
  modTime (fun t => { t with txAt := tput (ptpKindNo k) s.now t.txAt }) s

/-- PTP_TX_INTERVAL (R681). -/
def ptpTxIntervalStep (k : PtpKind) (s : Block) : Block :=
  let s := if ptpRuns s then ptpBegin s else s
  if !(ptpRuns s && ptpSends s k) then s
  else
    let s := ptpTxStart k s
    let n := tget 0 s.time.txSeq (ptpKindNo k)
    let x := ptpMessage k n s
    let s := ptpSend k x (modTime (fun t => { t with txSeq := tset 0 t.txSeq (ptpKindNo k) ((n + 1) % 2 ^ 16) }) s)
    match k with
    | .sync => ptpSend .followUp x s
    | .delayReq => modTime (fun t => { t with delayReq := some (n, s.now) }) s
    | .pdelayReq => modTime (fun t => { t with pdelayReq := some (n, s.now) }) s
    | _ => s

/-- An FRC instant after a load or a trim of the FRC. -/
def shiftAt (d : Int) (f : Nat) : Nat := ((f : Int) + d).toNat

/-- Station time and the instance's instants through a load or trim of the FRC by d (R677): F_B moves with the FRC, and what
has passed since each instant stays what it was. -/
def shiftTime (d : Int) (t : TimeSt) : TimeSt :=
  let at2 := fun (p : Nat × Nat) => (p.1, shiftAt d p.2)
  { t with
    fB := t.fB + d, rateNew := t.rateNew.map fun p => (p.1, shiftAt d p.2), rateWas := t.rateWas.map fun p => (p.1, shiftAt d p.2),
    holdFrom := shiftAt d t.holdFrom,
    foreign := t.foreign.map fun p => (p.1, p.2.map fun x => { x with last := shiftAt d x.last, runFrom := shiftAt d x.runFrom }),
    timeout := t.timeout.map at2, sync := t.sync.map fun p => (p.1, shiftAt d p.2.1, p.2.2),
    lastSync := t.lastSync.map fun p => (p.1, shiftAt d p.2.1, p.2.2), delayReq := t.delayReq.map at2,
    pdelayReq := t.pdelayReq.map at2, pdelay := t.pdelay.map fun p => (p.1, p.2.1, shiftAt d p.2.2), txAt := t.txAt.map at2 }

/-- The firmware resumes after an MP restart: a timeout that passed meanwhile acts now (R688). -/
def ptpResume (s : Block) : Block :=
  match s.time.timeout with
  | some (p, t) => modTime (fun x => { x with timeout := none }) (loseMaster p t s)
  | none => s

/-- SIGNALING and MANAGEMENT are ignored (Table 18-1). -/
def signalingStep (_ : PtpMsg) (s : Block) : Block := s
def managementStep (_ : PtpMsg) (s : Block) : Block := s

end Sys2Proof.Machine
end

