-- ==== Sys2Proof/Machine/Rec.lean ====
section
/-!
DEFINITION. The recorder (chapter 12): arming, rows, samples, conditions, triggers and the capture head.
-/

namespace Sys2Proof.Machine

def evRecTriggered : Nat := 105
def evRecDone : Nat := 106
def evRecWait : Nat := 107
def evRecArmErr : Nat := 108
def evRecInvalid : Nat := 109

/-! ### Buffers (R443, R452, R465) -/

def recBufs (s : Block) : Nat := 2 ^ parN s 0x8000
def recSize (s : Block) : Nat := 0x4000000 / recBufs s
def recBase (s : Block) (b : Nat) : Nat := 0x10000000 + b * recSize s
def recBuf (s : Block) (b : Nat) : RecBuf := tget {} s.recd.bufs b
def modBuf (b : Nat) (f : RecBuf → RecBuf) (s : Block) : Block :=
  { s with recd := { s.recd with bufs := tmod {} s.recd.bufs b f } }
def modRec (f : RecSt → RecSt) (s : Block) : Block := { s with recd := f s.recd }

def ceil32 (n : Nat) : Nat := (n + 31) / 32 * 32

/-- The space that r rows take with the head (R452). -/
def capSpace (l : List RecCh) (r : Nat) : Nat := 4096 + sumNat (l.map fun c => ceil32 (r * c.bytes))

/-- The largest number of rows that fits, bit by bit from the top. -/
def capRowsOf (l : List RecCh) (size : Nat) : Nat :=
  ((upto 27).reverse).foldl (fun r k => if capSpace l (r + 2 ^ k) ≤ size then r + 2 ^ k else r) 0

/-! ### Configuration at an arm (R449 to R452, Table 12-2) -/

def chW (s : Block) (base n : Nat) : Nat := parN s (base + n)
/-- Entries of its unit's sequence that name an input. -/
def seqEntries (s : Block) (k : Nat) : List Nat :=
  (upto (seqLen s (unitOf k))).filter fun e => seqEntry s (unitOf k) e = k

/-- Samples per row of a channel (Table 12-1). -/
def samplesPerRow (s : Block) (src arg arg2 : Nat) : Nat :=
  let nd := s.cyc.n * parN s 0x8001
  match src with
  | 0 => 0
  | 1 => nd / max 1 arg2
  | 2 => 100 * nd / max 1 (seqLen s (unitOf arg))
  | 3 => arg2
  | _ => 1

def srcOk (s : Block) (src arg arg2 : Nat) : Bool :=
  let nd := s.cyc.n * parN s 0x8001
  match src with
  | 0 => true
  | 1 => decide (arg < 64) && inSeq s arg && decide (arg2 ≠ 0) && decide (nd % arg2 = 0)
  | 2 => decide (arg < 64) && (seqEntries s arg).length = 1 && decide (100 * s.cyc.n % seqLen s (unitOf arg) = 0)
  | 3 => decide (1 ≤ arg2) && decide (arg2 ≤ 96) && decide (arg + arg2 ≤ 6144)
  | 4 => decide (arg < 12) && decide (arg2 ≤ 9)
  | 5 => true
  | 6 => decide (arg < 8)
  | 7 => decide (arg < 12)
  | 8 => decide (arg < 12)
  | 9 => decide (arg < 8)
  | 10 => decide (arg < 8)
  | _ => false

/-- dly - est of the cells a CELLS channel covers that are served now, with twice the samples as weight (R450). -/
def cellSkews (s : Block) (g0 n : Nat) : List Q :=
  (upto n).filterMap fun i =>
    let g := g0 + i
    let c := cell s g
    let p := (upto 128).find? fun p => (port s p).st = .serve && (port s p).seg.contains g
    match p with
    | none => none
    | some p =>
      let k := calOf s p c
      match k.dly with
      | some d => if (lastSamples s k).length = 0 then none
        else some (qf (-(estErrSum s k d)) (500 * (lastSamples s k).length))
      | none => none

def compOf (s : Block) (src arg arg2 : Nat) : Int × Nat :=
  if src = 1 ∨ src = 2 then (qround (qmul (q32 (parW s (0x73C0 + arg))) (qi 4000)), 0)
  else if src = 3 then
    let l := cellSkews s arg arg2
    if l.length = 0 then (0, 0)
    else (qround (qmul (l.foldl qadd (qi 0)) (qf 1 l.length)), clampU 16 (maxNat (l.map fun q => (qround (qabs q)).toNat)))
  else (0, 0)

def recChan (s : Block) (n : Nat) : RecCh :=
  let src := chW s 0x8100 n
  let arg := chW s 0x8140 n
  let arg2 := chW s 0x8180 n
  let w := if src ≤ 3 then 2 else 4
  let (comp, spread) := compOf s src arg arg2
  { num := n, src := src, arg := arg, arg2 := arg2, width := w, bytes := w * samplesPerRow s src arg arg2, off := 0,
    comp := comp, spread := spread }

def recChans (s : Block) : List RecCh := ((upto 64).filter fun n => chW s 0x8100 n ≠ 0).map (recChan s)

/-- Offsets of the channel blocks (R465). -/
def placeChans (cap : Nat) : Nat → List RecCh → List RecCh
  | _, [] => []
  | o, c :: t => { c with off := o } :: placeChans cap (o + ceil32 (cap * c.bytes)) t

def recTrgs (s : Block) : List RecTrg :=
  (upto 16).map fun t =>
    let p := fun k => parW s (0x8200 + 8 * t + k)
    { num := t, ty := (p 0).toNat, ch := (p 1).toNat, arg := (p 2).toNat, a := p 3, b := p 4, span := (p 5).toNat,
      fire := p 6 ≠ 0#32 }

/-- A condition passes Table 12-2. -/
def trgOk (l : List RecCh) (t : RecTrg) : Bool :=
  if t.ty = 0 then true
  else if t.ty ≤ 6 then
    match l.find? (·.num = t.ch) with
    | some c => c.src ≠ 5 && c.src ≠ 6 && (c.src ≠ 3 || decide (t.arg < c.arg2))
    | none => false
  else if t.ty = 7 then decide (t.arg < 256)
  else decide (t.arg < 2 ^ t.num)

/-- The first failing check of Table 12-2 with its item; (0, 0) where all pass. A condition OFF with fire = 1 is a condition
with fire = 1. -/
def armCheck (s : Block) (l : List RecCh) (size : Nat) (trgs : List RecTrg) : Nat × Nat :=
  let d := parN s 0x8001
  let bad := (upto 64).find? fun n => !srcOk s (chW s 0x8100 n) (chW s 0x8140 n) (chW s 0x8180 n)
  let cap := capRowsOf l size
  let pre := (qfloor (qmul (qi cap) (q32 (parW s 0x8002)))).toNat
  if 12 * (d * tcU s) < 10 * sumNat (l.map (·.bytes)) then (1, 0)
  else match bad with
    | some n => (2, n)
    | none =>
      if cap < 2 ∨ min (parN s 0x8003) (cap - pre) < 1 then (3, 0)
      else match trgs.find? fun t => !trgOk l t with
        | some t => (4, t.num)
        | none =>
          if !(trgs.any (·.fire)) then (4, 0)
          else if l.length = 0 then (5, 0) else (0, 0)

/-- The first FREE buffer, searched upward from one and around. -/
def freeBuf (s : Block) (from_ : Nat) : Option Nat :=
  ((upto (recBufs s)).map fun i => (from_ + i) % recBufs s).find? fun b => (recBuf s b).bstate = 0

def recArmErr (code item : Nat) (s : Block) : Block :=
  raise evRecArmErr (modRec (fun r => { r with armErr := code, errItem := item }) s)

/-- Takes buffer b and waits for the first row instant (R451). An arm that fails its checks ends a pending re-arm too: the
recorder stays IDLE. -/
def recTake (b : Nat) (manual : Bool) (s : Block) : Block :=
  let l := recChans s
  let trgs := recTrgs s
  let (code, item) := armCheck s l (recSize s) trgs
  if code ≠ 0 then recArmErr code item (modRec (fun r => { r with rearmAt := none }) s)
  else
    let cap := capRowsOf l (recSize s)
    let pre := (qfloor (qmul (qi cap) (q32 (parW s 0x8002)))).toNat
    let post := min (parN s 0x8003) (cap - pre)
    let c : RecCap :=
      { div := parN s 0x8001, capRows := cap, preRows := pre, postRows := post,
        clamped := decide (post < parN s 0x8003), rearm := parB s 0x8004, manual := manual,
        chans := placeChans cap 4096 l, trgs := trgs }
    let s := modBuf b (fun _ => { bstate := 1 }) s
    modRec (fun r => { r with buf := b, armErr := 0, errItem := 0, trg := 0, cap := some c, waiting := true, ended := false }) s

/-- REC_ARM (R451): ignored outside IDLE. -/
def recArmStep (s : Block) : Block :=
  if s.recd.st = 0 ∧ s.recd.cap.isNone then
    match freeBuf s 0 with
    | some b => recTake b true (modRec (fun r => { r with rearmAt := none, fullWait := false }) s)
    | none =>
      let (code, item) := armCheck s (recChans s) (recSize s) (recTrgs s)
      if code ≠ 0 then recArmErr code item s else recArmErr 6 0 s
  else s

/-- REC_REARM (R455). -/
def recRearmStep (s : Block) : Block :=
  match s.recd.rearmAt with
  | some (t, _) =>
    if s.recd.st = 0 ∧ s.recd.cap.isNone ∧ !s.recd.fullWait then
      let s := atTime (t + 1600) s
      match freeBuf s (s.recd.buf + 1) with
      | some b => recTake b false s
      | none => raise evRecWait (modRec (fun r => { r with fullWait := true }) s)
    else s
  | none => s

/-- BUFFER_RELEASE (R467, R455). -/
def bufferReleaseStep (b : Nat) (s : Block) : Block :=
  if b < recBufs s ∧ 2 ≤ (recBuf s b).bstate then
    let s := modBuf b (fun _ => {}) s
    if s.recd.fullWait then recTake b false (modRec (fun r => { r with fullWait := false }) s) else s
  else s

/-! ### Triggers (R453, R461 to R463) -/

def rowLen (c : RecCap) : Nat := c.div * c.tc
/-- The row after the last one of the capture. -/
def endRow (c : RecCap) : Nat := c.stopRow.getD (c.trigRow + c.postRows)
/-- Every row of the capture has ended. -/
def capDone (r : RecSt) (c : RecCap) : Bool := r.st = 3 && decide (endRow c ≤ c.rows)

/-- The row since arm that contains an instant. -/
def rowOf (c : RecCap) (t : Int) : Nat := ((t - (c.start : Int)) / ((max 1 (rowLen c) : Nat) : Int)).toNat

/-- Earlier timestamp first, then the lower condition. -/
def logLt (a b : RecLog) : Bool := decide (a.time < b.time) || (a.time = b.time && decide (a.cond < b.cond))

/-- Enters a firing: entries in order of evaluation, those of one fabric cycle in ascending condition number; the log
holds 16 (R463). -/
def addLog (c : RecCap) (l : RecLog) : RecCap :=
  let before := fun (e : RecLog) => decide (e.evalAt ≠ l.evalAt) || decide (e.cond ≤ l.cond)
  let log := c.log.filter before ++ l :: c.log.filter fun e => !before e
  if c.log.length < 16 then { c with log := log } else { c with log := log.take 16, logOvf := satInc 32 c.logOvf }

/-- The primary and with it the trigger row (R451, R462). The rows before it that the buffer no longer holds are not of
the capture: its pre rows are then fewer than R452 gives. -/
def setPrimary (l : RecLog) (c : RecCap) : RecCap :=
  let oldest := c.rows + 1 - c.capRows
  let row := max oldest (rowOf c l.time)
  { c with prim := l, trigRow := row, first := max oldest (row - c.preRows) }

/-- Firings of one evaluation: ignored outside READY and POST; IGN_PRE of a capture counts its ARMED state (Table 12-4). -/
def recFire (l : List RecLog) (s : Block) : Block :=
  match s.recd.cap, l with
  | _, [] => s
  | none, l => modRec (fun r => { r with ignPre := satAdd 16 r.ignPre l.length }) s
  | some c, f :: t =>
    let n := t.length + 1
    if s.recd.waiting then modRec (fun r => { r with ignPre := satAdd 16 r.ignPre n }) s
    else if s.recd.st < 2 then
      modRec (fun r => { r with
        ignPre := satAdd 16 r.ignPre n, cap := some { c with ignPre := satAdd 32 c.ignPre n } }) s
    else
      let best := t.foldl (fun a b => if logLt b a then b else a) f
      let c1 := (f :: t).foldl addLog c
      if s.recd.st = 2 then
        raise evRecTriggered (modRec (fun r => { r with
          st := 3, cap := some { setPrimary best c1 with trigAt := s.now } }) s)
      else if fabric c.trigAt = fabric s.now ∧ logLt best c.prim then
        modRec (fun r => { r with cap := some (setPrimary best c1) }) s
      else modRec (fun r => { r with cap := some c1 }) s

/-- Conditions in ascending number: `f` gives the new state of those it evaluates; AND and OR are looked at again when the
state of a member changes, `m0` being the states before (R459 to R461). -/
def condScan (m0 : Nat) (f : RecTrg → Option Bool) : List RecTrg → Nat → List Nat → Nat × List Nat
  | [], m, fired => (m, fired)
  | t :: l, m, fired =>
    let was := bitAt m t.num
    let moved : Bool := (m ^^^ m0) &&& t.arg ≠ 0
    let now := match t.ty with
      | 0 => false
      | 8 => if moved then decide (m &&& t.arg = t.arg) else was
      | 9 => if moved then decide (m &&& t.arg ≠ 0) else was
      | _ => (f t).getD was
    condScan m0 f l (setBit m t.num now) (if now && !was && t.fire then fired ++ [t.num] else fired)

def evalConds (f : RecTrg → Option Bool) (time : Int) (s : Block) : Block :=
  match s.recd.cap with
  | none => s
  | some c =>
    let (m, fired) := condScan s.recd.trg f c.trgs s.recd.trg []
    recFire (fired.map fun n => { time := time, cond := n, evalAt := fabric s.now }) (modRec (fun r => { r with trg := m }) s)

/-- The state of a condition on a channel at its latest value (Table 12-3, R460). The difference of a SLOPE condition is
exact; one of a value that is not finite is false. -/
def condOn (t : RecTrg) : Bool :=
  let x := (t.hist.getLast?).getD 0#32
  let old := (t.hist.reverse[t.span]?).getD 0#32
  let d := qsub (q32 x) (q32 old)
  let slope := decide (t.span < t.hist.length) && isFinite32 x && isFinite32 old
  match t.ty with
  | 1 => flt t.a x
  | 2 => flt x t.a
  | 3 => fle t.a x && fle x t.b
  | 4 => flt x t.a || flt t.b x
  | 5 => slope && qlt (q32 t.a) d
  | 6 => slope && qlt d (qneg (q32 t.a))
  | _ => false

/-! ### Samples (R444 to R450, R459) -/

def modCap (f : RecCap → RecCap) (s : Block) : Block := modRec (fun r => { r with cap := r.cap.map f }) s
def modChan (n : Nat) (f : RecCh → RecCh) (s : Block) : Block :=
  modCap (fun c => { c with chans := c.chans.map fun x => if x.num = n then f x else x }) s

/-- The recorder writes rows now. -/
def recording (s : Block) : Bool :=
  match s.recd.cap with | some c => !s.recd.waiting && s.recd.st ≠ 0 && !capDone s.recd c | none => false

/-- A row takes samples: one of the capture, which may have ended by the instant at which they are written (R454). -/
def rowOpen (r : RecSt) (c : RecCap) (row : Nat) : Bool := !r.waiting && r.st ≠ 0 && (r.st ≠ 3 || decide (row < endRow c))

/-- Stores sample i of row `row` of a channel. -/
def recStore (c : RecCap) (x : RecCh) (row i w : Nat) (s : Block) : Block :=
  writeBytes (recBase s s.recd.buf + x.off + (row % max 1 c.capRows) * x.bytes + i * x.width) (leBytes x.width w) s

/-- A sample of a channel is written and its conditions are evaluated; `t` is its instant before COMP. A condition on a
CELLS channel takes element arg of each row alone (R459). -/
def recSample (x : RecCh) (row i w : Nat) (v : F32) (t : Nat) (s : Block) : Block :=
  match s.recd.cap with
  | none => s
  | some c =>
    if !rowOpen s.recd c row then s
    else
      let on := fun (g : RecTrg) => decide (g.ch = x.num ∧ 1 ≤ g.ty ∧ g.ty ≤ 6 ∧ (x.src ≠ 3 ∨ g.arg = i))
      let s := modChan x.num (fun y => { y with prev := w, last := v }) (recStore c x row i w s)
      let s := modCap (fun c => { c with
        trgs := c.trgs.map fun g => if on g then { g with hist := lastN 65 (g.hist ++ [v]) } else g }) s
      evalConds (fun g => if on g then some (condOn g) else none) ((t : Int) - x.comp) s

/-- Runs an operation on each channel of the capture, as it stands when its turn comes. -/
def eachChan (f : RecCap → RecCh → Block → Block) (s : Block) : Block :=
  match s.recd.cap with
  | none => s
  | some c0 =>
    if s.recd.waiting then s
    else forEach (c0.chans.map (·.num)) (fun n s =>
      match s.recd.cap with
      | some c => match c.chans.find? (·.num = n) with | some x => f c x s | none => s
      | none => s) s

/-- The code an ADC sample is stored as (R446). -/
def adcCode (k : Nat) (v : F32) : Int :=
  let q := qround (qmul (q32 v) (qi (if k < 48 then 32768 else 65536)))
  if k < 48 then clampS 16 q else clampI 0 65535 q

def rowStart (c : RecCap) : Nat := c.start + c.rows * rowLen c

/-- A stream sample of an input (Table 12-1, source 1). -/
def recStream (k i : Nat) (v : F32) (t : Nat) (s : Block) : Block :=
  eachChan (fun c x s =>
    let j := c.cyc * c.n + i
    if x.src = 1 ∧ x.arg = k ∧ j % max 1 x.arg2 = 0 then
      let code := adcCode k v
      recSample x c.rows (j / max 1 x.arg2) (wrapN 16 code) (f32OfQ (perUnit k code)) t s
    else s) s

/-- The row and sample index of a raw conversion at a slot instant, if it lies in the capture. -/
def rawPos (s : Block) (c : RecCap) (x : RecCh) (slot : Nat) : Option (Nat × Nat) :=
  let e := seqLen s (unitOf x.arg)
  let row := if rowStart c ≤ slot then some (c.rows, rowStart c)
    else if c.rows ≠ 0 then some (c.rows - 1, rowStart c - rowLen c) else none
  match row with
  | some (r, t) => if t ≤ slot then some (r, (slot - t) / 20 / max 1 e) else none
  | none => none

/-- A regular conversion of an input (source 2). -/
def recRaw (k slot : Nat) (code : Int) (s : Block) : Block :=
  eachChan (fun c x s =>
    if x.src = 2 ∧ x.arg = k then
      match rawPos s c x slot with
      | some (r, i) => recSample x r i (wrapN 16 code) (f32OfQ (perUnit k code)) slot s
      | none => s
    else s) s

/-- A conversion of an input displaced by an injected one (R446). -/
def recGap (k slot : Nat) (s : Block) : Block :=
  eachChan (fun c x s =>
    if x.src = 2 ∧ x.arg = k then
      match rawPos s c x slot with
      | some (r, i) =>
        recSample x r i x.prev x.last slot (modChan x.num (fun y => { y with gaps := satInc 32 y.gaps }) s)
      | none => s
    else s) s

/-- The value a CELLS sample stores (R447). -/
def recCellV (s : Block) (g : Nat) : Nat :=
  let c := cell s g
  if c.ranked then c.rankV else c.vcap.getD 0

/-- Cells of a CELLS channel that an arm ranks, or that no arm ranks (`none`), in a row. -/
def recCells (row : Nat) (a : Option Nat) (s : Block) : Block :=
  eachChan (fun c x s =>
    if x.src = 3 then
      forEach (upto x.arg2) (fun i s =>
        let g := x.arg + i
        let owner := if (cell s g).st = .none then none else some (cellArm s g)
        if owner = a then recSample x row i (recCellV s g) (fratio (recCellV s g) 16) (c.start + row * rowLen c) s else s) s
    else s) s

/-- What an arm's ranking gives a row: CELLS and ARM_AGG (sources 3 and 4). -/
def recArmRow (row a : Nat) (s : Block) : Block :=
  eachChan (fun c x s =>
    if x.src = 4 ∧ x.arg = a then
      let w := wAt (armAgg s a) x.arg2
      let v := if x.arg2 ≤ 2 ∨ x.arg2 = 9 then i2f w else w
      recSample x row 0 w.toNat v (c.start + row * rowLen c) s
    else s) (recCells row (some a) s)

/-- RANK_DONE of an arm in the row's first cycle. `late`: the ranking is that of the previous cycle and ends after t0
(R184), so that its row may be the one before. -/
def recRank (a : Nat) (late : Bool) (s : Block) : Block :=
  match s.recd.cap with
  | none => s
  | some c =>
    if !late then
      if c.cyc = 0 then modCap (fun c => { c with seen := a :: c.seen }) (recArmRow c.rows a s) else s
    else if c.cyc = 1 then recArmRow c.rows a s
    else if c.cyc = 0 ∧ c.div = 1 ∧ c.rows ≠ 0 then recArmRow (c.rows - 1) a s
    else s

/-- The row's first cycle ends: arms that no ranking came from, and whose ranking is not under way, give their present
values (R447: a cell that is not ranked has its last accepted VCAP). -/
def recFirstEnd (s : Block) : Block :=
  match s.recd.cap with
  | none => s
  | some c =>
    forEach ((upto 12).filter fun a => !c.seen.contains a && !rankDue s a) (recArmRow c.rows) s

/-- The samples that a row's end writes (sources 5 to 10). -/
def recRowEnd (s : Block) : Block :=
  eachChan (fun c x s =>
    let put := fun (w : W32) (v : F32) (s : Block) => recSample x c.rows 0 w.toNat v (rowStart c) s
    let a := arm s x.arg
    let e := engineOf s x.arg
    match x.src with
    | 5 => let w := tget 0#32 s.graph.taps x.num; put w w s
    | 6 => put (BitVec.ofNat 32 (bits c.events (32 * x.arg) 32)) 0#32 s
    | 7 => put (iW a.latLast) (fofNat a.latLast) s
    | 8 => put (iW a.winCycle) (fofNat a.winCycle) s
    | 9 => let w := if injBusy e then e.v else 0#32; put w w s
    | 10 => let w := if injBusy e then e.r else 0#32; put w w s
    | _ => s) s

/-- Events raised in the row in progress: the EVENT conditions and the EVENTS channels (R459, R460). -/
def recEvents (evs : List Nat) (s : Block) : Block :=
  match s.recd.cap with
  | none => s
  | some c =>
    let l := evs.filter fun e => decide (e < 256)
    if !recording s || l.length = 0 then s
    else
      let m := l.foldl (fun m e => setBit m e true) c.events
      evalConds (fun g => if g.ty = 7 then some (bitAt m g.arg) else none) s.now
        (modRec (fun r => { r with cap := some { c with events := m } }) s)

/-- A row starts: no event has been raised in it; cells that no arm ranks are written. -/
def recRowStart (s : Block) : Block :=
  match s.recd.cap with
  | none => s
  | some c =>
    let s := modRec (fun r => { r with cap := some { c with events := 0, cyc := 0, seen := [] } }) s
    recCells c.rows none (evalConds (fun g => if g.ty = 7 then some false else none) s.now s)

/-- A cycle of the row ends, and with the last one the row (R444, R454). -/
def recCycleEnd (s : Block) : Block :=
  match s.recd.cap with
  | none => s
  | some c =>
    let s := if c.cyc = 0 then recFirstEnd s else s
    if c.cyc + 1 < c.div then modCap (fun c => { c with cyc := c.cyc + 1 }) s
    else
      -- a STOP in the fabric cycle in which the capture completes comes too late (R456)
      let late : Bool := c.stopRow.isSome && c.rows + 1 = c.trigRow + c.postRows && fabric c.stopAt = fabric s.now
      let s := modCap (fun c => { c with
        rows := c.rows + 1, cyc := 0, stopRow := if late then none else c.stopRow }) (recRowEnd s)
      modRec (fun r => { r with stopLate := r.stopLate || late }) s

/-- What a cycle start does to the recorder (R444, R451, R455). -/
def recCycle (s : Block) : Block :=
  let s := modRec (fun r => { r with sinceDone := r.sinceDone + 1 }) s
  match s.recd.cap with
  | none => s
  | some c =>
    if s.recd.waiting then
      let ok := match s.recd.rearmAt with
        | some (t, d) => c.manual || (decide (t + 1600 ≤ s.cyc.t0) && decide (s.recd.sinceDone % max 1 d = 0))
        | none => true
      if ok then
        let dead := match s.recd.rearmAt with | some (t, _) => if c.manual then 0 else (s.cyc.t0 - t) / 4 | none => 0
        let c := { c with start := s.cyc.t0, startCyc := s.cyc.index, tc := tcU s, n := s.cyc.n, dead := dead }
        recRowStart (modRec (fun r => { r with
          st := 1, waiting := false, cap := some c, rearmAt := none,
          deadTime := if r.rearmAt.isSome then dead else r.deadTime }) s)
      else s
    else if capDone s.recd c then s
    else
      let s := recCycleEnd s
      match s.recd.cap with
      | some c => if c.cyc ≠ 0 ∨ capDone s.recd c then s else recRowStart s
      | none => s

/-- PRE_ROWS_FILLED (R451). -/
def preRowsFilledStep (s : Block) : Block :=
  match s.recd.cap with
  | some c => if s.recd.st = 1 ∧ c.preRows ≤ c.rows then modRec (fun r => { r with st := 2 }) s else s
  | none => s

/-- REC_FORCE (R461): timestamp of the present row instant, condition 0xFF. -/
def recForceStep (s : Block) : Block :=
  match s.recd.cap with
  | some c => recFire [{ time := rowStart c, cond := 255, evalAt := fabric s.now }] s
  | none => modRec (fun r => { r with ignPre := satInc 16 r.ignPre }) s

/-! ### The capture head (R464, Tables 12-4 to 12-6) -/

/-- Banks of a buffer. -/
def bufBanks (s : Block) (b : Nat) : Nat :=
  let w := 8 / recBufs s
  maskOf ((upto w).map fun i => b * w + i)

def headBytes (s : Block) (c : RecCap) (b : RecBuf) (crc : Nat) : List W8 :=
  let forced := c.prim.cond = 255
  let flags := b2n c.clamped + 2 * b2n b.aborted + 4 * b2n b.truncated + 16 * b2n forced
  leBytes 4 0x50434B59 ++ leBytes 2 1 ++ leBytes 2 flags ++ leBytes 1 0 ++ leBytes 1 (bufBanks s s.recd.buf) ++
    leBytes 1 c.chans.length ++ leBytes 1 c.log.length ++ leBytes 4 c.logOvf ++ leBytes 4 c.capRows ++
    leBytes 4 (c.trigRow - c.first) ++ leBytes 4 (c.rows - c.trigRow) ++ leBytes 4 (c.first % max 1 c.capRows) ++
    leBytes 2 c.div ++ leBytes 1 c.n ++ leBytes 1 0 ++ leBytes 4 (c.startCyc + c.first * c.div) ++
    leBytes 8 (c.start + c.first * rowLen c) ++ leBytes 4 b.seq ++ leBytes 4 c.dead ++ leBytes 4 c.ignPre ++
    leBytes 4 crc ++ leBytes 192 0

def logBytes (c : RecCap) (l : RecLog) : List W8 :=
  leBytes 8 (wrapN 64 l.time) ++ leBytes 4 (rowOf c l.time - c.first) ++ leBytes 1 l.cond ++
    leBytes 1 (b2n (l = c.prim)) ++ leBytes 2 0

def chanBytes (x : RecCh) : List W8 :=
  leBytes 1 x.src ++ leBytes 1 x.width ++ leBytes 2 x.arg ++ leBytes 2 x.arg2 ++ leBytes 2 x.spread ++
    leBytes 4 x.bytes ++ leBytes 4 x.off ++ leBytes 4 (wrapN 32 x.comp) ++ leBytes 4 x.gaps ++ leBytes 8 0

/-- The head of 4 KiB; HDR_CRC is taken with its own field 0. -/
def capHead (s : Block) (c : RecCap) (b : RecBuf) : List W8 :=
  let log := (upto 16).flatMap fun j => match c.log[j]? with | some l => logBytes c l | none => leBytes 16 0
  let tab := (upto 64).flatMap fun n => match c.chans.find? (·.num = n) with | some x => chanBytes x | none => leBytes 32 0
  let crc := crc32c (headBytes s c b 0 ++ log ++ tab)
  headBytes s c b crc ++ log ++ tab ++ leBytes 1536 0

/-- A capture becomes HELD and its head is written. One that STOP or a truncation ended raises REC_DONE and counts in
CAPTURES and SEQ too; a truncated one is not complete, and no re-arm follows it (R455, R457). -/
def recHeld (c : RecCap) (aborted truncated : Bool) (s : Block) : Block :=
  let b : RecBuf := { bstate := 2, clamped := c.clamped, aborted := aborted, truncated := truncated, seq := s.recd.seq }
  let s := writeBytes (recBase s s.recd.buf) (capHead s c b) s
  let s := modBuf s.recd.buf (fun _ => b) s
  raise evRecDone (modRec (fun r => { r with
    st := 0, cap := none, ended := true, captures := satInc 16 r.captures, seq := (r.seq + 1) % 2 ^ 32, sinceDone := 0,
    rearmAt := if c.rearm && !truncated then some (s.now, c.div) else none }) s)

/-- A capture that has not triggered is discarded. -/
def recDiscard (s : Block) : Block :=
  modRec (fun r => { r with st := 0, cap := none, waiting := false }) (modBuf s.recd.buf (fun _ => {}) s)

/-- REC_DONE (R454). -/
def recDoneStep (s : Block) : Block :=
  match s.recd.cap with
  | some c =>
    if capDone s.recd c then recHeld c c.stopRow.isSome false (atTime (c.start + c.rows * rowLen c) s) else s
  | none => s

/-- REC_STOP (R456). In IDLE it reports ALREADY_COMPLETE where the last capture begun has become HELD; an ARM that waits for
its row instant is withdrawn. -/
def recStopStep (s : Block) : Block :=
  let s := modRec (fun r => { r with rearmAt := none, fullWait := false, stopLate := false }) s
  match s.recd.cap with
  | none => modRec (fun r => { r with stopLate := r.ended }) s
  | some c =>
    let noRearm := { c with rearm := false }
    if s.recd.st < 3 then recDiscard s
    else if capDone s.recd c then modRec (fun r => { r with stopLate := true, cap := some noRearm }) s
    else modRec (fun r => { r with cap := some { noRearm with
      stopRow := some (min (endRow c) (c.rows + 1)), stopAt := s.now } }) s

/-- A channel of the capture records an input of unit u. -/
def recRecords (s : Block) (u : Nat) : Bool :=
  match s.recd.cap with
  | some c => c.chans.any fun x => (x.src = 1 || x.src = 2) && decide (unitOf x.arg = u)
  | none => false

/-- An arm that waits for its row instant is made anew where the rhythm or a recorded sequence changes (R449). -/
def recRetake (s : Block) : Block :=
  match s.recd.cap with
  | some c => if s.recd.waiting then recTake s.recd.buf c.manual (recDiscard s) else s
  | none => s

/-- A change of rhythm, or of a recorded unit's regular sequence, ends the capture at its last whole row, which may be the
one that ends now (R457). A pending re-arm stands. -/
def recTruncate (s : Block) : Block :=
  match s.recd.cap with
  | none => s
  | some c =>
    if s.recd.waiting then s
    else if s.recd.st = 3 then recHeld { c with trigRow := min c.trigRow c.rows } false (!capDone s.recd c) s
    else recDiscard s

/-- The header of a held capture shows INVALID and RET_FAIL, with HDR_CRC over the head as it then stands (Table 12-4). -/
def headInvalid (a f : Nat) (s : Block) : Block :=
  let s := writeBytes (a + 8) (leBytes 1 f) (writeBytes (a + 6) (leBytes 2 (leAt (readBytes s (a + 6) 2) 0 2 ||| 8)) s)
  let crc := crc32c (readBytes s a 0x3C ++ leBytes 4 0 ++ readBytes s (a + 0x40) 0x9C0)
  writeBytes (a + 0x3C) (leBytes 4 crc) s

/-- A retained bank that failed its check on wake: every buffer that contains it becomes INVALID (R470). -/
def recBankFail (banks : Nat) (s : Block) : Block :=
  let hit := (upto (recBufs s)).filter fun b => (bufBanks s b &&& banks) ≠ 0
  let s := forEach hit (fun b s =>
    let x := recBuf s b
    let f := x.retFail ||| (bufBanks s b &&& banks)
    let s := modBuf b (fun x => { x with bstate := 3, retFail := f }) s
    -- the header shows it where there is one and the buffer's first bank survived
    if x.bstate = 0 ∨ bitAt f (b * (8 / recBufs s)) then s else headInvalid (recBase s b) f s) s
  raiseIf (hit.length ≠ 0) evRecInvalid s

/-- ARMED, READY or POST (R469). -/
def recBusy (s : Block) : Bool := s.recd.st ≠ 0

/-! ### Measurement commands with what the recorder takes of them -/

/-- ADC_CONVERSION (R405) as the units and the recorder take it. -/
def adcConversionCmd (u slot : Nat) (code : Int) (s : Block) : Block :=
  let x := adcUnit s u
  let k := slotInput s u slot
  let inj : Bool := match x.conv with | some c => decide (slot = c.slot + 20 * c.codes.length) | none => false
  let s' := adcConversionStep u slot code s
  if s' = s then s
  else if inj then recGap k slot s'
  else if calRunning x then s'
  else recRaw k slot code s'

/-- ADC_STREAM_SAMPLE (R413) as the units and the recorder take it. -/
def adcStreamSampleCmd (k i : Nat) (s : Block) : Block :=
  let s' := streamSample k i s
  if s' = s then s else recStream k i (streamLast s' k) (s.cyc.t0 + 2000 * i) s'

end Sys2Proof.Machine
end

