-- ==== Sys2Proof/Machine/Spb.lean ====
section
/-!
DEFINITION. The Safe Pulse Block (chapter 15): inputs, states and outputs, feedback, acknowledgement, diagnostics.
-/

namespace Sys2Proof.Machine

def evSpbDemand : Nat := 32
def evSpbClear : Nat := 33
def evSpbInputFault : Nat := 34
def evSpbDiagFault : Nat := 35
def evSpbConfig : Nat := 36
def evSpbPassword : Nat := 37
def evSpbWd : Nat := 38

def modSpb (f : SpbSt → SpbSt) (s : Block) : Block := { s with spb := f s.spb }

/-! ### Inputs (R539 to R544) -/

def siEnabled (s : Block) (k : Nat) : Bool := parB s (0xB000 + k)
def siAntivalent (s : Block) (k : Nat) : Bool := parB s (0xB008 + k)
def siAuto (s : Block) (k : Nat) : Bool := parB s (0xB028 + k)
def siMask (s : Block) (k : Nat) : Nat := parN s (0xB020 + k)
def contactClosed (s : Block) (k : Nat) (b : Bool) : Bool := bitAt s.spb.siContact (2 * k + b2n b)

/-- Contact A or B of an input indicates demand (R539). -/
def indicates (s : Block) (k : Nat) (b : Bool) : Bool :=
  if b && siAntivalent s k then contactClosed s k b else !contactClosed s k b

def siDemandNow (s : Block) (k : Nat) : Bool := indicates s k false || indicates s k true
def siConsistent (s : Block) (k : Nat) : Bool := indicates s k false = indicates s k true
/-- The condition of an input is gone (R555). -/
def siGone (s : Block) (k : Nat) : Bool := siConsistent s k && !siDemandNow s k

/-- SI_DEMAND of Table 15-7: in demand, latched or faulted, of the enabled inputs. -/
def siDemand (s : Block) : Nat := maskOf ((upto 8).filter fun k => siEnabled s k && (bitAt s.spb.siDem k || bitAt s.spb.siFault k))

/-! ### State and outputs (R545 to R548) -/

def soEnabled (s : Block) : Nat := maskOf ((upto 4).filter fun j => parB s (0xB030 + j))

/-- The state that the latched causes and the inputs give (Table 15-2). -/
def spbStateOf (s : Block) : SpbState :=
  if s.spb.st = .killed then .killed
  else if s.spb.latched ≠ 0 then .safe
  else if siDemand s ≠ 0 then .demand else .normal

/-- SO_CMD of a state (Table 15-2). -/
def soOf (s : Block) (st : SpbState) : Nat :=
  match st with
  | .normal => soEnabled s
  | .demand => clearMask (soEnabled s) (((upto 8).filter (bitAt (siDemand s))).foldl (fun m k => m ||| siMask s k) 0)
  | _ => 0

/-- Four BLOCK sets on every port whose transmitter runs (R546). -/
def spbBlockSets (s : Block) : Block :=
  forEach (s.ports.map (·.1)) blockPort (modSpb (fun x => { x with lastBlock := s.now }) s)

/-- Commands the outputs of the present state; a change restarts the readback and feedback times. -/
def driveSo (s : Block) : Block :=
  let v := soOf s s.spb.st
  let ch := (upto 4).filter fun j => bitAt v j != bitAt s.spb.soCmd j
  modSpb (fun x => { x with soCmd := v, soAt := ch.foldl (fun t j => tset 0 t j s.now) x.soAt }) s

/-- Enters a state: BLOCK sets, the entry count, the arms, the events (R546, R548, R572). -/
def spbEnter (st : SpbState) (s : Block) : Block :=
  let old := s.spb.st
  if old = st then driveSo s
  else
    let s := driveSo (modSpb (fun x => { x with st := st }) s)
    if st = .normal then raise evSpbClear s
    else
      let s := raiseIf (old = .normal) evSpbDemand s
      let s := if st = .demand ∨ st = .safe then
          -- the reaction time to BLOCK is measured: a free value within the bound of R537
          let r := (Config.freeWord s.free).toNat % 10001
          useFree (modSpb (fun x => { x with
            demandCnt := satInc 16 x.demandCnt, reactLast := r, reactMax := max x.reactMax r }) s)
        else s
      let s := spbBlockSets s
      blockArms ((enabledArms s).filter fun a => switching s a || (arm s a).deblockWait.isSome) 2 s

def spbSettle (s : Block) : Block := if s.spb.st = .startup then driveSo s else spbEnter (spbStateOf s) s

/-- The status of an SPB_ACK that completed in this fabric cycle becomes DEMAND_ACTIVE (R556). -/
def ackAmend (cause item : Nat) (s : Block) : Block :=
  match s.spb.ackBy with
  | some (t, m) =>
    if fabric t = fabric s.now ∧ (mbx s m).mstate = 3 ∧ (mbx s m).doneAt = t then
      modMbx m (fun x => { x with resp := { x.resp with status := 0x16, detail := cause, item := item } }) s
    else s
  | none => s

/-- A demand or a fault has arisen: the most recent cause, and the items new in the fabric cycle (R556). -/
def spbNew (cause item : Nat) (s : Block) : Block :=
  let t := fabric s.now + 1
  ackAmend cause item (modSpb (fun x => { x with
    cause := cause, causeItem := item, newAt := t,
    newItems := (if x.newAt = t then x.newItems else []) ++ [(cause, item)] }) s)

/-- An item is new in this fabric cycle, so that an acknowledgement leaves it (R556). -/
def spbIsNew (s : Block) (cause item : Nat) : Bool := s.spb.newAt = fabric s.now + 1 && s.spb.newItems.contains (cause, item)

/-- Latches a cause of the whole block. -/
def spbLatch (cause item : Nat) (s : Block) : Block :=
  let s := spbNew cause item (modSpb (fun x => { x with latched := setBit x.latched cause true }) s)
  raiseIf (4 ≤ cause && cause ≤ 8) evSpbDiagFault s

/-- An input faults (R542 to R544). -/
def inputFault (k cause : Nat) (s : Block) : Block :=
  if bitAt s.spb.siFault k then s
  else raise evSpbInputFault (spbNew cause k (modSpb (fun x => { x with siFault := setBit x.siFault k true }) s))

/-- The demand of an input from its contacts (R541, R553). -/
def siEval (k : Nat) (s : Block) : Block :=
  if !siEnabled s k then s
  else
    let s := modSpb (fun x => { x with
      disc := if siConsistent s k then tdel x.disc k
        else if (tfind x.disc k).isSome then x.disc else tput k s.now x.disc }) s
    if siDemandNow s k then
      if bitAt s.spb.siDem k then s
      else spbNew 1 k (modSpb (fun x => { x with siDem := setBit x.siDem k true }) s)
    else if siAuto s k ∧ siGone s k then modSpb (fun x => { x with siDem := setBit x.siDem k false }) s
    else s

/-- The contact's test window is open (R542). -/
def inWindow (s : Block) (b : Bool) : Bool :=
  bitAt s.spb.window (b2n b) && decide (s.now < tget 0 s.spb.pulseAt (b2n b) + 8000)

/-- SI_CHANGE (R540, R541): a change of contact A or B of input k is taken, once the new level has held for the input's
filter: no sooner than the filter's time after the change taken before it, and outside the test window. -/
def siChangeStep (k : Nat) (b closed : Bool) (s : Block) : Block :=
  if k < 8 ∧ s.spb.st ≠ .killed ∧ closed ≠ contactClosed s k b then
    let i := 2 * k + b2n b
    let s := match tfind s.spb.contactAt i with
      | some t => atTime (t + parDur s (0xB018 + k) usU) s
      | none => s
    if inWindow s b then s
    else
      let s := modSpb (fun x => { x with siContact := setBit x.siContact i closed, contactAt := tput i s.now x.contactAt }) s
      spbSettle (siEval k s)
  else s

/-- TEST_PULSE (R542): SPT0 or SPT1 goes low; the test windows of its contacts open. -/
def testPulseStep (b : Bool) (s : Block) : Block :=
  let i := b2n b
  let s := match tfind s.spb.pulseAt i with
    | some t => atTime (t + 50 * msU) s
    | none => match tfind s.spb.pulseAt (1 - i) with | some t => atTime (t + 25 * msU) s | none => s
  modSpb (fun x => { x with pulseAt := tput i s.now x.pulseAt, window := setBit x.window i true }) s

/-- TEST_WINDOW_END (R542): `opened` are the inputs whose contact read open in the window. -/
def testWindowEndStep (b : Bool) (opened : Nat) (s : Block) : Block :=
  let i := b2n b
  if bitAt s.spb.window i ∧ s.spb.st ≠ .killed then
    let s := atTime (tget 0 s.spb.pulseAt i + 8000) s
    let s := modSpb (fun x => { x with window := setBit x.window i false }) s
    let bad := (upto 8).filter fun k => siEnabled s k && contactClosed s k b && !bitAt opened k
    let s := forEach bad (fun k s =>
      inputFault k 3 (modSpb (fun x => { x with tpFail := setBit x.tpFail (2 * k + i) true }) s)) s
    spbSettle s
  else s

/-- DISCREPANCY (R543). -/
def discrepancyStep (k : Nat) (s : Block) : Block :=
  match tfind s.spb.disc k with
  | some t =>
    if k < 8 ∧ siEnabled s k ∧ s.spb.st ≠ .killed then
      spbSettle (inputFault k 2 (atTime (t + parDur s (0xB010 + k) msU) s))
    else s
  | none => s

/-- BLOCK_REPEAT (R546, R547). -/
def blockRepeatStep (s : Block) : Block :=
  match s.spb.st with
  | .normal => s
  | .killed => spbBlockSets s
  | _ => spbBlockSets (atTime (s.spb.lastBlock + parDur s 0xB061 usU) s)

/-! ### Outputs and feedback (R551, R552) -/

/-- SO_READBACK (R551): output j reads back at a level; a mismatch is one beyond 1.0 ms. -/
def soReadbackStep (j : Nat) (level : Bool) (s : Block) : Block :=
  if j < 4 then
    let s := modSpb (fun x => { x with soRb := setBit x.soRb j level }) s
    if level = bitAt s.spb.soCmd j ∨ s.spb.st = .killed ∨ s.spb.st = .startup then s
    else
      let s := atTime (tget 0 s.spb.soAt j + msU) s
      spbSettle (spbLatch 4 j (modSpb (fun x => { x with soFault := setBit x.soFault j true }) s))
  else s

/-- The device that FB input j monitors differs from its expectation (R552). -/
def fbDiffers (s : Block) (j : Nat) : Bool :=
  let on := bitAt s.spb.soCmd (parN s (0xB040 + j))
  let closed := bitAt s.spb.fbState j
  if parB s (0xB050 + j) then !on && closed else on != closed

/-- FB_CHANGE (R552): the debounced level of FB input j changes, no sooner than 1.0 ms after the change before it. -/
def fbChangeStep (j : Nat) (closed : Bool) (s : Block) : Block :=
  let shows := closed != parB s (0xB048 + j)
  if j < 8 ∧ shows ≠ bitAt s.spb.fbState j then
    let s := match tfind s.spb.fbAt j with | some t => atTime (t + msU) s | none => s
    modSpb (fun x => { x with fbState := setBit x.fbState j shows, fbAt := tput j s.now x.fbAt }) s
  else s

/-- FEEDBACK (R552). -/
def feedbackStep (j : Nat) (s : Block) : Block :=
  if j < 8 ∧ parB s (0xB038 + j) ∧ fbDiffers s j ∧ s.spb.st ≠ .killed ∧ s.spb.st ≠ .startup then
    let so := parN s (0xB040 + j)
    let s := atTime (max (tget 0 s.spb.soAt so) (tget 0 s.spb.fbAt j) + parDur s (0xB058 + j) msU) s
    spbSettle (spbLatch 5 j (modSpb (fun x => { x with fbFault := setBit x.fbFault j true }) s))
  else s

/-! ### Acknowledgement (R553 to R556) -/

/-- Clears every latched item whose condition is gone, and none that is new in this fabric cycle (R555, R556). -/
def ackItems (s : Block) : Block :=
  let gone := maskOf ((upto 8).filter fun k => siGone s k && !([1, 2, 3] : List Nat).any fun c => spbIsNew s c k)
  let rb := maskOf ((onesBelow s.spb.soFault 4).filter fun j =>
    bitAt s.spb.soRb j != bitAt s.spb.soCmd j || spbIsNew s 4 j)
  let fb := maskOf ((onesBelow s.spb.fbFault 8).filter fun j => fbDiffers s j || spbIsNew s 5 j)
  modSpb (fun x => { x with
    siDem := clearMask x.siDem gone, siFault := clearMask x.siFault gone,
    tpFail := clearMask x.tpFail (maskOf ((onesBelow gone 8).flatMap fun k => [2 * k, 2 * k + 1])),
    soFault := rb, fbFault := fb,
    latched := clearMask x.latched (maskOf ([9] ++ (if spbIsNew s 11 0 then [] else [11]) ++
      (if rb = 0 then [4] else []) ++ (if fb = 0 then [5] else []))) }) s

/-- The first latched item that remains: the cause code and its item, inputs first. -/
def firstLatched (s : Block) : Option (Nat × Nat) :=
  match (upto 8).find? fun k => siEnabled s k && (bitAt s.spb.siDem k || bitAt s.spb.siFault k) with
  | some k => some (if bitAt s.spb.siFault k then (if bits s.spb.tpFail (2 * k) 2 ≠ 0 then 3 else 2) else 1, k)
  | none =>
    match (upto 16).find? (bitAt s.spb.latched) with
    | some c => some (c, if c = 4 then (((upto 4).find? (bitAt s.spb.soFault)).getD 0)
        else if c = 5 then (((upto 8).find? (bitAt s.spb.fbFault)).getD 0) else 0)
    | none => none

/-- An acknowledgement: its status of Table 17-9 and the item it names. -/
def spbAck (s : Block) : Nat × Nat × Nat × Block :=
  if s.spb.st = .killed ∨ s.spb.st = .startup then (0x15, s.spb.cause, s.spb.causeItem, s)
  else
    let s' := spbSettle (ackItems s)
    match firstLatched s' with
    | some (c, i) => (if s.spb.newAt = fabric s.now + 1 then 0x16 else 0x15, c, i, s')
    | none => (if s.spb.newAt = fabric s.now + 1 then 0x16 else 0, 0, 0, s')

/-- A debounced change of a station contact, with the acknowledgement of spb.ack_sc (R554). -/
def contactDebounceStep (c : Nat) (s : Block) : Block :=
  let was := scClosed s c
  let s := contactDebounceCore c s
  if parN s 0xB060 = c ∧ !was ∧ scClosed s c ∧ !scUnrel s c then (spbAck s).2.2.2 else s

/-! ### Diagnostics (R557 to R561) -/

/-- The shutdown path acts (R559). -/
def spbKill (cause : Nat) (s : Block) : Block :=
  if s.spb.st = .killed then s
  else raise evSpbDiagFault (spbEnter .killed (spbNew cause 0 (modSpb (fun x => { x with latched := setBit x.latched cause true }) s)))

def clockStep (s : Block) : Block := spbKill 6 s

def configCrcStep (s : Block) : Block := if s.spb.st = .killed then s else spbSettle (spbLatch 7 0 s)

/-- MEMORY (R558): an uncorrectable error; a corrected one is counted. -/
def memoryStep (uncorrectable : Bool) (s : Block) : Block :=
  if s.spb.st = .killed then s
  else if uncorrectable then spbSettle (spbLatch 8 0 s)
  else modSpb (fun x => { x with eccCorr := satInc 16 x.eccCorr }) s

/-- SPB_CHALLENGE (R560): the last return is checked and a new challenge, a free value, is published. -/
def spbChallengeStep (s : Block) : Block :=
  if s.spb.st = .killed then s
  else
    let first := s.spb.challenge.isNone
    let s := if first then s else atTime (s.spb.challengeAt + 10 * msU) s
    let bad := if first || s.spb.returned then 0 else min 3 (s.spb.badReturns + 1)
    let lost := bad = 3 && !s.spb.mpWdLost
    let s := modSpb (fun x => { x with
      challenge := some (BitVec.ofNat 16 (Config.freeWord s.free).toNat), returned := false, badReturns := bad,
      challengeAt := s.now, mpWdLost := x.mpWdLost || decide (bad = 3) }) s
    raiseIf lost evSpbWd (useFree s)

/-- CHALLENGE_RETURN (R560): the MP's return, or none where it found the challenge absent or repeated. -/
def challengeReturnStep (v : Option W16) (s : Block) : Block :=
  match v with
  | some v =>
    let s := modSpb (fun x => { x with mpBad := 0 }) s
    match s.spb.challenge with
    | some c => if v = ~~~c then modSpb (fun x => { x with returned := true, badReturns := 0, mpWdLost := false }) s else s
    | none => s
  | none =>
    let n := s.spb.mpBad + 1
    let s := modSpb (fun x => { x with mpBad := min 3 n }) s
    if 3 ≤ n then spbKill 12 s else s

/-- The CRC of a safety configuration: 256 values of 4 bytes in ascending index (R568). -/
def safetyCrc (t : Tab W32) : Nat :=
  crc32c ((upto 256).flatMap fun i => leBytes 4 ((tfind t (0xB000 + i)).getD (paramDefault (0xB000 + i))).toNat)

/-- Puts a safety configuration in force. An FB input whose polarity changes shows its device the other way. -/
def safetyApply (t : Tab W32) (s : Block) : Block :=
  let pol := fun (s : Block) => maskOf ((upto 8).filter fun j => parB s (0xB048 + j))
  let was := pol s
  let s := forEach (upto 256) (fun i => parSet (0xB000 + i) ((tfind t (0xB000 + i)).getD (paramDefault (0xB000 + i)))) s
  let s := modSpb (fun x => { x with cfgCrc := safetyCrc t, fbState := x.fbState ^^^ was ^^^ pol s }) s
  forEach (upto 8) (fun k s =>
    if siEnabled s k then siEval k s
    else modSpb (fun x => { x with
      siDem := setBit x.siDem k false, siFault := setBit x.siFault k false, disc := tdel x.disc k }) s) s

/-- SPB_STARTUP_DONE (R561): outputs that failed the readback test, whether the flash copies passed their CRC,
contacts that failed their test window. -/
def spbStartupDoneStep (soFail : Nat) (primaryOk mirrorOk : Bool) (tpFail : Nat) (s : Block) : Block :=
  if s.spb.st ≠ .startup then s
  else
    let s := match s.spb.flash with
      | some (t, _) => if primaryOk || mirrorOk then safetyApply t s else s
      | none => s
    let ok := s.spb.flash.isSome && (primaryOk || mirrorOk)
    let s := forEach (onesBelow soFail 4) (fun j => spbLatch 4 j) s
    let s := forEach ((upto 16).filter fun i => bitAt tpFail i && siEnabled s (i / 2)) (fun i s =>
      inputFault (i / 2) 3 (modSpb (fun x => { x with tpFail := setBit x.tpFail i true }) s)) s
    spbEnter .safe (spbNew (if ok then 9 else 10) 0 (modSpb (fun x => { x with
      logMirrorBad := x.flash.isSome && (!primaryOk || !mirrorOk), cfgCrc := if ok then x.cfgCrc else 0,
      latched := setBit (setBit x.latched 9 ok) 10 (!ok), soFault := soFail % 16 }) s))

/-- PASSWORD_LOCKOUT_END (R566). -/
def passwordLockoutEndStep (s : Block) : Block :=
  if s.spb.pwLock then
    let s := atTime s.spb.pwLockEnd s
    modSpb (fun x => { x with pwLock := false, pwTries := 0 }) s
  else s

/-! ### Change of the configuration (R563 to R569) -/

/-- An entry of Table 15-5 is written. -/
def spbLogWrite (kind time : Nat) (tag : List W8) (old new_ : Nat) (s : Block) : Block :=
  let seq := (s.spb.logSeq + 1) % 2 ^ 28
  let body := leBytes 4 (seq + 2 ^ 28 * kind) ++ leBytes 8 time ++ (upto 8).map (fun i => (tag[i]?).getD 0#8) ++
    leBytes 4 old ++ leBytes 4 new_
  let e := body ++ leBytes 4 (crc32c body)
  raise evSpbConfig (modSpb (fun x => { x with logSeq := seq, log := lastN 256 (x.log ++ [e]) }) s)

/-- A commit presents a wrong password (R566). -/
def wrongPassword (s : Block) : Block :=
  let n := s.spb.pwTries + 1
  raise evSpbPassword (modSpb (fun x => { x with
    pwTries := n, pwLock := x.pwLock || decide (3 ≤ n), pwLockEnd := if 3 ≤ n then s.now + 600 * sU else x.pwLockEnd }) s)

/-- A changed safety section takes effect (R564, R565, R568): the values, a new password or the one in force. -/
def safetyCommit (t : Tab W32) (newPw : List W8) (time : Nat) (tag : List W8) (s : Block) : Block :=
  let first := s.spb.flash.isNone || bitAt s.spb.latched 10
  let old := if first then 0 else s.spb.cfgCrc
  let pw := if newPw.length ≠ 0 then newPw else match s.spb.flash with | some (_, p) => p | none => []
  let kind := if first then 2 else if newPw.length ≠ 0 then 1 else 0
  let s := spbNew 11 0 (modSpb (fun x => { x with
    latched := setBit (setBit x.latched 10 false) 11 true, flash := some (t, pw), pwTries := 0 }) s)
  let s := if s.spb.st = .killed || s.spb.st = .startup then s else spbEnter .safe s
  spbLogWrite kind time tag old (safetyCrc t) (safetyApply t s)

end Sys2Proof.Machine
end

