-- ==== Sys2Proof/Machine/Valid.lean ====
section
/-!
DEFINITION. Parameter items, configuration sets and the checks of a commit (R643, R644, R648 to R652, Table 17-13,
and the tables of the other chapters that it cites).
-/

namespace Sys2Proof.Machine

/-! ### Items (R643) -/

structure PItem where
  idx : Nat
  len : Nat
  val : List W8
deriving DecidableEq, Repr

def pad4 (n : Nat) : Nat := (n + 3) / 4 * 4
def PItem.word (i : PItem) : W32 := BitVec.ofNat 32 (le 4 i.val)

/-- The items of a byte list, and the index of a last one that is cut short. -/
def parseItems : Nat → List W8 → List PItem × Option Nat
  | 0, _ => ([], none)
  | _, [] => ([], none)
  | f + 1, l =>
    let n := leAt l 2 2
    if l.length < 4 ∨ l.length < 4 + pad4 n then ([], some (leAt l 0 2))
    else
      let (r, e) := parseItems f (l.drop (4 + pad4 n))
      ({ idx := leAt l 0 2, len := n, val := (l.drop 4).take n } :: r, e)

def itemsOf (l : List W8) : List PItem × Option Nat := parseItems (l.length / 4 + 1) l

def itemBytes (idx : Nat) (val : List W8) : List W8 :=
  leBytes 2 idx ++ leBytes 2 val.length ++ val ++ leBytes (pad4 val.length - val.length) 0

def isBankIdx (idx : Nat) : Bool := decide (0x4200 ≤ idx ∧ idx < 0x4280)
def isWindowIdx (idx : Nat) : Bool := decide (0x6120 ≤ idx ∧ idx < 0x6300)
/-- Parameters that are commands: they are not stored and read 0. -/
def isCommandIdx (idx : Nat) : Bool :=
  (decide (0x4400 ≤ idx ∧ idx < 0x4480) && idx % 16 = 12) || (decide (0x5000 ≤ idx ∧ idx < 0x5100) && idx % 64 = 0x1B) ||
  (decide (0x5200 ≤ idx ∧ idx < 0x5400) && (idx % 16 = 8 || idx % 16 = 9)) || decide (0x700C ≤ idx ∧ idx < 0x7010)
def isSafetyIdx (idx : Nat) : Bool := decide (0xB000 ≤ idx ∧ idx < 0xC000)

/-- An item has the length of its layout. -/
def itemLenOk (r : PRow) (idx len : Nat) : Bool :=
  if isBankIdx idx then decide (16 ≤ len ∧ len ≤ 16 + 28 * 32) && (len - 16) % 28 = 0
  else if isWindowIdx idx then len = 16
  else if r.ty = .record then len = 8
  else len = 4

/-- Ranges that name the inputs of a unit (R403, R442). -/
def inputRangeOk (idx v : Nat) : Bool :=
  if 0x7100 ≤ idx ∧ idx < 0x7180 then unitOf v = (idx - 0x7100) / 32
  else if 0x7200 ≤ idx ∧ idx < 0x7240 ∧ idx % 16 < 4 then v = 0xFF || unitOf v = (idx - 0x7200) / 16
  else if 0x7010 ≤ idx ∧ idx < 0x7014 then v = 0xFF || (decide (v < 48) && unitOf v = idx - 0x7010)
  else if 0x7300 ≤ idx ∧ idx < 0x7330 then false
  else if 0x7340 ≤ idx ∧ idx < 0x7370 then false
  else true

/-- The value of a scalar item passes its range (R7, R644). -/
def itemRangeOk (r : PRow) (i : PItem) : Bool :=
  if r.ty = .record then true else r.inRange (r.held i.word) && inputRangeOk i.idx i.word.toNat

/-- A scalar table with an item put in; a value equal to its default is not listed. -/
def putParam (t : Tab W32) (idx : Nat) (v : W32) : Tab W32 :=
  if v = paramDefault idx then tdel t idx else tput idx v t

/-- The held value of a scalar item: the step of R779 applied. -/
def heldItem (i : PItem) : W32 := match paramRow i.idx with | some (r, _, _) => r.held i.word | none => i.word

/-- Writes to filter and polarity of TRIP16 to TRIP31 are ignored (R256). -/
def isIgnoredIdx (idx : Nat) : Bool := (0x3210 ≤ idx && idx < 0x3220) || (0x3230 ≤ idx && idx < 0x3240)

/-- The scalars that a list of items puts in force. -/
def scalarsOf (l : List PItem) : Tab W32 :=
  l.foldl (fun t i => if isBankIdx i.idx || isWindowIdx i.idx || isCommandIdx i.idx || isIgnoredIdx i.idx then t
    else putParam t i.idx (heldItem i)) []

/-! ### Staging and the section descriptors (R648, R650) -/

def stagingBase : Nat := 0x1800000
def stagingSize : Nat := 0x800000
def stg (s : Block) (off n : Nat) : List W8 := readBytes s (stagingBase + off) n
def stgN (s : Block) (off n : Nat) : Nat := le n (stg s off n)
def secOff (s : Block) (t : Nat) : Nat := stgN s (0x10 + 16 * (t - 1) + 4) 4
def secLen (s : Block) (t : Nat) : Nat := stgN s (0x10 + 16 * (t - 1) + 8) 4
def secCrc (s : Block) (t : Nat) : Nat := stgN s (0x10 + 16 * (t - 1) + 12) 4
def secBytes (s : Block) (t : Nat) : List W8 := stg s (secOff s t) (secLen s t)

/-- A failed check: code, row of the cited table from 1 (0: none cited), object. -/
structure Fail where
  code : Nat
  row : Nat
  item : Nat
deriving DecidableEq, Repr

def failIf (b : Bool) (code row item : Nat) : Option Fail := if b then some { code := code, row := row, item := item } else none
/-- The first of a list for which `bad` holds. -/
def failFirst (l : List Nat) (bad : Nat → Bool) (code row : Nat) : Option Fail :=
  (l.find? bad).map fun k => { code := code, row := row, item := k }
def firstFail (l : List (Option Fail)) : Option Fail := l.findSome? id

/-- Two spans do not overlap. -/
def apart (a n b m : Nat) : Bool := decide (a + n ≤ b ∨ b + m ≤ a) || n = 0 || m = 0

/-- Check 1 (R648). -/
def checkFormat (s : Block) : Option Fail :=
  let len := stgN s 8 4
  let hdr := stgN s 0 4 = 0x53434B59 && stgN s 4 2 = 1 && stgN s 6 2 = 5 && len % 32 = 0 && decide (len ≤ stagingSize) &&
    decide (0x60 ≤ len) && stgN s 12 4 = 0
  let bad := fun (t : Nat) =>
    let d := 0x10 + 16 * (t - 1)
    !(stgN s d 2 = t && stgN s (d + 2) 2 = 0 && secOff s t % 32 = 0 && decide (0x60 ≤ secOff s t) &&
      decide (secOff s t + secLen s t ≤ len) &&
      (List.range' 1 (t - 1)).all (fun u => apart (secOff s u) (secLen s u) (secOff s t) (secLen s t)) &&
      (match t with
        | 1 => secLen s 1 % 4 = 0
        | 2 => secLen s 2 = 512
        | 3 => secLen s 3 = 49152
        | 4 => decide (64 ≤ secLen s 4)
        | _ => decide (0x4C ≤ secLen s 5) && secLen s 5 % 4 = 0))
  firstFail [failIf (!hdr) 1 0 0, failFirst [1, 2, 3, 4, 5] bad 1 0]

/-- Check 2. -/
def checkCrc (s : Block) : Option Fail :=
  failFirst [1, 2, 3, 4, 5] (fun t => crc32c (secBytes s t) ≠ secCrc s t) 2 0

/-- Items in ascending order, each an index of the tables that belongs to the section, of its length and range. -/
def itemsBad (safety : Bool) : List PItem → Nat → Option Nat
  | [], _ => none
  | i :: t, last =>
    if i.idx < last then some i.idx
    else if isSafetyIdx i.idx ≠ safety then some i.idx
    else match paramRow i.idx with
      | none => some i.idx
      | some (r, _, _) =>
        if itemLenOk r i.idx i.len && itemRangeOk r i then itemsBad safety t (i.idx + 1) else some i.idx

/-- Check 3 over the two sections that hold items. -/
def checkParam (par safe : List W8) : Option Fail :=
  let one := fun (safety : Bool) (l : List W8) =>
    let (is, e) := itemsOf l
    (itemsBad safety is 0) <|> e
  firstFail [(one false par).map (fun k => { code := 3, row := 0, item := k }),
    (one true safe).map (fun k => { code := 3, row := 0, item := k })]

/-- The set that lies in the staging area; the safety section's parameter items from its offset 0x4C. -/
def stagedSet (s : Block) : CfgSet :=
  let par := secBytes s 1
  let is := (itemsOf par).1
  let safe := secBytes s 5
  { parBytes := par, params := scalarsOf is, safety := scalarsOf (itemsOf (safe.drop 0x4C)).1,
    banks := (is.filter fun i => isBankIdx i.idx).map fun i => (i.idx - 0x4200, i.val),
    windows := (is.filter fun i => isWindowIdx i.idx).map fun i => (i.idx - 0x6100, i.val),
    portMap := secBytes s 2, cellTab := secBytes s 3, graph := secBytes s 4, tag := safe.take 8,
    newPw := (safe.drop 0x2C).take (leAt safe 9 1),
    crcs := [1, 2, 3, 4, 5].map (secCrc s), lens := [1, 2, 3, 4, 5].map (secLen s) }

/-! ### The set as it would be in force -/

def inForce (s : Block) : CfgSet := s.host.setInForce.getD {}

/-- A section of the set differs in length or CRC from the one in force (R654). -/
def secChanged (s : Block) (c : CfgSet) (t : Nat) : Bool :=
  s.host.setInForce.isNone || c.crcs[t - 1]? ≠ (inForce s).crcs[t - 1]? || c.lens[t - 1]? ≠ (inForce s).lens[t - 1]?

def words4 (l : List W8) (n : Nat) : Tab Nat :=
  (upto n).filterMap fun k => let w := leAt l (4 * k) 4; if w = 0 then none else some (k, w)
def words8 (l : List W8) (n : Nat) : Tab Nat :=
  (upto n).filterMap fun k => let w := leAt l (8 * k) 8; if w = 0 then none else some (k, w)

/-- The safety scalars in force. -/
def safetyInForce (s : Block) : Tab W32 := s.par.val.filter fun p => isSafetyIdx p.1

/-- Scalars that the set puts in force: an unchanged PARAMS section leaves the values in force (R654). -/
def setScalars (s : Block) (c : CfgSet) : Tab W32 :=
  if secChanged s c 1 then c.params else s.par.val.filter fun p => !isSafetyIdx p.1

/-- The machine with the parameters, the model and the graph of a set, for the checks. -/
def candidate (s : Block) (c : CfgSet) : Block :=
  { s with
    par := { val := c.safety.foldl (fun t p => putParam t p.1 p.2) (setScalars s c) },
    model := { s.model with ports := words4 c.portMap 128, cellTab := words8 c.cellTab 6144 },
    graph := { s.graph with image := c.graph } }

/-! ### Check 4: parameters against each other -/

def fgt (a b : F32) : Bool := flt b a

/-- The gate positions in use: 0 and 1 for a half-bridge arm, whose values at 2 and 3 are ignored (R256). -/
def gatesUsed (c : Block) (a : Nat) : Nat := if (armPorts c a).any (strFB c) then 4 else 2

/-- The two gates of each complementary pair, both ways (R217). -/
def gatePairs (n : Nat) : List (Nat × Nat) := [(0, 1), (1, 0)] ++ (if n = 4 then [(2, 3), (3, 2)] else [])

/-- Conditions of Table 6-2 that an arm breaks, by the later index. -/
def edgeCross (c : Block) (a : Nat) : List Nat :=
  let n := gatesUsed c a
  let rise := fun g => parW c (0x3100 + 8 * a + g)
  let fall := fun g => parW c (0x3104 + 8 * a + g)
  let both := (upto n).map (fun g => (0x3100 + 8 * a + g, rise g)) ++ (upto n).map fun g => (0x3104 + 8 * a + g, fall g)
  let big := both.foldl (fun (r : Nat × F32) p => if fle r.2 p.2 then p else r) (0x3100 + 8 * a, rise 0)
  let us := fun (x : F32) => q32 x
  let tcUs := qf (2000 * parN c 0x0010) usU
  let psc := parN c (0x3000 + a) = 1
  ((gatePairs n).filterMap fun (g, g') => if flt (rise g) (fall g') then some (0x3104 + 8 * a + g') else none) ++
  (if qlt (qdiv tcUs (qi 2)) (qadd (us (parW c (0x3010 + a))) (us big.2)) then [big.1] else []) ++
  (if qlt (qdiv tcUs (qi 4)) (us (parW c (0x3020 + a))) then [0x3020 + a] else []) ++
  (if qlt (qdiv tcUs (qi 4)) (us (parW c (0x3030 + a))) then [0x3030 + a] else []) ++
  (if psc && qlt (us (parW c (0x3070 + a))) (qmul (qi 2) tcUs) then [0x3070 + a] else []) ++
  (if psc && decide (64 < sumNat (((upto 128).filter fun p => portArm c p = some a ∧ portTopo c p ≠ 3).map (strCells c)))
    then [0x3000 + a] else [])

/-- Fantail i (R296, R303, R324). -/
def fantCross (c : Block) (i : Nat) : List Nat :=
  let w := fun k => parW c (0x5000 + 64 * i + k)
  let n := fun k => (w k).toNat
  (if !flt (w 7) (w 6) then [0x5007 + 64 * i] else []) ++ (if !flt (w 6) (w 8) then [0x5008 + 64 * i] else []) ++
  (if n 0 = 2 && !(decide (n 0x12 < i) && parN c (0x5000 + 64 * n 0x12) ≠ 0) then [0x5012 + 64 * i] else []) ++
  (if n 0 = 1 && n 5 = 1 && !([2, 3, 4] : List Nat).all (fun k => inSeq c (n k)) then [0x5005 + 64 * i] else [])

def trigArgOk (c : Block) (u : Nat) : Bool :=
  let a := parN c (0x7205 + 16 * u)
  match parN c (0x7204 + 16 * u) with
  | 3 => decide (a < 32)
  | 4 => armEnabled c a
  | 5 => armEnabled c a
  | _ => true

/-- R436 over the rounded thresholds. -/
def cmpCross (c : Block) (j : Nat) : List Nat :=
  let lo1 := cmpThr c j 2
  let hi1 := cmpThr c j 3
  let lo2 := cmpThr c j 4
  let hi2 := cmpThr c j 5
  (if hi1 ≤ lo1 then [0x7403 + 16 * j] else []) ++ (if lo1 < lo2 then [0x7404 + 16 * j] else []) ++
  (if hi2 < hi1 then [0x7405 + 16 * j] else [])

/-- Conditions between parameters that a set must meet and that a write must meet as well. -/
def crossRest (c : Block) : List Nat :=
  (upto 12).flatMap (edgeCross c) ++
  (upto 32).flatMap (fun r =>
    let w := fun k => parW c (0x5200 + 16 * r + k)
    if flt (w 2) (w 0) || flt (w 2) (w 1) then [0x5202 + 16 * r] else []) ++
  (upto 64).filterMap (fun l => if parN c (0x4040 + l) ≠ 255 && decide (parN c (0x4000 + l) ≤ parN c (0x4040 + l))
    then some (0x4040 + l) else none) ++
  (upto 4).filterMap (fun u => if trigArgOk c u then none else some (0x7205 + 16 * u)) ++
  (upto 4).flatMap (fantCross c) ++ (upto 16).flatMap (cmpCross c) ++
  (if parN c 0xE001 = 1 && parN c 0xE002 = 1 then [0xE002] else [])

/-- The range of cycle.phase under N (R81). -/
def phaseCross (n : Nat) (c : Block) : List Nat := if 250 * n ≤ parN c 0x0011 then [0x0011] else []

def crossWrite (c : Block) : List Nat := phaseCross (parN c 0x0010) c ++ crossRest c

/-- The N that the phase of a set is checked against (R81): the one the set carries, else the one in force. -/
def phaseN (s : Block) (c : CfgSet) : Nat :=
  if secChanged s c 1 && !(itemsOf c.parBytes).1.any (fun i => i.idx = 0x0010) then parN s 0x0010
  else parN (candidate s c) 0x0010

/-- The conditions of a set: those of a write, with the phase checked against n. -/
def crossSet (n : Nat) (c : Block) : List Nat :=
  phaseCross n c ++ crossRest c ++
  (if flt (parW c 0x9103) (parW c 0x9102) then [0x9103] else []) ++
  (if mainAux c = bypassAux c then [0xA021] else []) ++
  (if permitSc c = mainAux c || permitSc c = bypassAux c then [0xA022] else []) ++
  (if cmdMain c = cmdBypass c then [0xA024] else []) ++
  (upto 8).filterMap (fun j => if parB c (0xB038 + j) && !parB c (0xB030 + parN c (0xB040 + j)) then some (0xB040 + j) else none) ++
  (if parN c 0xB060 ≠ 0xFF && isRole c (parN c 0xB060) then [0xB060] else [])

/-- Check 4; with several failures the lowest index is named. -/
def checkCross (n : Nat) (c : Block) : Option Fail :=
  match crossSet n c with
  | [] => none
  | k :: t => some { code := 4, row := 0, item := t.foldl min k }

/-! ### Checks 5 and 6 -/

def isReadyOnly (idx : Nat) : Bool := match paramRow idx with | some (r, _, _) => r.eff = .readyOnly | none => false

/-- A value listed in either of two tables that differs between them. -/
def changedIdx (a b : Tab W32) : List Nat :=
  (a.filterMap fun (k, v) => if tfind b k = some v then none else some k) ++
  (b.filterMap fun (k, _) => if (tfind a k).isNone then some k else none)

/-- The set changes something READY ONLY (R13, R336). -/
def readyOnlyChanged (s : Block) (c : CfgSet) : Bool :=
  (changedIdx (setScalars s c) (s.par.val.filter fun p => !isSafetyIdx p.1)).any isReadyOnly ||
  (secChanged s c 1 && c.windows ≠ s.par.wins) ||
  secChanged s c 2 || secChanged s c 3 || secChanged s c 4

/-- The safety section counts as changed (R649). -/
def safetyChanged (s : Block) (c : CfgSet) (newPwLen : Nat) : Bool :=
  bitAt s.spb.latched 10 || s.spb.flash.isNone || newPwLen ≠ 0 || safetyCrc c.safety ≠ s.spb.cfgCrc

def awaitReady (s : Block) : Bool := s.seq.state = .await || s.seq.state = .ready

def checkState (s : Block) (c : CfgSet) (safe : Bool) : Option Fail :=
  failIf (!awaitReady s && (readyOnlyChanged s c || safe)) 5 0 0

def pwChars (l : List W8) : Bool := l.all fun b => decide (0x21 ≤ b.toNat ∧ b.toNat ≤ 0x7E)
def pwLenOk (n : Nat) : Bool := decide (8 ≤ n ∧ n ≤ 32)

/-- The password that a commit must present; none while the first configuration of a device is awaited (R565). -/
def oldPassword (s : Block) : Option (List W8) :=
  if bitAt s.spb.latched 10 then none else s.spb.flash.map (·.2)

/-- A changed safety section presents a password other than the one in force. -/
def wrongPw (s : Block) (sec : List W8) : Bool :=
  match oldPassword s with
  | none => false
  | some p => (sec.drop 0x0C).take (leAt sec 8 1) ≠ p

/-- Check 6 of a changed safety section (R563 to R566). -/
def checkSafety (s : Block) (sec : List W8) : Option Fail :=
  let n := leAt sec 9 1
  let nw := (sec.drop 0x2C).take n
  failIf (wrongPw s sec || (sec.take 8).all (· = 0#8) || s.spb.pwLock ||
    ((oldPassword s).isNone && n = 0) || (n ≠ 0 && !(pwLenOk n && pwChars nw))) 6 0 0

/-! ### Check 7: the converter model (Table 1-9, R740) -/

def ports128 : List Nat := upto 128
def armStrings (c : Block) (a : Nat) : List Nat := ports128.filter fun p => portUsed c p && portTopo c p ≠ 3 && strArm c p = a
/-- Every field of a port map entry but USED and TOPO. -/
def portRest (w : Nat) : Nat := w / 8

/-- A field of a port map entry without a legal value. No row of Table 1-9 names an unused port whose word is not 0, nor the
odd port of a self-ring with other fields set: that both count under row 1, Field values, is the model's choice (log
entry 28). -/
def portFieldsBad (c : Block) (p : Nat) : Bool :=
  let w := portWord c p
  if !bitAt w 0 then w ≠ 0
  else if portTopo c p = 3 then portRest w ≠ 0
  else decide (12 ≤ bits w 4 4) || bits w 8 6 = 0 || decide (48 < bits w 8 6) || bits w 14 2 ≠ 0 || w / 2 ^ 21 ≠ 0

def cellFieldsBad (c : Block) (g : Nat) : Bool :=
  let w := tget 0 c.model.cellTab g
  bitAt w 0 && (bits w 1 2 = 3 || bits w 3 13 ≠ 0 || bits w 16 16 = 0 || bits w 32 16 = 0)

/-- Arms that an arrangement enables, by position on its side (Table 1-3). -/
def arrEnables (arr k : Nat) : Bool := arr = 1 || arr = 4 || ((arr = 2 || arr = 3) && decide (k < 3))

/-- Cells that a used port's string configures. -/
def cfgWanted (c : Block) (g : Nat) : Bool :=
  let p := g / 48
  portUsed c p && portTopo c p ≠ 3 && decide (g % 48 < strCells c p)

def cellTabAt (c : Block) (g : Nat) : Nat := tget 0 c.model.cellTab g

def initialAvail (c : Block) (a : Nat) : Nat :=
  ((armStrings c a).flatMap fun p => (upto 48).map (48 * p + ·)).filter (fun g => bitAt (cellTabAt c g) 0 && bits (cellTabAt c g) 1 2 = 0)
    |>.length

def checkModel (s c : Block) : Option Fail :=
  let arms := upto 12
  let arr := fun (a : Nat) => parN c (0x1000 + a / 6)
  let on := fun a => parB c (0x1010 + a)
  let cpl := parN c 0x1002
  let nums := fun (a : Nat) => (armStrings c a).map (strNum c)
  let used := fun p => portUsed c p
  firstFail [
    failFirst ports128 (portFieldsBad c) 7 1,
    (c.model.cellTab.find? fun p => cellFieldsBad c p.1).map fun p => { code := 7, row := 1, item := p.1 },
    failFirst arms (fun a => on a != arrEnables (arr a) (a % 6)) 7 2,
    failIf (cpl ≠ 0 && !(parN c 0x1000 = 1 && parN c 0x1001 = 1)) 7 3 0,
    failFirst ports128 (fun p => used p && portTopo c p ≠ 3 && !on (strArm c p)) 7 4,
    failFirst arms (fun a => on a && (armStrings c a).length = 0) 7 4,
    failFirst arms (fun a => !(upto (nums a).length).all (nums a).contains) 7 5,
    failFirst arms (fun a => decide (32 < (armStrings c a).length) ||
      decide (1024 < sumNat ((armStrings c a).map (strCells c)))) 7 6,
    failFirst ports128 (fun p => used p && portTopo c p ≠ 3 && decide (2 ≤ arr (strArm c p)) && !bitAt (portWord c p) 3) 7 7,
    failFirst ports128 (fun p => used p &&
      ((portTopo c p = 1 && (p % 2 = 1 || !(used (p + 1) && portTopo c (p + 1) = 3))) ||
       (portTopo c p = 3 && (p % 2 = 0 || !(used (p - 1) && portTopo c (p - 1) = 1))))) 7 8,
    failFirst ports128 (fun p => used p && (portTopo c p = 2) != parB c 0xC000) 7 9,
    failFirst (upto 6144) (fun g =>
      if cfgWanted c g then !bitAt (cellTabAt c g) 0 else cellTabAt c g ≠ 0) 7 10,
    failFirst arms (fun a => on a && decide (initialAvail c a < parN c (0x1030 + a))) 7 11,
    failFirst ports128 (fun p => used p && bitAt s.rst.pgFailed (p / 16)) 7 0]

/-! ### Check 8: the graph (Tables 9-1 to 9-7) -/

/-- Pin types of Table 9-4. -/
inductive PinT where
  | f | i | b | any
deriving DecidableEq, Repr

/-- Parameter kinds of Table 9-4. -/
inductive ParK where
  | int (lo hi : Int)
  | real
  | pos
  | word
deriving DecidableEq, Repr

/-- A block type: inputs with their † mark, the type of two to eight further inputs, outputs, states, parameters and
time in ns. -/
structure BSig where
  ins : List (PinT × Bool) := []
  more : Option PinT := none
  outs : List PinT := []
  states : Nat := 0
  pars : List ParK := []
  time : Nat := 10
deriving DecidableEq, Repr

def mF : PinT × Bool := (.f, true)
def mI : PinT × Bool := (.i, true)
def mB : PinT × Bool := (.b, true)
def mA : PinT × Bool := (.any, true)
def oF : PinT × Bool := (.f, false)
def oI : PinT × Bool := (.i, false)
def oB : PinT × Bool := (.b, false)
def armK : ParK := .int 0 11

def bsigSource : Nat → Option BSig
  | 0x01 => some { outs := [.f, .f], pars := [.int 0 63, .real, .real], time := 20 }
  | 0x02 => some { outs := [.i, .i, .i, .f, .f, .f, .f, .f, .f, .i], pars := [armK], time := 30 }
  | 0x03 => some { outs := [.f, .i, .b], pars := [.int 0 6143], time := 20 }
  | 0x04 => some { outs := [.any], pars := [.int 0 63] }
  | 0x05 => some { outs := [.i, .f, .b], pars := [.int 0 3] }
  | 0x06 => some { outs := [.f, .f, .b], pars := [.int 0 31] }
  | 0x07 => some { outs := [.b, .b, .b, .f, .i], pars := [armK], time := 20 }
  | 0x08 => some { outs := [.any], pars := [.word] }
  | 0x09 => some { outs := [.i, .f] }
  | 0x0A => some { outs := [.b], pars := [.int 0 15] }
  | 0x0B => some { ins := [oB], outs := [.i, .i, .i, .i, .i, .i, .i, .i, .b], pars := [.int 0 63], time := 30 }
  | _ => none

def bsigMath : Nat → Option BSig
  | 0x10 => some { more := some .f, outs := [.f] }
  | 0x12 => some { more := some .f, outs := [.f] }
  | 0x16 => some { more := some .f, outs := [.f] }
  | 0x17 => some { more := some .f, outs := [.f] }
  | 0x11 => some { ins := [mF, mF], outs := [.f] }
  | 0x13 => some { ins := [mF, mF], outs := [.f], time := 20 }
  | 0x14 => some { ins := [mF], outs := [.f], pars := [.real, .real] }
  | 0x15 => some { ins := [mF], outs := [.f] }
  | 0x18 => some { ins := [mF], outs := [.f], time := 20 }
  | 0x19 => some { ins := [mI, oF], outs := [.i] }
  | 0x1A => some { ins := [mI, mI], outs := [.f] }
  | 0x1B => some { ins := [mA], outs := [.any], pars := [.int 0 5] }
  | 0x20 => some { ins := [mF, mF, mF], outs := [.f, .f, .f], time := 20 }
  | 0x21 => some { ins := [mF, mF, oF], outs := [.f, .f, .f], time := 20 }
  | 0x22 => some { ins := [mF, mF, mI], outs := [.f, .f], time := 40 }
  | 0x23 => some { ins := [mF, mF, mI], outs := [.f, .f], time := 40 }
  | 0x24 => some { ins := [mF, mF, mF, mI], outs := [.f, .f, .f], time := 50 }
  | 0x25 => some { ins := [mF, mF, oF, mI], outs := [.f, .f, .f], time := 50 }
  | 0x26 => some { ins := [mF, mF, mF, mF], outs := [.f, .f, .f, .f], time := 20 }
  | 0x27 => some { ins := [mI], outs := [.f, .f], time := 30 }
  | 0x28 => some { ins := [mF, mF], outs := [.f, .i], time := 40 }
  | 0x29 => some { ins := [mF], outs := [.f, .f], states := 2, pars := [.int 0 3, .real], time := 30 }
  | 0x30 => some { ins := [mF, oF, oF, oF, oB, oB, oI, oF], outs := [.f, .i, .i], pars := [.int 0 63], time := 24 }
  | 0x31 => some { ins := [mF, oB, oB], outs := [.f], pars := [.int 0 15], time := 40 }
  | 0x32 => some { ins := [mF, oF, oF], outs := [.f, .i], pars := [.real, .real] }
  | 0x33 => some { ins := [mF, oB], outs := [.f], states := 1, pars := [.pos, .pos], time := 20 }
  | 0x34 => some { ins := [mF], outs := [.b], states := 1, pars := [.real, .real] }
  | 0x35 => some { ins := [mF, oB], outs := [.f], states := 1, pars := [.pos], time := 20 }
  | 0x36 => some { ins := [mA, mB], outs := [.any], states := 1 }
  | _ => none

def bsigLogic : Nat → Option BSig
  | 0x40 => some { ins := [mF, mF], outs := [.b], pars := [.int 0 5] }
  | 0x41 => some { more := some .b, outs := [.b] }
  | 0x42 => some { more := some .b, outs := [.b] }
  | 0x44 => some { more := some .b, outs := [.b] }
  | 0x43 => some { ins := [mB], outs := [.b] }
  | 0x45 => some { ins := [oB, oB], outs := [.b], states := 1, pars := [.int 0 1] }
  | 0x46 => some { ins := [mB], outs := [.b], states := 2, pars := [.int 1 65535, .int 1 65535] }
  | 0x47 => some { ins := [mA], outs := [.any], states := 1, pars := [.int 1 16], time := 20 }
  | 0x48 => some { ins := [mB], outs := [.b, .f], states := 2, pars := [.int 0 1, .real] }
  | 0x49 => some { ins := [mB], outs := [.b], states := 2, pars := [.real] }
  | 0x4A => some { ins := [oB, oB, oB], outs := [.i, .b], states := 3, pars := [.int 1 2147483647] }
  | 0x4B => some { ins := [mI], more := some .any, outs := [.any] }
  | 0x4C => some { ins := [mB], outs := [.b, .b], states := 1 }
  | 0x50 => some { outs := [.f], pars := [armK, .int 0 1], time := 30 }
  | 0x51 => some { ins := [mF, mF, mF, mF, mF, mF], outs := [.f, .f, .f, .f, .f, .f, .f], pars := [.int 0 1], time := 20 }
  | 0x52 => some { outs := [.f, .f, .f, .f, .f, .f, .f], pars := [.int 0 1], time := 30 }
  | 0x53 => some { ins := [mF, mF, mF], outs := [.f, .f] }
  | 0x54 => some { ins := [mF, mF, oF], outs := [.f, .f] }
  | 0x60 => some { ins := [mF], pars := [armK, .int 0 1], time := 20 }
  | 0x61 => some { ins := [oF, mF], pars := [armK, .int 0 1], time := 20 }
  | 0x62 => some { ins := [mF, mF, mB], outs := [.b], states := 1, pars := [.int 0 31], time := 20 }
  | 0x63 => some { ins := [mF], pars := [.int 0 3] }
  | 0x64 => some { ins := [mB], states := 1, pars := [.int 160 223] }
  | 0x65 => some { ins := [mA], pars := [.int 0 63] }
  | 0x66 => some { ins := [mA], pars := [.int 0 255] }
  | 0x67 => some { ins := [oI, oI, oI, oI, oI, oI, oI, oI, mB], pars := [.int 0 63], time := 30 }
  | _ => none

/-- The block library (Table 9-4); an expression block's pins are those of its record. -/
def bsig (ty : Nat) : Option BSig :=
  if ty = 0x70 then some { pars := [.word] } else bsigSource ty <|> bsigMath ty <|> bsigLogic ty

def sigOf (l : List W8) (b : Nat) : BSig := (bsig (blkType l b)).getD {}

/-- The number of inputs, outputs and states fits the type. -/
def pinCountsBad (l : List W8) (b : Nat) : Bool :=
  let g := sigOf l b
  let n := blkIn l b
  if blkType l b = 0x70 then decide (16 < n) || blkOut l b = 0 || decide (8 < blkOut l b) || decide (8 < blkState l b)
  else
    let k := n - g.ins.length
    let insOk := match g.more with
      | some _ => decide (g.ins.length ≤ n) && decide (2 ≤ k ∧ k ≤ 8)
      | none => n = g.ins.length
    let st := if blkType l b = 0x47 then (blkPar l b 0).toNat + 1 else g.states
    !insOk || blkOut l b ≠ g.outs.length || blkState l b ≠ st

/-- Type and † mark of input k. -/
def inSig (g : BSig) (k : Nat) : PinT × Bool :=
  match g.ins[k]? with | some x => x | none => match g.more with | some t => (t, true) | none => (.any, false)

def pinTypeOk (l : List W8) (t : PinT) (p : Nat) : Bool :=
  p = 0xFFFF || (match t with | .f => sigType l p = 0 | .i => sigType l p = 1 | .b => sigType l p = 2 | .any => true)

/-- Source and target types of CONVERT by its MODE. -/
def convTypes (m : Nat) : Nat × Nat :=
  match m with | 0 => (0, 1) | 1 => (1, 0) | 2 => (0, 2) | 3 => (2, 0) | 4 => (1, 2) | _ => (2, 1)

/-- The signals bound to the "any" pins of a block. -/
def anyPins (l : List W8) (b : Nat) : List Nat :=
  let g := sigOf l b
  (((upto (blkIn l b)).filter fun k => (inSig g k).1 = .any).map (blkPin l b) ++
    ((upto (blkOut l b)).filter fun k => (g.outs[k]?).getD .any = .any).map fun k => blkPin l b (blkIn l b + k)).filter (· ≠ 0xFFFF)

def typesBad (l : List W8) (b : Nat) : Bool :=
  let g := sigOf l b
  let ni := blkIn l b
  if blkType l b = 0x70 then false
  else
    (upto ni).any (fun k => !pinTypeOk l (inSig g k).1 (blkPin l b k)) ||
    (upto (blkOut l b)).any (fun k => !pinTypeOk l ((g.outs[k]?).getD .any) (blkPin l b (ni + k))) ||
    (if blkType l b = 0x1B then
      let (a, z) := convTypes (blkPar l b 0).toNat
      (blkPin l b 0 ≠ 0xFFFF && sigType l (blkPin l b 0) ≠ a) || (blkPin l b 1 ≠ 0xFFFF && sigType l (blkPin l b 1) ≠ z)
    else match anyPins l b with | [] => false | p :: t => t.any fun q => sigType l q ≠ sigType l p)

def nPins (l : List W8) (b : Nat) : Nat := blkIn l b + blkOut l b + blkState l b

def bindingBad (l : List W8) (b : Nat) : Bool :=
  let g := sigOf l b
  (upto (nPins l b)).any (fun k => blkPin l b k ≠ 0xFFFF && decide (nSig l ≤ blkPin l b k)) ||
  (upto (blkState l b)).any (fun k => blkPin l b (blkIn l b + blkOut l b + k) = 0xFFFF) ||
  (blkType l b ≠ 0x70 && (upto (blkIn l b)).any (fun k => (inSig g k).2 && blkPin l b k = 0xFFFF)) || typesBad l b

/-- Signals that a block's outputs and states own, and those its states name. -/
def ownedBy (l : List W8) (b : Nat) : List Nat :=
  ((upto (blkOut l b + blkState l b)).map fun k => blkPin l b (blkIn l b + k)).filter (· ≠ 0xFFFF)
def statesOf (l : List W8) (b : Nat) : List Nat :=
  (upto (blkState l b)).map fun k => blkPin l b (blkIn l b + blkOut l b + k)

def hasDup : List Nat → Bool
  | [] => false
  | x :: t => t.contains x || hasDup t

/-- The lowest signal that a list names twice. -/
def firstDup (l : List Nat) (n : Nat) : Option Nat := (upto n).find? fun k => decide (2 ≤ (l.filter (· = k)).length)

def parBad (l : List W8) (b : Nat) : Bool :=
  let g := sigOf l b
  ((upto g.pars.length).any fun k =>
    let w := blkPar l b k
    match (g.pars[k]?).getD .word with
    | .int lo hi => decide (w.toInt < lo ∨ hi < w.toInt)
    | .real => !isFinite32 w
    | .pos => !isFinite32 w || !flt f32Zero w
    | .word => false) ||
  (blkType l b = 0x34 && !flt (blkPar l b 1) (blkPar l b 0))

/-- Numbers that a resource parameter of a block type names twice. -/
def blocksOf (l : List W8) (tys : List Nat) : List Nat := (upto (nBlk l)).filter fun b => tys.contains (blkType l b)
/-- Types of which two blocks may not name one number (R343). -/
def dupTypes : List (List Nat) := [[0x60, 0x61], [0x63], [0x65], [0x66]]
def dupPar (l : List W8) (b : Nat) : Bool :=
  dupTypes.any fun tys => tys.contains (blkType l b) &&
    (blocksOf l tys).any fun c => c ≠ b && blkPar l c 0 = blkPar l b 0

/-- A set leaves an RPC, a loop or a ramp channel unconfigured when its PARAMS section lists neither a parameter nor a bank
record of it (log entry 34); `named` holds the indices that the section lists. -/
def unconfigured (named : List Nat) (ty k : Nat) : Bool :=
  let has := fun (f : Nat → Bool) => named.any f
  if ty = 0x31 then !has fun i => decide (0x5100 + 16 * k ≤ i ∧ i < 0x5110 + 16 * k)
  else if ty = 0x06 ∨ ty = 0x62 then !has fun i => decide (0x5200 + 16 * k ≤ i ∧ i < 0x5210 + 16 * k)
  else if ty = 0x30 then
    !has fun i => (decide (0x4000 ≤ i ∧ i < 0x4200) && i % 64 = k) || (isBankIdx i && (i - 0x4200) / 2 = k)
  else false

def resourceBad (c : Block) (named : List Nat) (b : Nat) : Bool :=
  let l := img c
  let k := (blkPar l b 0).toNat
  let ty := blkType l b
  (ty = 0x60 && (parN c (0x3000 + k) = 1 || !armEnabled c k)) || (ty = 0x61 && (parN c (0x3000 + k) = 0 || !armEnabled c k)) ||
  ((ty = 0x05 || ty = 0x29 || ty = 0x63) && parN c (0x5000 + 64 * k) = 0) ||
  ((ty = 0x0B || ty = 0x67) && parN c (0x6000 + k) = 0) ||
  (ty = 0x03 && !bitAt (cellTabAt c k) 0) || unconfigured named ty k || dupPar l b

/-- Values an operation of Table 9-6 takes and gives, and the number of its ARG values (0: ARG is 0). -/
def exprShape (op : Nat) (nIn nConst nOut nSt : Nat) : Option (Nat × Nat × Nat) :=
  match op with
  | 0x00 => some (0, 0, 0)
  | 0x01 => some (0, 1, nIn + 1)
  | 0x02 => some (0, 1, nConst + 1)
  | 0x03 => some (0, 1, nSt + 1)
  | 0x04 => some (1, 0, nOut + 1)
  | 0x05 => some (1, 0, nSt + 1)
  | 0x06 => some (1, 2, 0)
  | 0x07 => some (1, 0, 0)
  | 0x08 => some (2, 2, 0)
  | 0x09 => some (2, 3, 0)
  | 0x18 => some (3, 1, 0)
  | 0x1E => some (3, 1, 0)
  | 0x3C => some (3, 1, 0)
  | 0x40 => some (1, 0, 257)
  | 0x41 => some (0, 0, 0)
  | op =>
    if [0x10, 0x11, 0x12, 0x13, 0x16, 0x17, 0x22, 0x30, 0x31, 0x32, 0x33, 0x34, 0x35, 0x38, 0x39, 0x3B].contains op then some (2, 1, 0)
    else if [0x14, 0x15, 0x19, 0x1A, 0x1B, 0x1C, 0x1D, 0x20, 0x21, 0x23, 0x24, 0x3A].contains op then some (1, 1, 0)
    else none

/-- Every operation word has a code of Table 9-6, an ARG in range and no reserved bit, and no SKZ range runs past the last
operation or holds an END, whether a path reaches the word or not (R353). -/
def exprWordsOk (nIn nConst nOut nSt : Nat) : List Nat → Bool
  | [] => true
  | w :: t =>
    let arg := w / 256 % 256
    (match exprShape (w % 256) nIn nConst nOut nSt with
      | none => false
      | some (_, _, nArg) =>
        if nArg = 0 then arg = 0
        else if nArg = 257 then decide (1 ≤ arg ∧ arg ≤ t.length) && !(t.take arg).any (fun v => v % 256 = 0x41)
        else decide (arg + 1 < nArg)) && w / 2 ^ 16 = 0 && exprWordsOk nIn nConst nOut nSt t

/-- Traces a program: depth now, and for each open SKZ range its operations left and its starting depth. Every path
has the depth of this one, because a range may not change it (R353). -/
def exprTrace (nIn nConst nOut nSt : Nat) : List Nat → Nat → List (Nat × Nat) → Bool
  | [], d, open_ => d = 0 && open_ = []
  | w :: t, d, open_ =>
    let op := w % 256
    let arg := w / 256 % 256
    match exprShape op nIn nConst nOut nSt with
    | none => false
    | some (take, give, nArg) =>
      let argOk := if nArg = 0 then arg = 0 else if nArg = 257 then decide (1 ≤ arg ∧ arg ≤ t.length) else decide (arg + 1 < nArg)
      let d' := d - take + give
      if !(argOk && w / 2 ^ 16 = 0 && decide (take ≤ d) && decide (d' ≤ 16)) then false
      else if op = 0x41 then d = 0 && open_ = []
      else
        let opened := open_.map fun (n, d0) => (n - 1, d0)
        let low := open_.any fun (_, d0) => decide (d' < d0)
        let ended := opened.any fun (n, d0) => n = 0 && d' ≠ d0
        let rest := (opened.filter fun (n, _) => decide (n ≠ 0)) ++ (if op = 0x40 then [(arg, d')] else [])
        if low || ended then false else exprTrace nIn nConst nOut nSt t d' rest

def exprBad (l : List W8) (b : Nat) : Bool :=
  if blkType l b ≠ 0x70 then false
  else
    let r := (blkPar l b 0).toNat
    let n := imgN l r 1
    let nc := imgN l (r + 1) 1
    let consts := (upto nc).map fun k => BitVec.ofNat 32 (imgN l (r + 8 + 4 * k) 4)
    let ops := (upto (if n = 0 then 256 else n)).map fun k => imgN l (r + 8 + 4 * nc + 4 * k) 4
    decide (64 < nc) || imgN l (r + 2) 1 ≠ blkIn l b || imgN l (r + 3) 1 ≠ blkOut l b || imgN l (r + 4) 1 ≠ blkState l b ||
    imgN l (r + 5) 3 ≠ 0 || decide (l.length < r + 8 + 4 * nc + 4 * ops.length) || !consts.all isFinite32 ||
    !exprWordsOk (blkIn l b) nc (blkOut l b) (blkState l b) ops ||
    !exprTrace (blkIn l b) nc (blkOut l b) (blkState l b) ops 0 []

/-- Ends of what the blocks place in the pin area and in the parameter area: pin lists; parameter words and program
records. -/
def pinEnd (l : List W8) : Nat :=
  maxNat ((upto (nBlk l)).map fun b => if nPins l b = 0 then 0 else imgN l (blkOff l b + 8) 4 + 2 * nPins l b)
def parEnd (l : List W8) : Nat :=
  maxNat ((upto (nBlk l)).map fun b =>
    let n := (sigOf l b).pars.length
    let r := (blkPar l b 0).toNat
    let ops := imgN l r 1
    max (if n = 0 then 0 else imgN l (blkOff l b + 12) 4 + 4 * n)
      (if blkType l b = 0x70 then r + 8 + 4 * imgN l (r + 1) 1 + 4 * (if ops = 0 then 256 else ops) else 0))

/-- The header breaks Table 9-1 or R330. The pin and the parameter area reach from their offsets to the last byte that a block
places in them; an area that no block uses is empty and overlaps nothing (log entry 34). -/
def headerBad (l : List W8) : Bool :=
  let size := imgN l 8 4
  let tabs := [(0, 64), (imgN l 0x14 4, 8 * nSig l), (imgN l 0x18 4, 16 * nBlk l), (imgN l 0x1C 4, 32 * nTask l),
    (imgN l 0x20 4, pinEnd l - imgN l 0x20 4), (imgN l 0x24 4, parEnd l - imgN l 0x24 4)]
  let offs := [0x14, 0x18, 0x1C, 0x20, 0x24].map fun o => imgN l o 4
  imgN l 0 4 ≠ 0x52474B59 || imgN l 4 2 ≠ 1 || imgN l 6 2 ≠ 0 || imgN l 0x12 2 ≠ 0 || imgN l 0x28 8 ≠ 0 || imgN l 0x30 16 ≠ 0 ||
  size % 32 ≠ 0 || decide (4194304 < size) || size ≠ l.length ||
  nSig l = 0 || decide (16384 < nSig l) || nBlk l = 0 || decide (4096 < nBlk l) || nTask l = 0 || decide (256 < nTask l) ||
  offs.any (fun o => o % 32 ≠ 0 || decide (size < o)) || tabs.any (fun (o, n) => decide (size < o + n)) ||
  (upto 6).any fun i => (upto i).any fun j =>
    match tabs[i]?, tabs[j]? with | some (a, n), some (b, m) => !apart a n b m | _, _ => false

/-- A block's pin list or parameter words leave the image. -/
def blockAreaBad (l : List W8) (b : Nat) : Bool :=
  decide (l.length < imgN l (blkOff l b + 8) 4 + 2 * nPins l b) ||
  (nPins l b ≠ 0 && decide (imgN l (blkOff l b + 8) 4 < imgN l 0x20 4)) ||
  ((sigOf l b).pars.length ≠ 0 && decide (imgN l (blkOff l b + 12) 4 < imgN l 0x24 4)) ||
  decide (l.length < imgN l (blkOff l b + 12) 4 + 4 * (sigOf l b).pars.length) || imgN l (blkOff l b + 5) 3 ≠ 0

def signalBad (l : List W8) (n : Nat) : Bool :=
  let e := sigEntry l n
  let v := BitVec.ofNat 32 (e / 2 ^ 32)
  sigType l n = 3 || bits e 3 29 ≠ 0 || (sigType l n = 0 && !isFinite32 v) || (sigType l n = 2 && decide (1 < v.toNat))

def checkGraph (c : Block) (named : List Nat) : Option Fail :=
  let l := img c
  if headerBad l then some { code := 8, row := 1, item := 0 }
  else
    let bs := upto (nBlk l)
    firstFail [
      failFirst bs (blockAreaBad l) 8 1,
      failFirst (upto (nSig l)) (signalBad l) 8 2,
      failFirst bs (fun b => (bsig (blkType l b)).isNone) 8 3,
      failFirst bs (pinCountsBad l) 8 4,
      failFirst bs (bindingBad l) 8 5,
      (firstDup (bs.flatMap (ownedBy l)) (nSig l)).map fun n => { code := 8, row := 6, item := n },
      failFirst bs (fun b => (upto (nPins l b)).any fun k =>
        bs.any fun d => d ≠ b && (statesOf l d).contains (blkPin l b k)) 8 7,
      failFirst bs (fun b => decide (nTask l ≤ blkTask l b)) 8 8,
      failFirst (upto (nTask l)) (fun t => !bs.any fun b => blkTask l b = t) 8 8,
      failFirst bs (parBad l) 8 9,
      failFirst bs (resourceBad c named) 8 10,
      failFirst bs (exprBad l) 8 11]

/-! ### Check 9: tasks, queues, windows and channels (Table 10-12, R650) -/

def taskEntryBad (l : List W8) (t : Nat) : Bool :=
  let o := taskOff l t
  decide (7 < tPrio l t) || tPart l t = 0 || decide (15 < tPart l t) || tCores l t = 0 || tMask l t = 0 ||
  decide (1 < imgN l (o + 8) 1) || decide (3 < tPolicy l t) || decide (1 < imgN l (o + 11) 1) || decide (1 < tDmaAt l t) ||
  decide (32 < tBinds l t) || imgN l (o + 0x16) 2 ≠ 0 || decide (2 ^ 48 ≤ tDmaDesc l t)

/-- A source code of Table 10-3 that names something the set configures. -/
def bindSrcOk (c : Block) (src : Nat) : Bool :=
  let l := img c
  decide (src < 0x102) || (decide (0x110 ≤ src ∧ src < 0x11C) && armEnabled c (src - 0x110)) ||
  (decide (0x120 ≤ src ∧ src < 0x12C) && armEnabled c (src - 0x120)) ||
  (decide (0x200 ≤ src ∧ src < 0x240) && qDepth c (src - 0x200) ≠ 0) ||
  (decide (0x300 ≤ src ∧ src < 0x400) && decide (src - 0x300 < nTask l))

def bindingsBad (c : Block) (t : Nat) : Bool :=
  let l := img c
  let o := imgN l (taskOff l t + 12) 4
  o % 4 ≠ 0 || decide (l.length < o + 4 * tBinds l t) ||
  (upto (tBinds l t)).any fun k =>
    let w := tBind l t k
    bits w 5 3 ≠ 0 || bits w 28 4 ≠ 0 || bits w 20 8 = 0 || !bindSrcOk c (bits w 8 12)

/-- Time of a block in ns (Table 9-4); a GOV_CALL adds the bound of R259. -/
def blockTime (c : Block) (b : Nat) : Nat :=
  let l := img c
  let ty := blkType l b
  if ty = 0x70 then 16 + 4 * (let n := imgN l (blkPar l b 0).toNat 1; if n = 0 then 256 else n)
  else if ty = 0x10 ∨ ty = 0x12 ∨ ty = 0x16 ∨ ty = 0x17 then 10 + 2 * blkIn l b
  else if ty = 0x30 then 24 + 32 + 4 * nSec c (blkPar l b 0).toNat
  else (sigOf l b).time

/-- Local SRAM that a block takes: entry, pin list, parameter words and expression record. -/
def blockSram (l : List W8) (b : Nat) : Nat :=
  let r := (blkPar l b 0).toNat
  16 + 2 * nPins l b + 4 * (sigOf l b).pars.length +
    (if blkType l b = 0x70 then 8 + 4 * imgN l (r + 1) 1 + 4 * (let n := imgN l r 1; if n = 0 then 256 else n) else 0)

/-- The window records of a set. -/
def setWindow (w : Tab (List W8)) (p k : Nat) : List W8 := tget [] w (32 * p + k)
def setCovers (w : Tab (List W8)) (p a n perm : Nat) : Bool := (upto 32).any fun k => windowCovers (setWindow w p k) a n perm

def windowBad (r : List W8) : Bool :=
  leAt r 0 8 % 32 ≠ 0 || decide (2 ^ 48 ≤ leAt r 0 8) || leAt r 8 4 % 32 ≠ 0 || decide (2 ^ 48 < leAt r 0 8 + leAt r 8 4) ||
  decide (4 ≤ leAt r 12 1) || leAt r 13 3 ≠ 0

def queueIn (c : Block) (q : Nat) : Bool := qBase c q % 32 = 0 && decide (qBase c q + 32 * qDepth c q ≤ 0x2000000)

def checkTasks (c : Block) (w : Tab (List W8)) : Option Fail :=
  let l := img c
  let ts := upto (nTask l)
  let qs := (upto 64).filter fun q => qDepth c q ≠ 0
  let staging := fun (a n : Nat) => !apart a n stagingBase stagingSize
  firstFail [
    failFirst ts (taskEntryBad l) 9 1,
    failFirst ts (bindingsBad c) 9 2,
    failFirst ts (fun t => imgN l (taskOff l t + 0x10) 4 ≠ 0 &&
      decide (imgN l (taskOff l t + 0x10) 4 < sumNat ((taskBlocks l t).map (blockTime c)))) 9 3,
    failFirst ts (fun t => onesBelow (tCores l t) 16 |>.any fun k =>
      decide (480 * 1024 < sumNat (((upto (nTask l)).filter fun u => bitAt (tCores l u) k).flatMap (taskBlocks l) |>.map (blockSram l)))) 9 4,
    failFirst ts (fun t => tDmaCh l t ≠ 0xFF && (decide (32 ≤ tDmaCh l t) || parN c (0x6300 + tDmaCh l t) ≠ t ||
      tDmaDesc l t % 32 ≠ 0 || !setCovers w (tPart l t) (tDmaDesc l t) 32 0)) 9 5,
    failFirst qs (fun q => !queueIn c q || staging (qBase c q) (32 * qDepth c q) ||
      qs.any (fun r => decide (r < q) && !apart (qBase c r) (32 * qDepth c r) (qBase c q) (32 * qDepth c q))) 9 6,
    failFirst ts (fun t => (taskBlocks l t).any fun b =>
      let q := (blkPar l b 0).toNat
      let ty := blkType l b
      (ty = 0x67 && !setCovers w (tPart l t) (qBase c q) (32 * qDepth c q) 1) ||
      (ty = 0x0B && !setCovers w (tPart l t) (qBase c q) (32 * qDepth c q) 0)) 9 6,
    failFirst (upto 64) (fun q =>
      let a := parN c (0x60C0 + q)
      (match qSrc c q with
        | 1 => a = 0 || decide (0x0FFF < a)
        | 2 => decide (3 < a)
        | _ => a ≠ 0) ||
      ((qSrc c q = 2) && (upto q).any fun r => qSrc c r = 2 && parN c (0x60C0 + r) = a) ||
      ((qSrc c q = 1) && (upto q).any fun r => qSrc c r = 1 && (parN c (0x60C0 + r) &&& a) ≠ 0)) 9 7,
    (w.find? fun p => windowBad p.2 || (leAt p.2 8 4 ≠ 0 && staging (leAt p.2 0 8) (leAt p.2 8 4))).map
      fun p => { code := 9, row := 8, item := 0x6100 + p.1 },
    failFirst (upto 32) (fun k => parN c (0x6300 + k) ≠ 0xFFFF && decide (nTask l ≤ parN c (0x6300 + k))) 9 9,
    failFirst (upto 32) (fun k => decide (2 ≤ (ts.filter fun t => tDmaCh l t = k).length)) 9 9]

/-! ### Checks 10 to 12 -/

/-- Bank b of loop l of a set; an absent record is the passthrough bank (R273). -/
def setBank (c : CfgSet) (k : Nat) : List W8 := tget [] c.banks k
def bankInForce (s : Block) (k : Nat) : List W8 :=
  let x := loopOf s (k / 2)
  if k % 2 = 1 then x.bankB else x.bankA

def checkBank (s c : Block) (set : CfgSet) : Option Fail :=
  let sw := (enabledArms s).any (switching s)
  firstFail [
    (set.banks.find? fun p => !bankOk (nSec c (p.1 / 2)) (intSec c (p.1 / 2)) p.2).map fun p => { code := 10, row := 0, item := p.1 / 2 },
    if sw && secChanged s set 1 then
      ((upto 128).find? fun k => setBank set k ≠ bankInForce s k && (loopOf s (k / 2)).active == (k % 2 = 1 : Bool)).map
        fun k => { code := 10, row := 0, item := k / 2 }
    else none]

/-- A port group's domain counts only where the set uses one of its ports (chapter 19). -/
def domCounts (c : Block) (d : Nat) : Bool :=
  !(decide (6 ≤ d ∧ d < 14)) || ports128.any fun p => p / 16 = d - 6 && portUsed c p

/-- The lowest domain at which the floors, summed in ascending order, pass the budget (R722). -/
def checkPower (c : Block) : Option Fail :=
  let floor := fun d => if domCounts c d then q32 (parW c (0xF100 + d)) else qi 0
  let b := q32 (parW c 0xF000)
  failFirst (upto 30) (fun d => qlt b (((upto (d + 1)).map floor).foldl qadd (qi 0))) 11 0

/-- Bytes of the fixed part of an image of this configuration (R594, Tables 16-4 and 16-5). -/
def imgFixed (c : Block) : Nat :=
  let l := img c
  let sec := fun (n : Nat) => if n = 0 then 0 else n + 8
  let divided := sumNat ((upto (nTask l)).map fun t => ((upto (tBinds l t)).filter fun k => decide (1 < bits (tBind l t k) 20 8)).length)
  let arms := sumNat ((enabledArms c).map fun a =>
    let n := sumNat ((armStrings c a).map (strCells c))
    48 + (n + 7) / 8 + (if parN c (0x3000 + a) = 1 then 4 * initialAvail c a else 0))
  let gov := sumNat (((upto 64).filter fun k => parB c (0x41C0 + k)).map fun k => 16 + 8 * nSec c k)
  let fan := 64 * ((upto 4).filter fun i => parN c (0x5000 + 64 * i) ≠ 0).length
  let sigs := 4 * ((upto (nSig l)).filter fun n => bitAt (sigEntry l n) 2).length
  32 + sec 96 + sec 256 + sec (32 + divided) + sec arms + sec gov + sec fan + sec sigs + sec 384

/-- The partner is present. -/
def partnerPresent (s : Block) : Bool :=
  parB s 0xC000 && !s.tw.partnerAbsent && s.tw.partnerRole ≠ 0 && s.tw.role ≠ .solo

def checkTwin (s c : Block) : Option Fail :=
  let on := parB c 0xC000
  failIf ((on && (decide (6144 < imgFixed c) || decide (16 < parN c 0x0010))) || (!on && parB s 0xC000 && !s.tw.partnerAbsent)) 12 0 0

/-- The checks from 3 on of a set, with its safety section where it has one to check; the flag says that a wrong
password counts (R566). -/
def validate (s : Block) (c : CfgSet) (safe : Option (List W8)) : Option Fail × Bool :=
  let k := candidate s c
  let sec := safe.getD []
  let chg := safe.isSome && safetyChanged s c (leAt sec 9 1)
  match firstFail [checkParam c.parBytes (sec.drop 0x4C), checkCross (phaseN s c) k, checkState s c chg] with
  | some f => (some f, false)
  | none =>
    (firstFail [if chg then checkSafety s sec else none, checkModel s k, checkGraph k ((itemsOf c.parBytes).1.map (·.idx)), checkTasks k (if secChanged s c 1 then c.windows else s.par.wins), checkBank s k c,
      checkPower k, checkTwin s k], chg && wrongPw s sec && !s.spb.pwLock)

end Sys2Proof.Machine
end

