-- ==== Sys2Proof/Machine/Commit.lean ====
section
/-!
DEFINITION. Staging, the commit of a configuration set and boot flash (R651 to R658), and what each chapter does at
commit (R28, R50, R91, R193, R273, R305, R320, R327, R364, R409, R491, R504, R564).
-/

namespace Sys2Proof.Machine

/-- The outcome of a mailbox command; `wait` leaves the mailbox RUNNING. -/
structure OpRes where
  status : Nat := 0
  detail : Nat := 0
  item : Nat := 0
  payload : List W8 := []
  wait : Bool := false
deriving DecidableEq, Repr

def opOk (s : Block) : OpRes × Block := ({}, s)
def opErr (code : Nat) (s : Block) : OpRes × Block := ({ status := code }, s)

/-! ### Session and staging (R651, R658) -/

def stagingOpen (s : Block) : Bool := s.host.session && !s.host.committing
def ownSession (s : Block) (m : Nat) : Bool := s.host.session && s.host.sessionMbx = m

/-- The staging area filled with zeros. -/
def zeroStaging (s : Block) : Block :=
  { s with mem := s.mem.filter fun c => !(decide (stagingBase ≤ c.1 ∧ c.1 < stagingBase + stagingSize)) }

/-- PASSWORD and NEW_PASSWORD of the staged safety section become 0 (R658). -/
def zeroPasswords (s : Block) : Block := writeBytes (stagingBase + secOff s 5 + 0x0C) (leBytes 64 0) s

/-- STAGING_WRITE (R651): host bytes at an offset of the staging window. -/
def stagingWriteStep (off : Nat) (l : List W8) (s : Block) : Block :=
  if stagingOpen s ∧ off + l.length ≤ stagingSize then writeBytes (stagingBase + off) l s else s

/-- CFG_OPEN (R651). -/
def opCfgOpen (m : Nat) (r : MbxReq) (s : Block) : OpRes × Block :=
  let force := r.arg0 % 2 = 1
  if s.host.committing then opErr 0x0D s
  else if s.host.session ∧ s.host.sessionMbx ≠ m ∧ !force then opErr 0x0D s
  else opOk (zeroStaging { s with host := { s.host with session := true, sessionMbx := m } })

/-- CFG_CLOSE (R651). -/
def opCfgClose (m : Nat) (_ : MbxReq) (s : Block) : OpRes × Block :=
  if !ownSession s m then opErr 0x0E s
  else if s.host.committing then opErr 0x0D s
  else opOk { s with host := { s.host with session := false } }

/-! ### Sets as bytes, identity and flash (R657, R658) -/

/-- CFG_CRC: CRC-32C over the CRCs of sections 1 to 4. -/
def cfgIdOf (c : CfgSet) : Nat := crc32c ((c.crcs.take 4).flatMap (leBytes 4))

/-- A safety section with no passwords and the parameter items in force. -/
def safetySection (s : Block) (tag : List W8) : List W8 :=
  (upto 8).map (fun i => (tag[i]?).getD 0#8) ++ leBytes 68 0 ++
    (safetyInForce s).flatMap fun p => itemBytes p.1 (leBytes 4 p.2.toNat)

/-- A set laid out by R648. -/
def setBytes (s : Block) (c : CfgSet) : List W8 :=
  let secs := [c.parBytes, c.portMap, c.cellTab, c.graph, safetySection s c.tag]
  let body := secs.foldl (fun (r : List W8 × List W8 × Nat) sec =>
    let off := 0x60 + r.2.1.length
    (r.1 ++ leBytes 2 r.2.2 ++ leBytes 2 0 ++ leBytes 4 off ++ leBytes 4 sec.length ++ leBytes 4 (crc32c sec),
     r.2.1 ++ sec ++ leBytes (ceil32 sec.length - sec.length) 0, r.2.2 + 1)) ([], [], 1)
  leBytes 4 0x53434B59 ++ leBytes 2 1 ++ leBytes 2 5 ++ leBytes 4 (0x60 + body.2.1.length) ++ leBytes 4 0 ++ body.1 ++ body.2.1

def slotOf (s : Block) (k : Nat) : FlashSlot := tget {} s.host.slots k

/-- A set delivered to the staging area (R658). -/
def deliver (c : CfgSet) (s : Block) : Block := writeBytes stagingBase (setBytes s c) (zeroStaging s)

/-- CFG_LOAD (R641, R655, R658). -/
def opCfgLoad (m : Nat) (r : MbxReq) (s : Block) : OpRes × Block :=
  if s.host.committing then opErr 0x0D s
  else if !ownSession s m then opErr 0x0E s
  else if 2 ≤ r.arg0 then opErr 6 s
  else match (slotOf s r.arg0).set with
    | some c => opOk (deliver c s)
    | none => opErr 6 s

/-- CFG_READ (R641, R658). -/
def opCfgRead (m : Nat) (_ : MbxReq) (s : Block) : OpRes × Block :=
  if s.host.committing then opErr 0x0D s
  else if !ownSession s m then opErr 0x0E s
  else match s.host.setInForce with
    | some c => opOk (deliver c s)
    | none => opErr 9 s

def setInfo (seq : Nat) (c : Option CfgSet) : List W8 :=
  match c with
  | some c => leBytes 4 (cfgIdOf c) ++ leBytes 4 seq ++ (upto 5).flatMap fun k => leBytes 4 ((c.crcs[k]?).getD 0)
  | none => leBytes 28 0

/-- CFG_INFO (R641). -/
def opCfgInfo (_ : MbxReq) (s : Block) : OpRes × Block :=
  ({ payload := setInfo s.host.cfgSeq s.host.setInForce ++ setInfo (slotOf s 0).seq (slotOf s 0).set ++
      setInfo (slotOf s 1).seq (slotOf s 1).set }, s)

/-- The set in force is written over the slot with the lower CFG_SEQ (R657). -/
def storeSet (c : CfgSet) (flashOk : Bool) (s : Block) : Nat × Block :=
  let k := if (slotOf s 0).seq ≤ (slotOf s 1).seq then 0 else 1
  let seq := max (slotOf s 0).seq (slotOf s 1).seq + 1
  let s := { s with host := { s.host with cfgSeq := seq } }
  if flashOk then
    (k, { s with host := { s.host with slots := tput k { seq := seq, set := some { c with newPw := [] } } s.host.slots } })
  else (k, raise evCfgStoreFail s)

/-! ### What takes effect at the commit instant (R653, R654) -/

/-- What the set changes, as the initialisations of R654 ask. -/
structure Delta where
  first : Bool
  par : Bool
  model : Bool
  graph : Bool
  idx : List Nat
deriving DecidableEq, Repr

def deltaOf (s : Block) (c : CfgSet) : Delta :=
  let first := s.seq.state = .await
  { first := first, par := first || secChanged s c 1, model := first || secChanged s c 2 || secChanged s c 3,
    graph := first || secChanged s c 4,
    idx := changedIdx (setScalars s c) (s.par.val.filter fun p => !isSafetyIdx p.1) }

/-- One of the indices base to base + n - 1 changes in value, among those of `ok`. -/
def Delta.any (d : Delta) (base n : Nat) (ok : Nat → Bool) : Bool :=
  d.first || d.idx.any fun i => decide (base ≤ i ∧ i < base + n) && ok i

/-- READY ONLY or AT COMMIT. -/
def commitClass (idx : Nat) : Bool :=
  match paramRow idx with | some (r, _, _) => r.eff = .readyOnly || r.eff = .atCommit | none => false

def commitParams (d : Delta) (c : CfgSet) (s : Block) : Block :=
  let drop := fun (t : Nat) => d.idx.contains t
  let val := (safetyInForce s).foldl (fun t p => tput p.1 p.2 t) (setScalars s c)
  { s with par := {
      val := val, wins := if d.par then c.windows else s.par.wins,
      next := s.par.next.filter (fun p => !drop p.1), nextAt := s.par.nextAt.filter (fun p => !drop p.1),
      older := s.par.older.filter fun p => !drop p.1 } }

/-- A changed N or phase waits for its first cycle start (R50). -/
def commitRhythm (s : Block) : Block :=
  let n := parN s 0x0010
  let p := parN s 0x0011
  if n = s.cyc.n ∧ p = s.cyc.phase ∧ s.cyc.newRhythm.isNone then s
  else { s with cyc := { s.cyc with newRhythm := some (n, p, s.now) } }

/-- A parameter comes into force, with what follows its value at once: the rhythm (R50), a gear (R304), SPARSE (R312). -/
def paramInForce (idx : Nat) (v : W32) (s : Block) : Block :=
  let s := gearWritten idx (parSet idx v s)
  let s := if idx = 0x0010 ∨ idx = 0x0011 then commitRhythm s else s
  let s := if idx = 0xA023 ∨ idx = 0xA024 then rolesChanged s else s
  if 0x5100 ≤ idx ∧ idx < 0x5200 then rpcSparse s else s

/-- A configured cell as the cell table starts it (R28, R491). -/
def freshCell (s : Block) (g : Nat) : CellSt :=
  let e := cellTabAt s g
  let st : CState := match bits e 1 2 with | 0 => .available | 1 => .reserve | _ => .bypassed
  { st := st, rankSt := st, tent := freshRecord s g }

/-- The string of a cell, as its port map entry gives it. -/
def cellWord (s : Block) (g : Nat) : Nat × Nat := (portWord s (g / 48), cellTabAt s g)

/-- Port-group domains are powered where the set uses one of their ports (chapter 19). -/
def commitDomains (s : Block) : Block :=
  { s with pwr := { s.pwr with
    domOn := (upto 8).foldl (fun m g =>
      setBit m (6 + g) ((ports128.any fun p => p / 16 = g && portUsed s p) && !bitAt s.rst.pgFailed g)) s.pwr.domOn } }

/-- A port whose map entry changes begins anew and keeps its counters; one in FAIL stays there until it holds lock while
its arm is not switching (R119). A port that the host forced dark stays dark through a commit, and through a wake, until
its release: the model's choice, as the manual does not say (log entry 31). -/
def commitPort (p : Nat) (s : Block) : Block :=
  let x := port s p
  if x.st = .fail ∧ portUsed s p then
    modPort p (fun x => { x with failLost := true, svc := [], brk := false, split := false }) (noSegment p s)
  else
    let s := modPort p (fun _ =>
      { forced := x.forced, alignErrMax := x.alignErrMax, codeErr := x.codeErr, slotCrcErr := x.slotCrcErr,
        frameCrcErr := x.frameCrcErr, lockLoss := x.lockLoss, reversals := x.reversals, dlyCorr := x.dlyCorr,
        blockSets := x.blockSets, nextTag := x.nextTag }) (alignLost p s)
    if portUsed s p ∧ !x.forced then enterSeek p s else s

/-- Cells, ports and port-group domains of a new model (R28, R91, R121, R491). -/
def commitModel (d : Delta) (c : CfgSet) (s : Block) : Block :=
  if !d.model then s
  else
    let old := s
    let s := { s with model := { s.model with ports := words4 c.portMap 128, cellTab := words8 c.cellTab 6144 } }
    let s := { s with cells := s.model.cellTab.map fun (g, _) =>
      (g, if d.first || cellWord old g ≠ cellWord s g then freshCell s g else cell old g) }
    forEach (upto 128) (fun p s => if !d.first ∧ portWord old p = portWord s p then s else commitPort p s)
      (commitDomains s)

/-- Arms whose READY ONLY parameters or strings change start anew (R193, R204, R238). -/
def commitArms (d : Delta) (old s : Block) : Block :=
  forEach (upto 12) (fun a s =>
    let own := fun (i : Nat) => commitClass i &&
      (decide (0x3100 ≤ i ∧ i < 0x3160) && (i - 0x3100) / 8 = a || (!(decide (0x3100 ≤ i ∧ i < 0x3160)) && i % 16 = a &&
        [0x101, 0x200, 0x201, 0x300, 0x301, 0x307].contains (i / 16)))
    let moved := (upto 128).any fun p =>
      (portArm old p = some a || portArm s p = some a) && portWord old p ≠ portWord s p
    if d.any 0 0x4000 own || moved then
      modArm a (fun x => { armStopped x with
        dir := false, inDb := false, iPrev := none, rankedOnce := false, posOrd := [], negOrd := [], residue := f32Zero, rankDone := false,
        psc := { period := parW s (0x3070 + a) } }) s
    else s) s

/-- Loops whose structure, initial bank or records change (R273). -/
def commitGov (d : Delta) (c : CfgSet) (s : Block) : Block :=
  if !d.par then s
  else forEach (upto 64) (fun l s =>
    let own := fun (i : Nat) => commitClass i && decide (0x4000 ≤ i ∧ i < 0x4200) && i % 64 = l
    if d.any 0x4000 0x200 own || setBank c (2 * l) ≠ bankInForce s (2 * l) || setBank c (2 * l + 1) ≠ bankInForce s (2 * l + 1) then
      modLoop l (fun _ => { bankA := setBank c (2 * l), bankB := setBank c (2 * l + 1), active := parB s (0x4140 + l) }) s
    else s) s

/-- Fantails, repetitive controllers and ramps (R305, R309, R320). -/
def commitEngines (d : Delta) (s : Block) : Block :=
  let s := forEach (upto 4) (fun i s =>
    if d.any (0x5000 + 64 * i) 64 commitClass then
      modFant i (fun x => {
        f := ftW s i 6, num := (ftW s i 0x13).toInt, den := (ftW s i 0x14).toNat, phi := (ftW s i 0x15).toNat,
        form := ftMode s i = 1 && ftW s i 1 = 1#32, droop := x.droop, droops := x.droops, gearDone := x.gearDone })
        (setLocked i false s)
    else s) s
  let s := forEach (upto 16) (fun r s =>
    if d.any (0x5100 + 16 * r) 16 commitClass then modRpc r (fun _ => {}) s else s) s
  forEach (upto 32) (fun c s =>
    if d.any (0x5200 + 16 * c) 16 commitClass then
      rampDone c ((ramp s c).queue.length ≠ 0)
        (modRamp c (fun x => { x := f2d (rmpW s c 7), hardDec := x.hardDec, fullSeen := x.fullSeen }) s)
    else s) s

/-- The graph, its signals and its tasks (R327, R360, R364). -/
def commitGraph (d : Delta) (c : CfgSet) (s : Block) : Block :=
  if !d.graph then s
  else
    let l := c.graph
    let sinks := (blocksOf l [0x60, 0x61]).foldl (fun t b => tput (blkPar l b 0).toNat (blkTask l b + 1) t) []
    let s := { s with
      graph := { image := l, armSink := sinks },
      dam := { s.dam with
        tasks := (upto (nTask l)).filterMap (fun t => if tStart l t then some (t, { st := .cancelled }) else none),
        cores := [], prio := [], later := [], posted := [] } }
    forEach (upto (nSig l)) (fun n => sigWrite n (BitVec.ofNat 32 (sigEntry l n / 2 ^ 32))) s

/-- Queues whose storage or source changes begin empty (R373). -/
def commitQueues (d : Delta) (s : Block) : Block :=
  forEach (upto 64) (fun q s =>
    if d.any 0x6000 0x100 (fun i => i % 64 = q) || d.graph then modQueue q (fun _ => {}) s else s) s

/-- Units whose sequence or reference mode changes (R409, R414, R457). -/
def commitAdc (d : Delta) (s : Block) : Block :=
  let seqCh := fun u => d.first || d.idx.any fun i =>
    i = 0x7004 + u || (decide (0x7100 + 32 * u ≤ i ∧ i < 0x7120 + 32 * u))
  let modeCh := fun u => d.idx.contains (0x7000 + u)
  let s := if !d.first ∧ (upto 4).any (fun u => seqCh u && recRecords s u) then recRetake (recTruncate s) else s
  adcCommit d.first seqCh modeCh s

/-- A unit leaves for WAIT or SOLO with its twin.enable (R577). -/
def commitTwin (was : Bool) (s : Block) : Block :=
  let on := parB s 0xC000
  let s := { s with tw := { s.tw with imgFixed := imgFixed s } }
  if on = was then
    if isActive s ∧ on ∧ (s.tw.partnerRole = 3 ∨ s.tw.partnerRole = 4) then
      { s with tw := { s.tw with cfgMatch := false, bgDone := 0 } }
    else s
  else if on ∧ s.tw.role = .solo then setRole .wait (modTw (fun t => { t with waitAt := s.now }) s)
  else if !on then setRole .solo (modTw (fun t => { t with partnerRole := 0, cfgMatch := false }) s)
  else s

/-- Station time in whole ns for a log entry, 0 while it has never been set. -/
def logTime (s : Block) : Nat :=
  if s.time.timeValid then stNow s else 0

/-- Every section takes effect together; `safe` puts the safety section in force too. -/
def commitApply (c : CfgSet) (safe : Bool) (s : Block) : Block :=
  let d := deltaOf s c
  let old := s
  let was := parB s 0xC000
  let s := commitParams d c s
  let s := if d.idx.contains 0xA023 || d.idx.contains 0xA024 then rolesChanged s else s
  let s := commitRhythm s
  let s := commitModel d c s
  let s := commitArms d old s
  let s := commitGov d c s
  let s := commitEngines d s
  let s := commitQueues d (commitGraph d c s)
  let s := commitAdc d s
  let s := if d.idx.any isPtpIdx then ptpRestart s else s
  let s := if safe then safetyCommit c.safety c.newPw (logTime s) c.tag s else s
  let s := { s with host := { s.host with
    setInForce := some { c with safety := safetyInForce s, newPw := [] }, cfgId := cfgIdOf c } }
  let s := commitTwin was s
  if s.seq.state = .await then setConv .ready s else s

/-- Sections that a set applies, bit t - 1 (Table 17-12). -/
def appliedMask (s : Block) (c : CfgSet) (safe : Bool) : Nat :=
  maskOf (((upto 4).filter fun k => s.seq.state = .await || secChanged s c (k + 1)) ++ (if safe then [4] else []))

/-- The commit record (Table 17-12); `index`: the cycle index at the commit instant. -/
def commitRecord (applied stored : Bool) (slot mask index : Nat) (s : Block) : List W8 :=
  leBytes 1 (b2n applied) ++ leBytes 1 (b2n stored) ++ leBytes 1 slot ++ leBytes 1 mask ++ leBytes 4 index ++
    leBytes 4 s.host.cfgId ++ leBytes 4 s.host.cfgSeq

/-! ### CFG_COMMIT (R652, R655, R656) -/

/-- A commit is rejected: nothing changes but the passwords, and the session stays open. -/
def rejectRes (f : Fail) : OpRes := { status := 0x0F, detail := f.code + 256 * f.row, item := f.item }

def rejected (s : Block) : Block :=
  zeroPasswords (raise evCfgRejected { s with host := { s.host with committing := false, waiting := none } })

/-- The sections 1 to 4 of the staged set are those in force (R580). -/
def sameButSafety (s : Block) (c : CfgSet) : Bool := [1, 2, 3, 4].all fun t => !secChanged s c t

def opCfgCommit (m : Nat) (r : MbxReq) (s : Block) : OpRes × Block :=
  if !ownSession s m then opErr 0x0E s
  else if s.host.committing then opErr 0x0D s
  else match firstFail [checkFormat s, checkCrc s] with
    | some f => (rejectRes f, rejected s)
    | none =>
      let c := stagedSet s
      let sec := secBytes s 5
      if !isActive s && !sameButSafety s c then ({ status := 0x0C }, zeroPasswords s)
      else
        let (f, wrong) := validate s c (some sec)
        let s := if wrong then wrongPassword s else s
        match f with
        | some f => (rejectRes f, rejected s)
        | none =>
          if r.arg0 % 2 = 1 then ({ payload := commitRecord false false 0 0 0 s }, zeroPasswords s)
          else
            ({ wait := true }, zeroPasswords { s with host := { s.host with
              committing := true, waiting := some c, waitMbx := m, waitState := s.seq.state,
              waitSafe := safetyChanged s c (leAt sec 9 1) } })

/-- The sets that AUTOLOAD may still try after a slot fails: the other slot, unless it was the second (R742). -/
def autoloadFails (s : Block) : Block :=
  let s := { s with host := { s.host with committing := false, waiting := none } }
  let other := 1 - s.host.waitSlot
  if s.host.waitRetry then raise evCfgRejected s
  else match (slotOf s other).set with
    | some c =>
      let c := { c with safety := safetyInForce s }
      match (validate s c none).1 with
      | some _ => raise evCfgRejected s
      | none => { s with host := { s.host with
          committing := true, waiting := some c, waitMbx := 8, waitState := s.seq.state, waitSafe := false,
          waitRetry := true, waitSlot := other } }
    | none => raise evCfgRejected s

/-- At the end of an AUTOLOAD the unit's role is that of the set then in force (R577). -/
def autoloadRole (s : Block) : Block :=
  if s.tw.role = .wait ∧ (s.host.setInForce.isNone ∨ !parB s 0xC000) then setRole .solo s else s

/-- What stops when a RUNNING command stops at an abort point: a commit, or a cell access that waits for its reply (R639). -/
def abortRunning (m : Nat) (s : Block) : Block :=
  let s := if s.host.waiting.isSome ∧ s.host.waitMbx = m then
      { s with host := { s.host with committing := false, waiting := none } } else s
  forEach (s.ports.map (·.1)) (fun p => modPort p fun x => { x with svc := x.svc.filter fun r => r.mbx ≠ m })
    (modTw (fun t => { t with svcOut := t.svcOut.filter fun r => r.mbx ≠ m }) s)

/-- A RUNNING command that an ABORT of an earlier fabric cycle has met completes ABORTED (R639). -/
def abortSettle (m : Nat) (s : Block) : Block :=
  let x := mbx s m
  if x.mstate = 2 ∧ abortDue x.abortAt s.now then mbxDone m 2 0 0 [] (abortRunning m s) else s

/-- The store of the set in force ends, in a later fabric cycle than the commit instant and with the MP running: the session
closes and the command completes (R652, R656, R657). -/
def storeSettle (s : Block) : Block :=
  match s.host.storing with
  | none => s
  | some x =>
    if fabric s.now ≤ fabric x.at_ ∨ s.host.mpRestarting then s
    else
      let m := s.host.waitMbx
      let (slot, s) := match s.host.setInForce with | some c => storeSet c x.flashOk s | none => (0, s)
      let s := { s with host := { s.host with committing := false, session := false, storing := none, waitMbx := 8 } }
      if m < 8 then mbxDone m 0 0 0 (commitRecord true x.flashOk slot x.mask x.index s) s else s

/-- CFG_APPLY (R652 to R657): the first cycle start after validation; `flashOk`: the flash write succeeds. The store of the
set follows (`storeSettle`). -/
def cfgApplyStep (flashOk : Bool) (s : Block) : Block :=
  match s.host.waiting with
  | none => s
  | some c =>
    let s := atTime (nextStart s).1 s
    let m := s.host.waitMbx
    let auto := m = 8
    if !auto && abortDue (mbx s m).abortAt s.now then abortSettle m s else
    let bad := if s.seq.state ≠ s.host.waitState then checkState s c s.host.waitSafe else none
    match bad with
    | some f =>
      if auto then autoloadRole (autoloadFails s)
      else mbxDone m 0x0F (f.code + 256 * f.row) f.item [] (rejected s)
    | none =>
      let mask := appliedMask s c s.host.waitSafe
      let s := raise evCfgCommitted (commitApply c s.host.waitSafe s)
      if auto then
        autoloadRole { s with host := { s.host with
          cfgSeq := (slotOf s s.host.waitSlot).seq, committing := false, waiting := none } }
      else
        let (t, new) := nextStart s
        { s with host := { s.host with
          waiting := none, storing := some { at_ := s.now, index := nextIndex s t new, mask := mask, flashOk := flashOk } } }

/-- AUTOLOAD (R742): the slot with the higher CFG_SEQ whose section CRCs pass, then the other. `bad` marks slots whose
CRCs fail. -/
def autoloadStep (bad : Nat) (s : Block) : Block :=
  let noAuto := !s.rst.strapBad && bitAt s.host.straps 3
  let ok := fun k => (slotOf s k).set.isSome && !bitAt bad k
  let hi := if (slotOf s 0).seq < (slotOf s 1).seq then 1 else 0
  if s.rst.phase ≠ .up ∨ s.seq.state ≠ .await ∨ noAuto ∨ s.host.committing then s
  else
    let k := if ok hi then hi else 1 - hi
    let s := { s with host := { s.host with waitSlot := k, waitRetry := !ok (1 - k) } }
    match (slotOf s k).set with
    | none => autoloadRole (raise evCfgRejected s)
    | some c =>
      if !ok k then autoloadRole (raise evCfgRejected s)
      else
        let c := { c with safety := safetyInForce s }
        match (validate s c none).1 with
        | some _ => let s := autoloadFails s; if s.host.waiting.isSome then s else autoloadRole s
        | none => { s with host := { s.host with
            committing := true, waiting := some c, waitMbx := 8, waitState := s.seq.state, waitSafe := false } }

end Sys2Proof.Machine
end

