-- ==== Sys2Proof/Machine/Twin.lean ====
section
/-!
DEFINITION. Twin operation (chapter 16): roles, heartbeats, link, timebase of a standby, the state image, takeover and
handover, revert, and the relay of split strings.
-/

namespace Sys2Proof.Machine

def evTwinTakeover : Nat := 241
def evTwinPartner : Nat := 242
def evTwinLink : Nat := 243
def evTwinSplit : Nat := 244
def evTwinRelayFull : Nat := 245
def evTwinImgErr : Nat := 246
def evTwinSynced : Nat := 247

def roleCode : Role → Nat
  | .solo => 0 | .wait => 1 | .active => 2 | .sync => 3 | .standby => 4 | .offline => 5

/-- The unit takes part in twin operation (R575). -/
def twinOn (s : Block) : Bool := s.tw.role ≠ .solo

/-- This unit may take over (Table 16-1). -/
def eligible (s : Block) : Bool := s.tw.role = .standby || (s.tw.role = .sync && s.tw.cfgMatch)

/-- The partner may take over. -/
def partnerEligible (s : Block) : Bool :=
  !s.tw.partnerAbsent && (s.tw.partnerRole = 4 || (s.tw.partnerRole = 3 && s.tw.cfgMatch))

def setAbsent (s : Block) : Block :=
  if s.tw.partnerAbsent then s else raise evTwinPartner (modTw (fun t => { t with partnerAbsent := true }) s)

/-! ### Ports by role -/

def twinPorts (s : Block) : List Nat := (upto 128).filter fun p => portUsed s p && portTopo s p = 2

/-- Monitor-only frames on every port once the frame in transmission ends (R578, R601, R607). -/
def portsMonitor (s : Block) : Block :=
  { s with ports := s.ports.map fun (p, x) =>
      (p, { x with st := if x.st = .serve then .monitor else x.st, frames := [], relayed := false }) }

/-- The ports of a new active unit serve (R85), those that served a far segment by relay their own (R618). -/
def portsServe (s : Block) : Block :=
  forEach (twinPorts s) (fun p s =>
    let x := port s p
    if x.st = .monitor || (x.st = .serve && x.relayed) then
      modPort p (fun x => { x with st := .serve, reversed := false, relayed := false }) s
    else s) s

/-! ### Link (R582, R583) and relay places (R617, R618) -/

def relayMax (s : Block) : Nat :=
  match s.tw.link with | 2 => 2 * s.cyc.n | 1 => s.cyc.n / 2 | _ => 0

/-- The relays that stand from now on; on the relaying unit the port of one that ends monitors again (R618). -/
def setRelays (l : List Nat) (s : Block) : Block :=
  let ended := s.tw.relays.filter fun p => !l.contains p
  let s := modTw (fun t => { t with relays := l }) s
  if isActive s then s
  else forEach ended (fun p => modPort p fun x =>
    if x.relayed && x.st = .serve then { x with st := .monitor, reversed := false, relayed := false } else x) s

/-- Relays beyond the places end, the last allocated first. -/
def trimRelays (s : Block) : Block := setRelays (s.tw.relays.take (relayMax s)) s

def halfLocked (lanes : Nat) : Bool := bits lanes 0 8 = 0xFF || bits lanes 8 8 = 0xFF

/-- A new state of the link. -/
def setLink (l : Nat) (s : Block) : Block :=
  if s.tw.link = l then s
  else
    let s := trimRelays (raise evTwinLink (modTw (fun t => { t with link := l }) s))
    if l = 0 then setAbsent s else s

/-- The link after a change of lanes or delay: a whole link that stays whole keeps FULL. -/
def linkUpdate (s : Block) : Block :=
  let t := s.tw
  setLink (if 800 < t.dTw || !halfLocked t.lanes then 0 else if t.lanes = 0xFFFF && t.link = 2 then 2 else 1) s

/-- TWIN_LANE_LOSS (R582). -/
def twinLaneLossStep (lane : Nat) (s : Block) : Block :=
  if !twinOn s || decide (16 ≤ lane) then s
  else linkUpdate (modTw (fun t => { t with lanes := setBit t.lanes lane false, allAt := none }) s)

/-- TWIN_LANE_LOCK (R582). -/
def twinLaneLockStep (lane : Nat) (s : Block) : Block :=
  if !twinOn s || decide (16 ≤ lane) then s
  else
    let s := modTw (fun t => { t with lanes := setBit t.lanes lane true }) s
    let s := if s.tw.lanes = 0xFFFF then modTw (fun t => { t with allAt := t.allAt <|> some s.now }) s else s
    linkUpdate s

/-- LINK_FULL_RETURN (R582). -/
def linkFullReturnStep (s : Block) : Block :=
  match s.tw.allAt with
  | some t =>
    if twinOn s && s.tw.lanes = 0xFFFF && s.tw.link = 1 && decide (s.tw.dTw ≤ 800) then
      setLink 2 (atTime (t + 100 * msU) s)
    else s
  | none => s

/-- D_TW (R583): a round trip of 250 ps units completes. -/
def dTwStep (rt : Nat) (s : Block) : Block :=
  if !twinOn s then s
  else
    let l := lastN 16 (s.tw.trips ++ [rt])
    linkUpdate (modTw (fun t => { t with trips := l, dTw := divRne (sumNat l) (2 * l.length) }) s)

/-! ### Heartbeats (R584, R585) -/

/-- The heartbeat this unit sends now (Table 16-3). -/
def hbBytes (s : Block) : List W8 :=
  let t := s.tw
  let w := s.cyc.index % 2 ^ 16 + 2 ^ 16 * roleCode t.role + 2 ^ 19 * b2n t.unitB + 2 ^ 20 * b2n t.declAt.isSome +
    2 ^ 21 * (if t.declAt.isSome then t.declCause else 0) + 2 ^ 24 * b2n t.revertReq + 2 ^ 25 * b2n t.granted +
    2 ^ 26 * b2n t.imgOk
  let body := leBytes 4 w ++ leBytes 4 s.host.cfgId
  body ++ leBytes 2 (crc16 0 body)

def sendHb (s : Block) : Block :=
  if twinOn s then modTw (fun t => { t with hbTx := hbBytes s, revertSent := t.revertReq }) s else s

/-! ### Declarations (R600, R611, R612) -/

/-- The cause is enabled; HOST always is. -/
def declEnabled (s : Block) (c : Nat) : Bool := c = 5 || (decide (1 ≤ c) && bitAt (parN s 0xC004) (c - 1))

/-- An ACTIVE unit whose partner is eligible declares a cause of Table 16-6. -/
def declare (c : Nat) (s : Block) : Block :=
  if s.tw.role = .active ∧ partnerEligible s ∧ declEnabled s c ∧ s.tw.declAt.isNone then
    sendHb (modTw (fun t => { t with declAt := some s.now, declCause := c, granted := false }) s)
  else s

/-- Causes that arise among the raised events, in code order. -/
def declCauses (evs : List Nat) : List Nat :=
  (if evs.contains evPgStopped then [1] else []) ++ (if evs.contains evDeclTaskTrip then [2] else []) ++
  (if evs.contains evDeclCurrent then [3] else []) ++ (if evs.contains 232 then [4] else [])

/-- A cause of Table 16-6 exists on this unit (R609, Table 16-9). -/
def causeExists (s : Block) : Bool :=
  s.model.pgStopped ≠ 0 || s.si.slackLow || (enabledArms s).any fun a => !(armCurrent s a).2

/-! ### Steady and revert (R609, R610) -/

def steadyState (s : Block) : Bool :=
  s.seq.state = .ready || s.seq.state = .charged || s.seq.state = .run || s.seq.state = .blocked

def switchMask (s : Block) : Nat := maskOf ((upto 12).filter (switching s))

/-- Follows the converter state and the switching arms. -/
def trackSteady (s : Block) : Block :=
  let k := (s.seq.state, switchMask s)
  if s.tw.steadyKey = some k then s else modTw (fun t => { t with steadyKey := some k, steadyAt := s.now }) s

def steady (s : Block) : Bool :=
  steadyState s && decide (s.tw.steadyAt + parDur s 0xC003 sU ≤ s.now) &&
    (upto 32).all (fun c => !(ramp s c).busy) && (upto 4).all (fun i => (fant s i).armed.isNone) &&
    (upto 8).all (fun e => !injBusy (engineOf s e)) && s.ports.all (fun p => !p.2.brk)

def revertConds (s : Block) : Bool :=
  !s.tw.unitB && s.tw.role = .standby && !parB s 0xC002 && s.tw.frcLock && s.tw.cfgMatch && !causeExists s

/-- Follows the conditions of R609; a change of twin.revert_holdoff restarts the count. -/
def trackRevert (s : Block) : Block :=
  if revertConds s then
    if s.tw.revertFrom.isSome ∧ s.tw.revertHold = parW s 0xC001 then s
    else modTw (fun t => { t with revertFrom := some s.now, revertHold := parW s 0xC001, revertReq := false }) s
  else if s.tw.revertFrom.isNone ∧ !s.tw.revertReq then s
  else modTw (fun t => { t with revertFrom := none, revertReq := false }) s

/-- REVERT_HOLDOFF (R609). -/
def revertHoldoffStep (s : Block) : Block :=
  match s.tw.revertFrom with
  | some t =>
    if revertConds s then modTw (fun x => { x with revertReq := true }) (atTime (t + parDur s 0xC001 sU) s) else s
  | none => s

/-- HOLDOFF_LEFT. -/
def holdoffLeft (s : Block) : Nat :=
  match s.tw.revertFrom with
  | some t => min 65535 ((t + parDur s 0xC001 sU - s.now + sU - 1) / sU)
  | none => 0

/-- A SYNC unit becomes STANDBY once every record is applied and its FRC is locked (R597). -/
def syncDone (s : Block) : Block :=
  if s.tw.role = .sync ∧ s.tw.cfgMatch ∧ s.tw.bgDone = 0x1F ∧ s.tw.frcLock then raise evTwinSynced (setRole .standby s) else s

/-! ### Image: variable items (R594 to R596) -/

/-- Section type and bytes of a variable item (Table 16-5). -/
def itemType : VarItem → Nat
  | .rpc .. => 9 | .ramp .. => 10 | .cell .. => 11 | .ceiling .. => 12 | .bank .. => 13 | .param .. => 14
def itemSize : VarItem → Nat
  | .rpc .. => 12 | .ramp _ n _ _ _ => 16 + 8 * n | .cell .. => 4 | .ceiling .. => 4 | .bank _ _ l _ => l.length
  | .param .. => 8

/-- The items that fit a budget of bytes in item order, with a section header where the type changes; the rest wait. -/
def placeItems : Nat → Nat → List (Nat × VarItem) → List (Nat × VarItem) × List (Nat × VarItem)
  | _, _, [] => ([], [])
  | budget, prev, x :: t =>
    let n := itemSize x.2 + (if itemType x.2 = prev then 0 else 8)
    if n ≤ budget then
      let (a, b) := placeItems (budget - n) (itemType x.2) t
      (x :: a, b)
    else ([], x :: t)

def itemsBytes (l : List (Nat × VarItem)) : Nat :=
  (l.foldl (fun (acc : Nat × Nat) x =>
    (acc.1 + itemSize x.2 + (if itemType x.2 = acc.2 then 0 else 8), itemType x.2)) (0, 0)).1

def addItem (x : VarItem) (s : Block) : Block :=
  if partnerPresent s && s.tw.role = .active then modTw (fun t => { t with varNew := t.varNew ++ [x] }) s else s

/-- New items take their numbers in section order. -/
def numberItems (s : Block) : Block :=
  let l := sortBy (fun a b => decide (itemType a < itemType b)) s.tw.varNew
  modTw (fun t => { t with
    varNew := [], varQ := t.varQ ++ mapIdx (fun k x => (k, x)) t.nextSeq l, nextSeq := t.nextSeq + l.length }) s

/-- A bank record that has been placed, or needs no image, is loaded and its command completes (R272, R595). -/
def bankPlaced (x : Nat × VarItem) (s : Block) : Block :=
  match x.2 with
  | .bank l b r m =>
    let s := loadBank l b r s
    match m with | some m => mbxDone m 0 0 0 [] s | none => s
  | _ => s

/-- The variable part of the image captured now: items of an image not acknowledged come first (R596). -/
def placeVar (s : Block) : Block :=
  let s := numberItems s
  if partnerPresent s && s.tw.role = .active then
    let t := s.tw
    let (now, later) := placeItems (8192 - t.imgFixed) 0 (t.sent2 ++ t.varQ)
    let s := modTw (fun t => { t with sent2 := t.sent1, sent1 := now, varQ := later }) s
    forEach now bankPlaced s
  else
    let q := s.tw.varQ
    forEach q bankPlaced (modTw (fun t => { t with varQ := [], sent1 := [], sent2 := [] }) s)

/-- Ceiling changes that wait for this cycle start go into an image first (R493). -/
def queueCeilings (s : Block) : Block :=
  forEach s.tentNext (fun n s =>
    if n.val.ceil ≠ (cell s n.cell).tent.ceil ∧ !s.tw.ceilDone.contains n.cell then
      addItem (.ceiling n.cell n.val.ceil) (modTw (fun t => { t with ceilDone := n.cell :: t.ceilDone }) s)
    else s) s

def isCeiling (x : Nat × VarItem) : Bool := itemType x.2 = 12

/-- Some ceiling change finds no place in the image of this cycle start (R493, R595). -/
def ceilingWaits (s : Block) : Bool :=
  if partnerPresent s && s.tw.role = .active then
    let t := (numberItems s).tw
    (placeItems (8192 - t.imgFixed) 0 (t.sent2 ++ t.varQ)).2.any isCeiling
  else false

/-- The update takes effect at this cycle start, unless one of its ceiling changes waits for an image (R493, R595). -/
def tentTakesEffect (s : Block) : Block :=
  if ceilingWaits s then s else modTw (fun t => { t with ceilDone := [] }) (applyTentNext s)

/-! ### Image: capture (R590, R593) -/

def imgCell (s : Block) (x : ArmSt) (g : Nat) (c : CellSt) : ImgCell :=
  let d := advanceCell c (x.sPrev + tcU s)
  let frac := x.fracs.contains (some g)
  { cell := g, held := d.held, lastOn := if frac then d.lastOn else [], lastOff := if frac then d.lastOff else [],
    carrier := c.carrier }

def imgArm (s : Block) (a : Nat) : ImgArm :=
  let x := arm s a
  { arm := a, sw := x.sw, blockCause := x.blockCause, blockedCyc := x.blockedCyc, dir := x.dir, inDb := x.inDb,
    iPrev := x.iPrev, keptNeg := x.keptNeg, kept := x.kept, residue := x.residue, sPrev := x.sPrev, psc := x.psc,
    cells := (armCells s a).map fun (g, c) => imgCell s x g c }

/-- Persistent signals of the graph in ascending number (R355). -/
def persistent (s : Block) : List Nat :=
  if (img s).length = 0 then [] else (upto (nSig (img s))).filter fun n => bitAt (sigEntry (img s) n) 2

/-- Loops whose states travel (R286), Fantails not OFF (R321), and the 16 records in rotation (R493). -/
def imgLoops (s : Block) : Tab LoopSt :=
  ((upto 64).filter fun l => parB s (0x41C0 + l)).map fun l =>
    let x := loopOf s l
    (l, { st := x.st, xl := x.xl, active := x.active, reqs := x.reqs, swapDue := x.swapDue, yPrev := x.yPrev })

def imgFants (s : Block) : Tab FantSt := ((upto 4).filter fun i => ftMode s i ≠ 0).map fun i => (i, fant s i)

def imgStaged (s : Block) : Tab (List W32) :=
  ((upto 4).filter fun i => ftMode s i ≠ 0).map fun i => (i, (upto 5).map fun k => ftW s i (0x16 + k))

def imgTents (s : Block) : List (Nat × TentCell) :=
  let l := s.cells.filter fun c => c.2.st ≠ .none
  ((l.drop s.tw.tentRot ++ l).take (min 16 l.length)).map fun (g, c) => (g, recordOf (recordBytes c.tent))

/-- Image I_k of the state in force at t0_(k+1). -/
def captureImage (handover : Bool) (s : Block) : Image :=
  { cycle := (s.cyc.index + 2 ^ 32 - 1) % 2 ^ 32, deferred := s.tw.varQ.length ≠ 0, handover := handover,
    cfgCrc := s.host.cfgId, t0 := s.cyc.t0, seq := s.seq, arms := (enabledArms s).map (imgArm s),
    setpoints := s.cyc.latched,
    cancelled := (upto 256).filter (taskCancelled s), counters := s.dam.tasks.map fun (t, x) => (t, x.counters),
    loops := imgLoops s, fants := imgFants s, staged := imgStaged s, signals := (persistent s).map (sigBefore s), tents := imgTents s,
    items := s.tw.sent1 }

/-- Bound of the image's departure (R590). -/
def imageBound (s : Block) : Nat := if s.tw.link = 1 then 3 * usU else 3 * usU / 2

/-- The capture and departure of the image at a cycle start. -/
def sendImage (handover : Bool) (s : Block) : Block :=
  if partnerPresent s && s.tw.role = .active then
    let i := captureImage handover s
    let n := s.tw.imgFixed + itemsBytes s.tw.sent1
    let cells := (s.cells.filter fun c => c.2.st ≠ .none).length
    modTw (fun t => { t with
      imgTx := some i, imgBytes := (n + 31) / 32 * 32,
      imageDeparts := s.cyc.t0 + min (imageBound s) (Config.imageTime s.cyc.index),
      tentRot := if cells = 0 then 0 else (t.tentRot + 16) % cells }) s
  else s

/-! ### Image: what a standby takes (R592, R596) -/

/-- The sequence of an image with this unit's own contacts and host registers (R506, R513). -/
def applySeq (i : SeqSt) (s : Block) : Block :=
  { s with seq := { i with
      scState := s.seq.scState, scUnrel := s.seq.scUnrel, scRaw := s.seq.scRaw, contacts := s.seq.contacts,
      cmdHost := s.seq.cmdHost, cmdResult := s.seq.cmdResult, refuseArm := s.seq.refuseArm } }

def applyArm (x : ImgArm) (s : Block) : Block :=
  let s := modArm x.arm (fun y => { y with
    sw := x.sw, blockCause := x.blockCause, blockedCyc := x.blockedCyc, dir := x.dir, inDb := x.inDb, iPrev := x.iPrev,
    keptNeg := x.keptNeg, kept := x.kept, residue := x.residue, sPrev := x.sPrev, psc := x.psc, firstIns := false }) s
  forEach x.cells (fun c s => modCell c.cell (fun y => { y with
    plan := none, held := c.held, lastOn := c.lastOn, lastOff := c.lastOff, carrier := c.carrier }) s) s

def applyItem (x : VarItem) (s : Block) : Block :=
  match x with
  | .rpc r j a b reset => modRpc r (fun y =>
      { y with mem := tset f32Zero (tset f32Zero (if reset then [] else y.mem) j a) ((j + 1) % max 1 (rpcLen s r)) b }) s
  | .ramp c _ x v q => modRamp c (fun y => { y with x := x, v := v, queue := q }) s
  | .cell g st cause => modCell g (fun c => { c with st := st, cause := cause }) s
  | .ceiling g v => modCell g (fun c => { c with tent := { c.tent with ceil := v } }) s
  | .bank l b r _ => loadBank l b r s
  | .param i v => if 0xC000 ≤ i ∧ i < 0xC100 then s else paramInForce i v s

/-- Items in their order; one whose predecessor has not come is held (R596). The first item of a synchronisation sets the
order's beginning: what came before it is in the background records (log entry 13). -/
def takeItems (l : List (Nat × VarItem)) (s : Block) : Block :=
  let all := sortBy (fun (a b : Nat × VarItem) => decide (a.1 < b.1)) (s.tw.rxHold ++ l)
  forEach all (fun x s =>
    let next := s.tw.rxSeq.getD x.1
    if x.1 < next then s
    else if x.1 = next then applyItem x.2 (modTw (fun t => { t with rxSeq := some (next + 1) }) s)
    else modTw (fun t => { t with rxHold := t.rxHold ++ [x] }) s) (modTw (fun t => { t with rxHold := [] }) s)

def applyImage (i : Image) (s : Block) : Block :=
  let s := applySeq i.seq s
  let s := forEach i.arms applyArm s
  let s := { s with cyc := { s.cyc with latched := i.setpoints } }
  let s := forEach (upto (imgTasks s)) (fun t s => modTask t (fun x => { x with
    st := if i.cancelled.contains t then .cancelled else if x.st = .cancelled then .idle else x.st,
    counters := tget [] i.counters t }) s) s
  let s := forEach i.loops (fun (l, x) s => modLoop l (fun y =>
    { y with st := x.st, xl := x.xl, active := x.active, reqs := x.reqs, swapDue := x.swapDue, yPrev := x.yPrev }) s) s
  let s := forEach i.fants (fun (k, x) s => modFant k (fun y => { y with
    th := x.th, f := x.f, integ := x.integ, da := x.da, qa := x.qa, db := x.db, qb := x.qb, lockFrom := x.lockFrom,
    locked := x.locked, d := x.d, num := x.num, den := x.den, phi := x.phi, armed := x.armed, started := x.started,
    angle := x.angle, anglePrev := x.anglePrev, form := x.form }) s) s
  let s := forEach i.staged (fun (k, l) s => forEach (mapIdx (fun n w => (n, w)) (0x5016 + 64 * k) l) (fun p s => parSet p.1 p.2 s) s) s
  let s := forEach ((persistent s).zip i.signals) (fun (n, v) s => sigWrite n v s) s
  let s := forEach i.tents (fun (g, t) s => modCell g (fun c => { c with tent := { c.tent with
    cEst := t.cEst, w := t.w, ceil := t.ceil, vonRefU := t.vonRefU, vonRefL := t.vonRefL, cValid := t.cValid,
    baseU := t.baseU, baseL := t.baseL, retireDue := t.retireDue, retired := t.retired, tjUnk := t.tjUnk,
    retUnconf := t.retUnconf, thAcc := t.thAcc, tj := t.tj, tjBase := t.tjBase, cQual := t.cQual } }) s) s
  modTw (fun t => { t with imgOk := true, imgSet := some i.setpoints }) (takeItems i.items s)

/-- Keep-alive insertions of the quiet cycle on every enabled arm, after a time mark at the first gap (R603). -/
def quietFrames (s : Block) : Block := forEach (enabledArms s) keepAlive s

/-- IMAGE_RX (R592, R596, R604); `bad` is an uncorrectable granule-code error. -/
def imageRxStep (i : Image) (bad : Bool) (s : Block) : Block :=
  let takes := s.tw.role = .sync || s.tw.role = .standby || (s.tw.role = .active && s.tw.waitImage && i.handover)
  if s.tw.role = .active ∧ !takes then modTw (fun t => { t with peerConv := some i.seq.state }) s
  else if !takes then s
  else if bad then
    raise evTwinImgErr (modTw (fun t => { t with imgErr := satInc 16 t.imgErr, imgOk := false }) s)
  else if i.cfgCrc ≠ s.host.cfgId then modTw (fun t => { t with imgOk := true }) s
  else
    let s := applyImage i s
    if s.tw.role = .active then
      quietFrames (modTw (fun t => { t with waitImage := false }) { s with cyc := { s.cyc with setpoints := i.setpoints } })
    else s

/-- HANDOVER_IMAGE_DEADLINE (R604): the new unit goes on from its last image. -/
def handoverImageDeadlineStep (s : Block) : Block :=
  if s.tw.role = .active ∧ s.tw.waitImage then
    let lim := if s.tw.link = 1 then 14000 else 8000
    quietFrames (modTw (fun t => { t with waitImage := false }) (atTime (s.cyc.t0 + s.tw.dTw + lim) s))
  else s

/-! ### Background records (R597, R598) -/

def bgMark (k : Nat) (s : Block) : Block :=
  if 1 ≤ k ∧ k ≤ 5 then syncDone (modTw (fun t => { t with bgDone := setBit t.bgDone (k - 1) true }) s) else s

/-- A SYNC standby applies a record; a configuration set waits for the t0 it names. -/
def bgApply (r : BgRecord) (s : Block) : Block :=
  if s.tw.role ≠ .sync then s
  else match r with
    | .config c t => modTw (fun x => { x with bgSet := some (c, t) }) s
    | .cell g st t => modCell g (fun c => if c.st = .none then c else { c with st := st, tent := t }) s
    | .loop l x => modLoop l (fun _ => x) s
    | .rpc r x => modRpc r (fun _ => x) s
    | .ramp c x v q => modRamp c (fun y => { y with x := x, v := v, queue := q }) s
    | .done k => if k = 1 then s else bgMark k s

/-- BACKGROUND_RECORD (R597): the MP's work, which pauses while it restarts (R668). -/
def backgroundRecordStep (r : BgRecord) (s : Block) : Block :=
  if s.host.mpRestarting then
    if s.tw.role = .sync then modTw (fun t => { t with bgHold := t.bgHold ++ [r] }) s else s
  else bgApply r s

/-- Records that came during an MP restart are applied when it ends. -/
def bgResume (s : Block) : Block :=
  forEach s.tw.bgHold bgApply (modTw (fun t => { t with bgHold := [] }) s)

/-- At the t0 that the active unit named the standby commits the set without its safety section. -/
def bgCommit (s : Block) : Block :=
  match s.tw.bgSet with
  | some (c, t) =>
    if s.tw.role = .sync ∧ t ≤ s.cyc.t0 then
      let s := commitApply { c with safety := safetyInForce s, newPw := [] } false s
      bgMark 1 (modTw (fun x => { x with bgSet := none, cfgMatch := true }) s)
    else s
  | none => s

/-! ### Becoming ACTIVE (R599, R603, R605, R631) -/

/-- The sums of the estimator start anew (R493). -/
def restartSums (c : CellSt) : CellSt :=
  { c with tent := { c.tent with
      n := 0#64, sq := 0#64, sv := 0#64, sqq := 0#64, sqv := 0#64, sumQual := 0, blk := {}, closing := none,
      afterTakeover := true } }

/-- No injection survives a takeover (R285). -/
def injIdle (x : EngineSt) : EngineSt := { queue := x.queue, stalled := x.stalled, queueMax := x.queueMax }

/-- The engines of a new active unit: no injection, and loops whose states do not travel start from zero (R285, R286). -/
def freshEngines (s : Block) : Block :=
  let s := forEach (upto 8) (fun e => modEngine e injIdle) s
  forEach (s.gov.loops.map (·.1)) (fun l s =>
    if parB s (0x41C0 + l) then s else modLoop l (fun x => { x with st := [], xl := 0#32, yPrev := 0#32 }) s) s

/-- The quiet cycle begins: a time mark goes out in the first gap on each port that serves an enabled arm; a takeover
launches its keep-alives at once. -/
def becomeActive (takeover : Bool) (cause : Option Nat) (s : Block) : Block :=
  let s := raise evTwinTakeover (setRole .active s)
  let s := modTw (fun t => { t with
    takeovers := if takeover then satInc 16 t.takeovers else t.takeovers,
    handovers := if takeover then t.handovers else satInc 16 t.handovers,
    quiet := true, waitImage := !takeover, splitCnt := if takeover then some 0 else none, sawReport := false,
    deblockCause := cause, declRx := none, grantRx := false, declAt := none, granted := false, revertReq := false,
    revertFrom := none, relays := if takeover then [] else t.relays.filter t.peerLock, relayAt := [], varNew := [], varQ := [],
    sent1 := [], sent2 := [], nextSeq := t.rxSeq.getD t.nextSeq }) s
  let sp := match s.tw.imgSet with | some l => l | none => s.cyc.setpoints
  let s := { s with cyc := { s.cyc with setpoints := sp, latched := sp, setWrites := [] } }
  let s := freshEngines (portsServe (mapCells (fun _ c => restartSums c) s))
  let s := forEach ((enabledArms s).flatMap (servedPorts s)) (fun p s => markFrom p s.now s) s
  if takeover then quietFrames s else s

/-- The unit hands over at this t0 (R601): its image has left; STANDBY after HOST or a grant, else OFFLINE. -/
def handOver (s : Block) : Block :=
  let c := match s.tw.declAt with | some _ => s.tw.declCause | none => 5
  let s := portsMonitor s
  let s := modTw (fun t => { t with
    declAt := none, granted := false, guard := false, yieldDue := false, rxSeq := some t.nextSeq, rxHold := [],
    offCause := if c = 5 then t.offCause else 1,
    relays := t.relays.filter fun p => !bitAt s.model.pgStopped (p / 16) }) s
  -- it becomes the relaying unit (R618)
  let s := forEach s.tw.relays (fun p => modPort p fun x =>
    if x.st = .monitor then { serveReversed x with relayed := true } else x) s
  setRole (if c = 5 then .standby else .offline) s

/-- Leaving WAIT or yielding for SYNC: records are applied anew (R597). -/
def enterSync (s : Block) : Block :=
  setRole .sync (modTw (fun t => { t with
    bgDone := 0, bgSet := none, bgHold := [], cfgMatch := false, guard := false, rxSeq := none, rxHold := [] }) s)

/-- A yielding unit blocks its arms and turns to monitor-only frames (R578). -/
def yield_ (s : Block) : Block :=
  let s := blockArms ((enabledArms s).filter (switching s)) 10 s
  enterSync (portsMonitor (modTw (fun t => { t with yieldDue := false, declAt := none, granted := false }) s))

/-- This unit is the one of two ACTIVE units that yields (R578). -/
def yields (s : Block) : Bool :=
  let mine := awaitReady s
  let theirs : Bool := match s.tw.peerConv with | some c => c = .await || c = .ready | none => mine
  if mine = theirs then s.tw.unitB else mine

/-- A declaration received early enough for this t0, or a grant accepted, where this unit's heartbeat of the t0 before still
asked for it (R599, R610). -/
def handoverIn (s : Block) : Option (Option Nat) :=
  match s.tw.declRx with
  | some (c, t) => if eligible s ∧ t + 400 ≤ s.cyc.t0 then some (if c = 5 then none else some c) else none
  | none => if s.tw.grantRx && s.tw.role = .standby && s.tw.revertSent then some none else none

/-- A declaration whose handover t0 this is, or a grant that the partner still asks for (R600, R610). -/
def handoverOut (s : Block) : Bool :=
  s.tw.role = .active &&
    (match s.tw.declAt with
      | some t => decide (t + s.tw.dTw + 400 ≤ s.cyc.t0)
      | none => s.tw.granted && s.tw.partnerRevert)

/-- The twin work of a cycle start, after the state of this t0 is in force: image, hand-over, takeover, yield, grant. -/
def twinCycle (s : Block) : Block :=
  if !twinOn s then s
  else
    let out := handoverOut s
    let s := sendImage out (placeVar s)
    let s :=
      if out then handOver s
      else if s.tw.role = .active ∧ s.tw.yieldDue then yield_ s
      else match handoverIn s with
        | some c => becomeActive false c s
        | none => if eligible s ∧ 2 ≤ s.tw.missRun then becomeActive true none s else s
    -- a grant of unit B for the heartbeat of this t0 (R610)
    let g := s.tw.role = .active && s.tw.unitB && s.tw.partnerRevert && s.tw.declAt.isNone && steady s && !s.tw.quiet
    let s := modTw (fun t => { t with
      granted := g, grantRx := false, hbRx := false,
      splitCnt := if t.quiet then t.splitCnt else t.splitCnt.map (· + 1) }) s
    -- IMG_OK speaks of the image of the t0 before
    modTw (fun t => { t with imgOk := false }) (sendHb s)

/-! ### Heartbeats received and missing -/

/-- The first partner heartbeat takes a unit out of WAIT (Table 16-2). -/
def leaveWait (partner : Nat) (s : Block) : Block :=
  if partner = 2 ∨ s.tw.unitB then enterSync s else setRole .active s

/-- HEARTBEAT_RX (R578, R579, R584, R585, R598). -/
def heartbeatRxStep (l : List W8) (s : Block) : Block :=
  let w := leAt l 0 4
  let role := bits w 16 3
  let onTime := s.tw.role = .wait || !s.tw.loaded && s.tw.role = .sync || decide (role = 1 ∨ role = 3) ||
    (bits w 0 16 = s.cyc.index % 2 ^ 16 && decide (s.now ≤ s.cyc.t0 + s.tw.dTw + 2000))
  if !twinOn s || s.tw.link = 0 || l.length ≠ 10 || crc16 0 (l.take 8) ≠ leAt l 8 2 then s
  else if bitAt w 19 = s.tw.unitB then
    let s := modTw (fun t => { t with idConflict := true }) s
    if s.tw.role = .active then s else setRole .offline (modTw (fun t => { t with offCause := 3 }) s)
  else
    -- a declaration is taken whenever it comes (R600); everything else only from a heartbeat that is received
    let s := if bitAt w 20 then modTw (fun t => { t with declRx := t.declRx <|> some (bits w 21 3, s.now) }) s else s
    if !onTime then s
    else
      let same := s.host.setInForce.isSome && leAt l 4 4 = s.host.cfgId
      -- CFG_MATCH of a unit that synchronises is set by R597 alone
      let match_ := same && (isActive s || s.tw.cfgMatch)
      let s := modTw (fun t => { t with
        hbRx := true, missRun := 0, partnerAbsent := false,
        partnerRole := role, cfgMatch := match_, partnerRevert := bitAt w 24, grantRx := t.grantRx || bitAt w 25,
        sent2 := if bitAt w 26 then [] else t.sent2,
        declRx := if bitAt w 20 then t.declRx else none }) s
      match s.tw.role with
      | .wait => leaveWait role s
      | .active => if role = 2 then modTw (fun t => { t with yieldDue := yields s }) s else s
      | .offline => if s.tw.offCause = 2 ∧ role = 2 then enterSync (modTw (fun t => { t with offCause := 0 }) s) else s
      -- a partner that has committed another set: synchronisation begins anew (R598)
      | .standby => if !same then enterSync s else s
      | .sync => if !same then modTw (fun t => { t with bgDone := 0 }) s else syncDone s
      | .solo => s

/-- HEARTBEAT_MISSING (R584, R585). -/
def heartbeatMissingStep (s : Block) : Block :=
  if !twinOn s || s.tw.role = .wait || s.tw.hbRx then s
  else
    let s := atTime (s.cyc.t0 + s.tw.dTw + 2000) s
    let s := modTw (fun t => { t with hbMiss := satInc 16 t.hbMiss, missRun := t.missRun + 1, hbRx := true }) s
    if 2 ≤ s.tw.missRun then setAbsent s else s

/-- WAIT_TIMEOUT (R576). -/
def waitTimeoutStep (s : Block) : Block :=
  if s.tw.role = .wait then setRole .active (setAbsent (atTime (s.tw.waitAt + 2 * sU) s)) else s

/-- TXDIS_GUARD (R602). -/
def txdisGuardStep (s : Block) : Block :=
  if s.tw.role = .active then modTw (fun t => { t with guard := true }) s else s

/-- SPLIT (R607): the unit withdraws without a BLOCK set and without a change of cell or arm state. -/
def splitStep (s : Block) : Block :=
  match s.tw.splitCnt with
  | some n =>
    if s.tw.role = .active ∧ 2 ≤ n ∧ !s.tw.sawReport ∧ s.ports.any (fun p => p.2.lock) then
      let s := portsMonitor (atTime (if n = 2 then s.cyc.t0 + tcU s else s.now) s)
      raise evTwinSplit (setRole .offline (modTw (fun t => { t with offCause := 2, splitCnt := none, guard := false }) s))
    else s
  | none => s

/-- TWIN_CLEAR (R619). -/
def twinClearStep (s : Block) : Block :=
  if s.tw.role = .offline ∧ s.tw.offCause = 1 ∧ !causeExists s then
    enterSync (modTw (fun t => { t with offCause := 0 }) s)
  else s

/-- A REPORT_FRAME while the first two normal cycles after a takeover run (R607). -/
def noteReport (s : Block) : Block :=
  match s.tw.splitCnt with
  | some n => if 1 ≤ n ∧ n ≤ 2 then modTw (fun t => { t with sawReport := true }) s else s
  | none => s

/-! ### Timebase of a standby (R587, R588, R677) -/

/-- The FRC and F_B move by d units of 250 ps. -/
def shiftFrc (d : Int) (s : Block) : Block :=
  { s with now := ((s.now : Int) + d).toNat, time := shiftTime d s.time }

/-- TIME_WORD: FRC and cycle index at the word's launch, and this unit's error against it in ps. -/
def timeWordStep (frc idx : Nat) (err : Int) (s : Block) : Block :=
  let r := s.tw.role
  if !(r = .wait || r = .sync || r = .standby || r = .offline) || s.tw.link = 0 then s
  else if !s.tw.loaded then
    let d : Int := (frc + s.tw.dTw : Nat) - (s.now : Int)
    let s := { s with cyc := { s.cyc with t0 := ((s.cyc.t0 : Int) + d).toNat } }
    shiftFrc d (modTw (fun t => { t with loaded := true, adopt := some idx, sinceTrim := 0 }) s)
  else
    let trim := decide (187 < err.natAbs) && decide (8 ≤ s.tw.sinceTrim + 1)
    let d : Int := if !trim then 0 else if 0 < err then -1 else 1
    let run := if err.natAbs ≤ 400 then min 16 (s.tw.lockRun + 1) else 0
    let s := modTw (fun t => { t with
      frcErr := err + 250 * d, sinceTrim := if trim then 0 else min 8 (t.sinceTrim + 1), lockRun := run,
      frcLock := decide (16 ≤ run), adopt := t.adopt.map fun _ => idx }) s
    syncDone (shiftFrc d s)

/-! ### Breaks and relay (R111 to R115, R613 to R618) -/

/-- A relay place for a break of a twin-ring port; the standby's port sends a time mark and serves (R613). -/
def takeRelay (p : Nat) (s : Block) : Block :=
  let refuse := fun (s : Block) =>
    raise evTwinRelayFull (modTw (fun t => { t with relayRefused := satInc 8 t.relayRefused }) s)
  if s.tw.relays.contains p then s
  else if !partnerPresent s then refuse s
  else
    -- breaks of one fabric cycle take places in ascending port order (R617)
    let late := fun (q : Nat) => decide (p < q) && fabric (tget 0 s.tw.relayAt q) = fabric s.now
    let l := s.tw.relays.filter (fun q => !late q) ++ p :: s.tw.relays.filter late
    let stay := l.take (relayMax s)
    let s := if stay.length < l.length then refuse s else s
    if !stay.contains p then s
    else
      let s := setRelays stay s
      let s := modTw (fun t => { t with relayAt := tput p s.now t.relayAt }) s
      if isActive s then s
      else markFrom p s.now (modPort p (fun x => { serveReversed x with relayed := true }) s)

/-- BREAK sets on a port, now; what its reports show from here on decides its segment (R111, R114). -/
def setBreak (p : Nat) (s : Block) : Block := modPort p (fun x => { x with brk := true, brkAt := s.now }) s

/-- A ring breaks: BREAK on both its ports, absences count anew (R114), and the cells cut off are served from the other
port of a self-ring, from which a time mark goes out in the first gap (R112), or by relay (R115, R613). A port that is
lost serves nothing of it. -/
def ringBreaks (p : Nat) (s : Block) : Block :=
  let s := raise (evRingBreak p) (setBreak p s)
  let s := forEach (strCellList s p) (fun g => modCell g fun c => { c with absent := 0 }) s
  match ringMate s p with
  | some q =>
    let s := setBreak q s
    if parB s 0x1103 then
      let far := if (port s p).st = .monitor then p else q
      if (port s far).st = .monitor then
        markFrom far s.now
          (modPort far (fun x => { serveReversed x with seg := (upto (strCells s far)).map (cellAtHop s far) }) s)
      else s
    else s
  | none => takeRelay p s

/-- RING_BREAK (R111 to R115, R613): a port that serves or monitors has had no lock for link.loss_time. -/
def ringBreakStep (p : Nat) (s : Block) : Block :=
  let x := port s p
  match x.lostAt with
  | none => s
  | some t =>
    if !(portRing s p && (x.st = .serve || x.st = .monitor) && !x.lock && !x.brk) then s
    else ringBreaks p (atTime (t + parDur s 0x1101 usU) s)

/-- The frame of a relay record: slot CRCs, reserved bits and trailer restored (R614). -/
def relayRestore (l : List W8) : List W8 :=
  let len := bits (leAt l 0 8) 38 10
  let hdr := (l.drop 8).take 8
  let fb := bits (leAt hdr 0 8) 8 2 = 1
  let n := (len - 12) / (if fb then 20 else 12)
  let w := if fb then 124 else 80
  let packed := le (l.length - 16) (l.drop 16)
  let slot := fun j =>
    let body := leBytes (if fb then 18 else 10) (bits packed (w * j) w)
    body ++ leBytes 2 (crc16 j body)
  frameBytes hdr ((upto n).flatMap slot) []

/-- RELAY_RECORD_RX (R614): a standby restores the frame of a command record. -/
def relayRecordRxStep (l : List W8) (s : Block) : Block :=
  let w := leAt l 0 8
  if isActive s || bitAt w 7 || decide (l.length < 16) then s
  else modTw (fun t => { t with relayFrames := t.relayFrames ++ [(bits w 0 7, bits w 8 30, relayRestore l)] }) s

/-- The first instant at or after now whose low 30 bits are lt. -/
def launchInstant (now lt : Nat) : Nat := now + (((lt : Int) - (now : Int)) % (2 ^ 30 : Int)).toNat

/-- RELAY_LAUNCH (R614): the frame leaves port p exactly at LT. -/
def relayLaunchStep (p : Nat) (s : Block) : Block :=
  match s.tw.relayFrames.find? (fun x => x.1 = p) with
  | some (q, lt, l) =>
    let s := atTime (launchInstant s.now lt) s
    let s := modTw (fun t => { t with relayFrames := t.relayFrames.erase (q, lt, l) }) s
    modPort p (fun x => { x with lastTx := l, freeAt := s.now + 10 * l.length }) s
  | none => s

/-- The relay record of a report frame (KIND 1, R616). -/
def reportRecord (p lt : Nat) (l : List W8) : List W8 :=
  leBytes 8 (p + 2 ^ 7 + 2 ^ 8 * (lt % 2 ^ 30) + 2 ^ 38 * l.length) ++ l

/-- REPORT_FRAME (R168, R616): a relaying port also forwards the frame to the active unit. -/
def reportFrameStep (p : Nat) (l : List W8) (s : Block) : Block :=
  let s := noteReport s
  let s := if !isActive s && (port s p).relayed then
      modTw (fun t => { t with relayOut := tset [] t.relayOut p (reportRecord p s.now l) }) s
    else s
  reportIn p l s

/-- A service reply from the relaying partner completes the request that was passed to it (R616). -/
def relayReply (g status : Nat) (data : W32) (s : Block) : Block :=
  match s.tw.svcOut.find? (fun r => r.cell = g) with
  | some r =>
    let s := modTw (fun t => { t with svcOut := t.svcOut.erase r }) s
    mbxDone r.mbx (if status = 0 then 0 else 0x17) status g (if status = 0 then leBytes 4 data.toNat else []) s
  | none => s

/-- A reply that the active unit relays completes the request that this unit's port sent (R172). -/
def sideReply (g status : Nat) (data : W32) (s : Block) : Block :=
  match (port s (g / 48)).svc.find? (fun r => r.cell = g && r.sent) with
  | some r => svcReply (g / 48) r status data s
  | none => s

/-- RELAY_REPORT_RX (R616): a forwarded report of a relayed segment, or a service reply; a standby takes the replies to
its own requests (R172). -/
def relayReportRxStep (l : List W8) (reply : Option (Nat × Nat × W32)) (s : Block) : Block :=
  if !isActive s then (match reply with | some (g, st, d) => sideReply g st d s | none => s)
  else
    let w := leAt l 0 8
    let p := bits w 0 7
    let s := if bitAt w 7 && s.tw.relays.contains p then reportCore p (farCell s p) (l.drop 8) (noteReport s) else s
    match reply with | some (g, st, d) => relayReply g st d s | none => s

/-- What the partner says of its port of a twin-ring: a break that it has newly set is a break of both ports (R111), and
on a standby a break that the active unit has cleared is the rejoin (R116). -/
def peerStatus (p : Nat) (lk br : Bool) (d : Nat) (s : Block) : Block :=
  let was := (peerPort s p).brk
  let s := modTw (fun t => { t with peer := tset {} t.peer p { lock := lk, brk := br, dFar := d } }) s
  let x := port s p
  if !(portUsed s p && portTopo s p = 2) then s
  else if br && !was && !x.brk && (x.st = .serve || x.st = .monitor) then ringBreaks p s
  else if !isActive s && was && !br && x.brk && x.lock && lk then ringRejoin p s
  else s

/-- RELAY_PORT_STATUS (R615): LOCK, BREAK and D_FAR of the partner's ports. The manual has the standby send them; that
the active unit sends its own too, so that BREAK sets and clears on both ports of a twin-ring (R111, R116), is the
model's choice (log entry 31). -/
def relayPortStatusStep (l : List (Nat × Bool × Bool × Nat)) (s : Block) : Block :=
  if !twinOn s then s else forEach l (fun (p, lk, br, d) => peerStatus p lk br d) s

/-! ### What a command's end looks at -/

/-- The reference of the root PLL: REFCLK in SOLO and ACTIVE; else the clock of control lane 0, or of lane 8 where the link runs on
lanes 8 to 15 (R582, R586); with the link DOWN there is none (R588). -/
def pllSource (t : TwinSt) : PllRef :=
  if t.role = .solo ∨ t.role = .active then .refclk
  else if t.link = 0 then .held
  else if t.lanes % 256 = 255 then .lane 0
  else .lane 8

def twinSettle (s : Block) : Block :=
  let s := forEach (declCauses s.ev.raised) declare s
  modTw (fun t => { t with pllRef := pllSource t }) (trackRevert (trackSteady s))

end Sys2Proof.Machine
end

