-- ==== Sys2Proof/Machine/Mailbox.lean ====
section
/-!
DEFINITION. Mailboxes: request areas, doorbells, the start of a command and its lengths (R633 to R642).
-/

namespace Sys2Proof.Machine

/-! ### Opcodes (Table 17-8) -/

/-- Opcodes by class: 0 FAST, 1 NORMAL, 2 LONG. -/
def fastOps : List Nat :=
  [0x01, 0x02, 0x10, 0x11, 0x12, 0x20, 0x22, 0x24, 0x30, 0x31, 0x35, 0x36, 0x40, 0x41, 0x42, 0x43, 0x44, 0x45, 0x50, 0x60]
def normalOps : List Nat := [0x13, 0x25, 0x32, 0x33, 0x34, 0x51, 0x70]
def longOps : List Nat := [0x21, 0x23, 0x71, 0x72]
def udpOps : List Nat := [0x01, 0x02, 0x10, 0x12, 0x13, 0x24, 0x31, 0x32, 0x43, 0x44, 0x51, 0x70]

def knownOp (o : Nat) : Bool := fastOps.contains o || normalOps.contains o || longOps.contains o
/-- The class of an opcode; one not in the table is FAST (log entry 7). -/
def opClass (o : Nat) : Nat := if longOps.contains o then 2 else if normalOps.contains o then 1 else 0

/-! ### Request area and doorbells (R633 to R635, R639) -/

def areaByte (x : MbxSt) (k : Nat) : W8 := tget 0#8 x.area k
def areaBytes (x : MbxSt) (off n : Nat) : List W8 := (upto n).map fun i => areaByte x (off + i)

/-- A request as its header and payload lie in a list of bytes (Table 17-6). -/
def requestOf (l : List W8) : MbxReq :=
  let n := leAt l 4 2
  { opcode := leAt l 0 2, tag := leAt l 2 2, len := n, flags := leAt l 6 1, arg0 := leAt l 8 4, arg1 := leAt l 12 4,
    payload := (l.drop 16).take n }

/-- MBX_RING (R635): the request is latched, or the RING is ignored. -/
def mbxRingStep (m : Nat) (s : Block) : Block :=
  if 8 ≤ m then s
  else
    let x := mbx s m
    if x.mstate = 0 ∨ x.mstate = 3 then
      let r := requestOf (areaBytes x 0 0x800)
      modMbx m (fun x => { x with
        mstate := 1, cls := opClass r.opcode, abortResult := 0, abortAt := none, progress := 0, accAt := s.now, req := r, resp := {} }) s
    else modMbx m (fun x => { x with ringIgn := satInc 16 x.ringIgn }) s

/-- A host write of bytes at an offset of a mailbox's 4 KiB; the response area ignores writes (R633, R635). -/
def mbxAreaWrite (m off : Nat) (l : List W8) (s : Block) : Block :=
  let x := mbx s m
  if 0x800 ≤ off then s
  else if x.mstate = 1 ∨ x.mstate = 2 then modMbx m (fun x => { x with wrIgn := satInc 16 x.wrIgn }) s
  else
    let put := mapIdx (fun k b => (k, b)) off l
    modMbx m (fun x => { x with area := (put.filter fun p => decide (p.1 < 0x800)).foldl (fun t p => tset 0#8 t p.1 p.2) x.area }) s

/-- MBX_ABORT (R639, R656): a RUNNING command stops once the fabric cycle has passed without its completion; a commit past
its instant goes on. -/
def mbxAbortStep (m : Nat) (s : Block) : Block :=
  let x := mbx s m
  let res := fun (k : Nat) => modMbx m (fun x => { x with abortResult := k })
  if 8 ≤ m then s
  else if x.mstate = 1 then res 1 (mbxDone m 2 0 0 [] s)
  else if x.mstate = 2 then
    if x.cls = 0 then res 3 s
    else if s.host.storing.isSome ∧ s.host.waitMbx = m then res 2 s
    else if x.abortAt.isSome then s
    else modMbx m (fun x => { x with abortAt := some s.now }) s
  else res 2 s

/-- MBX_RELEASE (Table 17-7). -/
def mbxReleaseStep (m : Nat) (s : Block) : Block :=
  if m < 8 ∧ (mbx s m).mstate = 3 then modMbx m (fun x => { x with mstate := 0 }) s else s

/-! ### The start of a command -/

/-- The firmware serves mailboxes. -/
def fwServes (s : Block) : Bool := s.rst.phase = .up && s.host.fwReady && !s.host.mpRestarting

/-- In the boot failure state the ROM serves three commands on mailbox 0 and answers all else BAD_OPCODE (R738). -/
def romServes (s : Block) : Bool := s.rst.phase = .failed
def romOps : List Nat := [0x02, 0x20, 0x72]

def serves (s : Block) : Bool := fwServes s || romServes s

/-- An accepted command starts before another (R637): FAST before the other classes, and within its class in the order of
acceptance, in one fabric cycle by mailbox number. -/
def startsBefore (s : Block) (k m : Nat) : Bool :=
  let y := mbx s k
  let x := mbx s m
  y.mstate = 1 && ((y.cls = 0 && x.cls ≠ 0) ||
    (y.cls = x.cls && (decide (fabric y.accAt < fabric x.accAt) || (fabric y.accAt = fabric x.accAt && decide (k < m)))))

/-- No accepted command starts before that of mailbox m; the ROM has no such order (R738). UDP requests in progress are of the
class NORMAL (R665). -/
def mbxTurn (s : Block) (m : Nat) : Bool :=
  romServes s || (!((upto 8).any fun k => startsBefore s k m) &&
    !((mbx s m).cls = 1 && s.host.udpWait.any fun u => decide (fabric u.1 < fabric (mbx s m).accAt)))

/-- An accepted command with an opcode starts and runs when its turn has come (R637); one the server does not know completes
BAD_OPCODE (R641). -/
def runOp (code : Nat) (f : Nat → MbxReq → Block → OpRes × Block) (m : Nat) (s : Block) : Block :=
  let x := mbx s m
  if m < 8 && x.mstate = 1 && x.req.opcode = code && serves s && mbxTurn s m then
    if romServes s && (m ≠ 0 || !romOps.contains code) then mbxDone m 4 0 0 [] s
    else
      let r := f m x.req (modMbx m (fun x => { x with mstate := 2 }) s)
      if r.1.wait then r.2 else mbxDone m r.1.status r.1.detail r.1.item r.1.payload r.2
  else s

/-- What the mailboxes do in every fabric cycle: aborts that have come to their abort point (R639), the store of a committed
set (R657), and opcodes not in the table, which complete once a server looks at them (R641). -/
def mbxSettle (s : Block) : Block :=
  forEach (upto 8) (fun m s =>
    let s := abortSettle m s
    let x := mbx s m
    if x.mstate = 1 && serves s && !knownOp x.req.opcode then mbxDone m 4 0 0 [] s else s) (storeSettle s)

/-- The payload has the length the opcode needs, else BAD_LENGTH (R641). -/
def needLen (n : Nat) (r : MbxReq) (s : Block) (k : OpRes × Block) : OpRes × Block :=
  if r.len = n ∧ r.payload.length = n then k else opErr 5 s

/-- A response payload as the area holds it: at most 2,032 bytes, a multiple of 4 (R633). -/
def fitPayload (l : List W8) : List W8 :=
  let l := l.take 2032
  l ++ leBytes (pad4 l.length - l.length) 0

def payOk (l : List W8) (s : Block) : OpRes × Block := ({ payload := l }, s)

/-! ### Identity (Table 17-4) -/

/-- The words at 0x00 to 0x10 of the identity block. -/
def identWord (s : Block) : Nat → W32
  | 0 => BitVec.ofNat 32 (0x6144 + 2 ^ 16 * Config.revision.toNat)
  | 1 => BitVec.ofNat 32 s.host.fwVersion
  | 2 => BitVec.ofNat 32 (s.host.fwSlot + 2 * b2n s.host.twinId + 256 * s.host.straps)
  | 3 => BitVec.ofNat 32 Config.serial.toNat
  | 4 => BitVec.ofNat 32 (Config.serial.toNat / 2 ^ 32)
  | _ => 0#32

/-- NOP and IDENTIFY (R641). -/
def opNop (_ : Nat) (r : MbxReq) (s : Block) : OpRes × Block := needLen 0 r s (opOk s)
def opIdentify (_ : Nat) (r : MbxReq) (s : Block) : OpRes × Block :=
  needLen 0 r s (payOk ((upto 5).flatMap fun k => leBytes 4 (identWord s k).toNat) s)

/-- The configuration commands of chapter 17 with their lengths. -/
def opNoPay (f : Nat → MbxReq → Block → OpRes × Block) (m : Nat) (r : MbxReq) (s : Block) : OpRes × Block :=
  needLen 0 r s (f m r s)

def nopStep : Nat → Block → Block := runOp 0x01 opNop
def identifyStep : Nat → Block → Block := runOp 0x02 opIdentify
def cfgOpenStep : Nat → Block → Block := runOp 0x20 (opNoPay opCfgOpen)
def cfgCommitStep : Nat → Block → Block := runOp 0x21 (opNoPay opCfgCommit)
def cfgCloseStep : Nat → Block → Block := runOp 0x22 (opNoPay opCfgClose)
def cfgLoadStep : Nat → Block → Block := runOp 0x23 (opNoPay opCfgLoad)
def cfgInfoStep : Nat → Block → Block := runOp 0x24 (opNoPay fun _ => opCfgInfo)
def cfgReadStep : Nat → Block → Block := runOp 0x25 (opNoPay opCfgRead)

end Sys2Proof.Machine
end

