-- ==== Sys2Proof/Machine/ParamOps.lean ====
section
/-!
DEFINITION. The parameter commands of the mailboxes (R643 to R647) and the checks and effects of a write by chapter.
-/

namespace Sys2Proof.Machine

/-! ### Reading (R646, R641) -/

def f32Bytes (x : F32) : List W8 := leBytes 4 x.toNat

/-- The record of a bank; an empty one is the passthrough bank of R273. -/
def bankBytes (s : Block) (l : Nat) (b : Bool) : List W8 :=
  let x := loopOf s l
  let r := if b then x.bankB else x.bankA
  if r.length ≠ 0 then r
  else
    leBytes 4 (nSec s l) ++ f32Bytes f32NegInf ++ f32Bytes f32Inf ++ leBytes 4 0 ++
      (upto (nSec s l)).flatMap fun _ => f32Bytes f32One ++ leBytes 16 0 ++ f32Bytes f32NegInf ++ f32Bytes f32Inf

/-- The value of an index in force, as an item carries it; commands read 0. -/
def valueBytes (s : Block) (idx : Nat) : List W8 :=
  if isBankIdx idx then bankBytes s ((idx - 0x4200) / 2) (decide (idx % 2 = 1))
  else if isWindowIdx idx then let r := tget [] s.par.wins (idx - 0x6100); (r ++ leBytes 16 0).take 16
  else match paramRow idx with
    | some (r, _, _) =>
      if r.ty = .record then leBytes 8 0 else if isCommandIdx idx then leBytes 4 0 else leBytes 4 (parN s idx)
    | none => []

/-- Whole items up to a limit of bytes (R633, R665). -/
def itemsUpTo (lim : Nat) : List (List W8) → List W8
  | [] => []
  | x :: t => if x.length ≤ lim then x ++ itemsUpTo (lim - x.length) t else []

/-- PARAM_READ with a limit on its response. -/
def paramReadUpTo (lim : Nat) (r : MbxReq) (s : Block) : OpRes × Block :=
  if r.arg0 = 0 ∨ 64 < r.arg0 then opErr 6 s
  else
    needLen (pad4 (2 * r.arg0)) r s
      (let idx := (upto r.arg0).map fun k => leAt r.payload (2 * k) 2
       match (upto r.arg0).find? fun k => (paramRow ((idx[k]?).getD 0)).isNone with
       | some k => ({ status := 7, detail := k, item := (idx[k]?).getD 0 }, s)
       | none => payOk (itemsUpTo lim (idx.map fun i => itemBytes i (valueBytes s i))) s)

def opParamRead (_ : Nat) (r : MbxReq) (s : Block) : OpRes × Block := paramReadUpTo 2032 r s

/-- A character in UTF-8. -/
def utf8 (c : Char) : List W8 :=
  let n := c.toNat
  if n < 0x80 then leBytes 1 n
  else if n < 0x800 then leBytes 1 (0xC0 + n / 64) ++ leBytes 1 (0x80 + n % 64)
  else leBytes 1 (0xE0 + n / 4096) ++ leBytes 1 (0x80 + n / 64 % 64) ++ leBytes 1 (0x80 + n % 64)

def textBytes (n : Nat) (x : String) : List W8 :=
  let l := (x.toList.flatMap utf8).take n
  l ++ leBytes (n - l.length) 0

/-- Words of a description: type 0, minimum 1, maximum 2, effect 3; open ones are free values. -/
def infoWord (idx k : Nat) : W32 := Config.infoWord (8 * idx + k)
def infoMin (r : PRow) (idx : Nat) : W32 :=
  match r.check with
  | .ints ((lo, _) :: _) => BitVec.ofInt 32 lo
  | .flt lo _ => lo
  | _ => infoWord idx 1
def infoMax (r : PRow) (idx : Nat) : W32 :=
  match r.check with
  | .ints l => match l.getLast? with | some (_, hi) => BitVec.ofInt 32 hi | none => infoWord idx 2
  | .flt _ hi => hi
  | .fltZ _ hi => hi
  | _ => infoWord idx 2

/-- PARAM_INFO (R641). -/
def opParamInfo (_ : Nat) (r : MbxReq) (s : Block) : OpRes × Block :=
  needLen 0 r s
    (match paramRow r.arg0 with
     | none => ({ status := 7, item := r.arg0 }, s)
     | some (w, i, j) =>
       let x := r.arg0
       payOk (textBytes 64 (paramName w i j) ++
         [infoWord x 0, infoMin w x, infoMax w x, paramDefault x].flatMap (fun v => leBytes 4 v.toNat) ++
         textBytes 16 w.unit ++ leBytes 4 (infoWord x 3).toNat) s)

/-- PARAM_FIND (R647): the name ends at its NUL. -/
def opParamFind (_ : Nat) (r : MbxReq) (s : Block) : OpRes × Block :=
  if r.len = 0 ∨ 64 < r.len ∨ r.payload.length ≠ r.len ∨ r.len % 4 ≠ 0 ∨ !r.payload.contains 0#8 then opErr 5 s
  else
    match paramFind (String.ofList ((r.payload.takeWhile (· ≠ 0#8)).map fun b => Char.ofNat b.toNat)) with
    | some i => ({ item := i }, s)
    | none => opErr 7 s

/-! ### The effect of one item (R10, R645) -/

/-- Arrays of commands and of staged values: the unit of an index, when it belongs to the array. -/
def inArray (idx base n stride off len : Nat) : Option Nat :=
  if base ≤ idx ∧ idx < base + n * stride then
    let k := (idx - base) % stride
    if off ≤ k ∧ k < off + len then some ((idx - base) / stride) else none
  else none

def injCmdOf (idx : Nat) : Option Nat := inArray idx 0x4400 8 16 12 1
def injParOf (idx : Nat) : Option Nat := inArray idx 0x4400 8 16 0 12
def gearCmdOf (idx : Nat) : Option Nat := inArray idx 0x5000 4 64 0x1B 1
def gearStagedOf (idx : Nat) : Option Nat := inArray idx 0x5000 4 64 0x16 5
def rampMoveOf (idx : Nat) : Option Nat := inArray idx 0x5200 32 16 8 1
def rampCmdOf (idx : Nat) : Option Nat := inArray idx 0x5200 32 16 9 1
def calCmdOf (idx : Nat) : Option Nat := inArray idx 0x700C 4 1 0 1
def bankOf (idx : Nat) : Option (Nat × Bool) :=
  if isBankIdx idx then some ((idx - 0x4200) / 2, decide (idx % 2 = 1)) else none

def moveOf (i : PItem) : Move := { xt := BitVec.ofNat 32 (leAt i.val 0 4), vc := BitVec.ofNat 32 (leAt i.val 4 4) }

/-- A command written as a parameter. -/
def commandItem (i : PItem) (s : Block) : Block :=
  let w := i.word.toNat
  match injCmdOf i.idx, gearCmdOf i.idx, rampMoveOf i.idx, rampCmdOf i.idx, calCmdOf i.idx with
  | some e, _, _, _, _ => if w = 1 then injStartStep e s else if w = 2 then injAbortStep e s else s
  | _, some k, _, _, _ => if w = 1 then gearArmStep k s else if w = 2 then gearCancelStep k s else s
  | _, _, some c, _, _ => rampMoveStep c (moveOf i).xt (moveOf i).vc s
  | _, _, _, some c, _ =>
    if w = 1 then rampStopStep c s else if w = 2 then rampFlushStep c s
    else if w = 3 then rampSetStep c (parW s (0x520A + 16 * c)) s else s
  | _, _, _, _, some u => if w = 1 then calStartStep u s else if w = 2 then calAbortStep u s else s
  | _, _, _, _, _ => s

/-- A scalar written NEXT CYCLE waits for the next cycle start (R10, R645). -/
def pendScalar (idx : Nat) (v : W32) (s : Block) : Block :=
  -- a write of this fabric cycle replaces the one before it only for the cycle starts that it is due at (R11)
  let older := match tfind s.par.next idx with
    | some w => if fabric (tget 0 s.par.nextAt idx) < fabric s.now then tput idx w s.par.older else s.par.older
    | none => s.par.older
  { s with par := { s.par with
      next := tput idx v s.par.next, nextAt := tput idx s.now s.par.nextAt, older := older } }

/-- A scalar written NOW, or READY ONLY while that is allowed. -/
def setScalar (idx : Nat) (v : W32) (s : Block) : Block :=
  let was := parB s 0xC000
  let s := paramInForce idx v s
  let s := if idx = 0xC000 then commitTwin was s else s
  if isPtpIdx idx then ptpRestart s else s

def scalarItem (i : PItem) (s : Block) : Block :=
  let v := heldItem i
  let s := if 0xC000 ≤ i.idx ∧ i.idx < 0xC100 then s else addItem (.param i.idx v) s
  match paramRow i.idx with
  | some (r, _, _) =>
    if r.eff = .nextCycle then
      let s := pendScalar i.idx v s
      if 0x4180 ≤ i.idx ∧ i.idx < 0x41C0 then requestSwap (i.idx - 0x4180) (decide (v = 1#32)) true s else s
    else setScalar i.idx v s
  | none => s

/-- Bank records wait for an image while the partner is present; the last of them ends the command (R595). -/
def bankItem (m : Nat) (last : Bool) (i : PItem) (s : Block) : Block :=
  match bankOf i.idx with
  | some (l, b) =>
    if partnerPresent s && s.tw.role = .active then addItem (.bank l b i.val (if last then some m else none)) s
    else loadBank l b i.val s
  | none => s

def applyWrite (m : Nat) (last : Nat) (p : Nat × PItem) (s : Block) : Block :=
  let i := p.2
  if isBankIdx i.idx then bankItem m (decide (p.1 = last)) i s
  else if isWindowIdx i.idx then
    { s with par := { s.par with wins := tput (i.idx - 0x6100) i.val s.par.wins } }
  else if isCommandIdx i.idx then commandItem i s
  else if isIgnoredIdx i.idx then s
  else scalarItem i s

/-! ### The checks of one item (R644) -/

/-- A bank record (R271, R272). -/
def bankStatus (s : Block) (i : PItem) : Nat :=
  match bankOf i.idx with
  | some (l, b) =>
    if bankBusy (loopOf s l) b then 0x10 else if !bankOk (nSec s l) (intSec s l) i.val then 8 else 0
  | none => 0

/-- START, ABORT and the parameters of an injection (R278, R281, R284). -/
def injStatus (s : Block) (i : PItem) : Nat :=
  match injCmdOf i.idx, injParOf i.idx with
  | some e, _ =>
    if i.word = 1#32 then (if injBusy (engineOf s e) then 0x0D else if !injStartOk s e then 8 else 0)
    else if i.word = 2#32 ∧ injAbortLate s e then 1 else 0
  | none, some e => if injBusy (engineOf s e) then 0x0D else 0
  | none, none => 0

/-- Gear staging and commands (R306, R308). -/
def gearStatus (s : Block) (i : PItem) : Nat :=
  match gearCmdOf i.idx, gearStagedOf i.idx with
  | some k, _ =>
    if i.word = 1#32 ∧ (fant s k).armed.isSome then 0x11 else if i.word = 2#32 ∧ gearCancelLate s k then 1 else 0
  | none, some k => if (fant s k).armed.isSome then 0x11 else 0
  | none, none => 0

/-- NEXT CYCLE values written before this cycle start take effect (R10, R11). -/
def applyNext (s : Block) : Block :=
  let due := fun (i : Nat) => decide (fabric (tget 0 s.par.nextAt i) < fabric s.now)
  let t := s.par.next.foldl (fun t p =>
    if due p.1 then putParam t p.1 p.2
    else match tfind s.par.older p.1 with | some w => putParam t p.1 w | none => t) s.par.val
  { s with par := { s.par with
    val := t, older := [],
    next := s.par.next.filter (fun p => !due p.1), nextAt := s.par.nextAt.filter fun p => !due p.1 } }

/-- The t0 at which a STOP written now acts finds the queue emptied by the channel's own arrival, in that step or earlier; the
step is looked at ahead, with the moves and values that the machine holds (R319, log entry 33). -/
def rampStopLate (s : Block) (c : Nat) : Bool :=
  let at_ := fun (t : Nat) (s : Block) => { s with cyc := { s.cyc with t0 := t }, now := max s.now t }
  let t := (nextStart s).1
  let s1 := if fabric t = fabric s.now then rampCycle c (at_ t s) else s
  let t1 := if fabric t = fabric s.now then t + tcU s else t
  (ramp (rampStep c (applyNext (at_ t1 s1))) c).queue.length = 0

/-- Ramp moves and commands (R313, R319). -/
def rampStatus (s : Block) (i : PItem) : Nat :=
  match rampMoveOf i.idx, rampCmdOf i.idx with
  | some c, _ =>
    let m := moveOf i
    if !(isFinite32 m.xt && isFinite32 m.vc && flt f32Zero m.vc) then 8
    else if !rampRoom s c && (rampDisplaced c 0 s).isNone then 0x0D else 0
  | none, some c =>
    let empty := (ramp s c).queue.length = 0 ∧ (ramp s c).posted.length = 0
    if i.word = 1#32 ∧ rampStopLate s c then 1 else if i.word = 3#32 ∧ !decide empty then 0x1B else 0
  | none, none => 0

/-- Calibration commands and test selection (R425, R429, R430), and the buffers of the recorder (R457). -/
def unitStatus (s : Block) (i : PItem) : Nat :=
  match calCmdOf i.idx with
  | some u =>
    if i.word = 1#32 then (match (calStart u s).1 with | 0 => 0 | 1 => 9 | 2 => 0x1B | _ => 0x0D)
    else if i.word = 2#32 ∧ (calAbort u s).1 then 1 else 0
  | none =>
    if 0x7010 ≤ i.idx ∧ i.idx < 0x7014 ∧ testInUse s i.word.toNat then 9
    else if i.idx = 0x8000 ∧ (upto 8).any (fun b => (recBuf s b).bstate ≠ 0) then 9
    else 0

/-- The first status other than 0. -/
def firstStatus : List Nat → Nat
  | [] => 0
  | k :: t => if k ≠ 0 then k else firstStatus t

/-- The status of one item of a PARAM_WRITE (R12, R562, R580, R643, R644); `c`: the machine with the earlier items of the
payload in force. -/
def itemStatus (s c : Block) (i : PItem) : Nat :=
  if !isActive s ∧ !decide (0xC000 ≤ i.idx ∧ i.idx < 0xC100) then 0x0C
  else if isSafetyIdx i.idx then 0x0B
  else match paramRow i.idx with
    | none => 7
    | some (r, _, _) =>
      if !itemLenOk r i.idx i.len ∨ !itemRangeOk r i then 8
      else if r.eff = .atCommit then 0x0A
      else if r.eff = .readyOnly ∧ !awaitReady s then 9
      else if isWindowIdx i.idx ∧ windowBad i.val then 8
      else firstStatus [bankStatus c i, injStatus c i, gearStatus c i, rampStatus c i, unitStatus c i]

/-- Whether an item writes a stored scalar. -/
def isScalar (idx : Nat) : Bool := !(isBankIdx idx || isWindowIdx idx || isCommandIdx idx || isIgnoredIdx idx)

/-- The parameters with every pending value and the first items of a payload in force, for the cross-checks. -/
def writeCandidate (s : Block) (l : List PItem) : Block :=
  let pend := s.par.next.foldl (fun t p => putParam t p.1 p.2) s.par.val
  { s with par := { s.par with val := (l.filter fun i => isScalar i.idx).foldl (fun t i => putParam t i.idx (heldItem i)) pend } }

/-- The cross-checks that chapters state on writes (R217, R722 and those of Valid.lean). -/
def crossBad (s : Block) (l : List PItem) : Bool :=
  let c := writeCandidate s l
  crossWrite c ≠ [] || (l.any (fun i => i.idx = 0xF000) && (checkPower c).isSome) ||
    (l.any (fun i => i.idx = 0xC000) && (checkTwin s c).isSome)

/-- The first failing item of those from position k on: its position and status; each item meets the items before it (R645). -/
def badFrom (s : Block) : Block → Nat → List PItem → Option (Nat × Nat)
  | _, _, [] => none
  | c, k, i :: l =>
    let st := itemStatus s c i
    if st ≠ 0 then some (k, st) else badFrom s (applyWrite 0 0 (k, i) c) (k + 1) l

/-- The first failing item: its position and status. -/
def firstBad (s : Block) (l : List PItem) : Option (Nat × Nat) := badFrom s s 0 l

/-- The position of the last bank record, which ends a command that waits for an image. -/
def lastBank (l : List PItem) : Nat :=
  maxNat ((mapIdx (fun k (i : PItem) => if isBankIdx i.idx then k else 0) 0 l))

/-- PARAM_WRITE (R644, R645, R655). -/
def opParamWrite (m : Nat) (r : MbxReq) (s : Block) : OpRes × Block :=
  if r.arg0 = 0 ∨ 64 < r.arg0 then opErr 6 s
  else if s.host.committing then opErr 0x0D s
  else
    match itemsOf r.payload with
    | (l, cut) =>
      if cut.isSome ∨ l.length ≠ r.arg0 ∨ r.payload.length ≠ r.len then opErr 5 s
      else
        match firstBad s l with
        | some (k, st) =>
          let i := (l[k]?).getD { idx := 0, len := 0, val := [] }
          let s := match rampMoveOf i.idx with
            | some c => if st = 0x0D then raise evRmpFull (modRamp c (fun x => { x with fullSeen := true }) s) else s
            | none => s
          ({ status := st, detail := k, item := i.idx }, s)
        | none =>
          if crossBad s l then
            let k := ((upto l.length).find? fun k => crossBad s (l.take (k + 1))).getD 0
            ({ status := 8, detail := k, item := ((l[k]?).map (·.idx)).getD 0 }, s)
          else
            let wait := partnerPresent s && s.tw.role = .active && l.any fun i => isBankIdx i.idx
            ({ wait := wait }, forEach (mapIdx (fun k i => (k, i)) 0 l) (applyWrite m (lastBank l)) s)

def paramReadStep : Nat → Block → Block := runOp 0x10 opParamRead
def paramWriteStep : Nat → Block → Block := runOp 0x11 opParamWrite
def paramInfoStep : Nat → Block → Block := runOp 0x12 opParamInfo
def paramFindStep : Nat → Block → Block := runOp 0x13 opParamFind

end Sys2Proof.Machine
end

