-- ==== Sys2Proof/Machine/HostOps.lean ====
section
/-!
DEFINITION. The mailbox commands on cells, ports, tasks, channels, queues, the Safe Pulse Block, the twin and the
firmware (Table 17-8).
-/

namespace Sys2Proof.Machine

/-! ### Cells (R35 to R38, R489 to R492) -/

def configured (s : Block) (g : Nat) : Bool := decide (g < 6144) && (cell s g).st ≠ .none

/-- The state a request names: 0 AVAILABLE, 1 RESERVE, 2 BYPASSED. -/
def stateOfCode : Nat → Option CState
  | 0 => some .available
  | 1 => some .reserve
  | 2 => some .bypassed
  | _ => none

/-- R36. -/
def changeAllowed (s : Block) (g : Nat) (dest : CState) : Bool :=
  let c := cell s g
  match dest with
  | .bypassed => true
  | .available | .reserve =>
    if c.st = .bypassed || c.st = .faulted then !switching s (cellArm s g) else inService c && c.st ≠ dest
  | _ => false

/-- The cell a waiting change names, when it takes an AVAILABLE cell out or brings a cell in. -/
def leavesAvail (s : Block) (c : CellChange) : List Nat :=
  let out := fun (g : Nat) => if (cell s g).st = .available then [g] else []
  match c with
  | .faulted g _ => out g
  | .host g dest _ => if dest = .available then [] else out g
  | .retire g => out g
  | _ => []
def leavesReserve (s : Block) (c : CellChange) : List Nat :=
  let out := fun (g : Nat) => if (cell s g).st = .reserve then [g] else []
  match c with
  | .faulted g _ => out g
  | .host g dest _ => if dest = .reserve then [] else out g
  | .retire g => out g
  | _ => []
def entersAvail (s : Block) (c : CellChange) : List Nat :=
  match c with
  | .host g dest _ => if dest = .available ∧ (cell s g).st ≠ .available then [g] else []
  | _ => []

def distinct (l : List Nat) : List Nat := unionNat [] l

/-- AVAILABLE cells of the arm once its waiting changes and this one have taken effect, with the promotions that R33
makes for them (R38). -/
def availAfter (s : Block) (g : Nat) : Nat :=
  let a := cellArm s g
  let own := fun (l : List Nat) => l.filter fun h => cellArm s h = a
  let out := own (distinct (g :: s.changes.flatMap (leavesAvail s)))
  let rsvOut := own (distinct (s.changes.flatMap (leavesReserve s)))
  let inn := own (distinct (s.changes.flatMap (entersAvail s)))
  let rsv := (armCells s a).filter fun x => x.2.st = .reserve && !rsvOut.contains x.1 && !x.2.tent.retireDue
  let prom := if parB s (0x1020 + a) then min out.length rsv.length else 0
  availCount s a + inn.length + prom - out.length

/-- CELL_STATE (R36 to R38, R489); it completes at the next cycle start. -/
def opCellState (m : Nat) (r : MbxReq) (s : Block) : OpRes × Block :=
  needLen 0 r s
    (let g := r.arg0
     match stateOfCode r.arg1 with
     | none => ({ status := 6, item := g }, s)
     | some dest =>
       let c := cell s g
       if !configured s g || !changeAllowed s g dest then ({ status := 6, item := g }, s)
       else if (dest = .available || dest = .reserve) && c.tent.retired && decide (parN s (0x90A0 + cellArm s g) ≤ c.tent.w) then
         ({ status := 0x1B, item := g }, s)
       else if dest ≠ .available && c.st = .available && switching s (cellArm s g) &&
           decide (availAfter s g < minAvail s (cellArm s g)) then ({ status := 0x14, item := g }, s)
       else ({ wait := true }, addChange (.host g dest m) s))

def cellStateCode (c : CellSt) : Nat :=
  match c.st with | .available => 0 | .reserve => 1 | .bypassed => 2 | .faulted => 3 | .none => 0xFF

/-- The cells of a count from a first one, or BAD_ARG. -/
def cellRange (r : MbxReq) (most : Nat) : Option (List Nat) :=
  if 1 ≤ r.arg1 ∧ r.arg1 ≤ most ∧ r.arg0 + r.arg1 ≤ 6144 then some ((upto r.arg1).map (r.arg0 + ·)) else none

/-- CELL_STATUS (R641). The last two of the 8 bytes show the cell's report errors, which R29 keeps in the cell status:
their place and width are the model's choice (log entry 28). -/
def opCellStatus (_ : Nat) (r : MbxReq) (s : Block) : OpRes × Block :=
  needLen 0 r s (match cellRange r 254 with
    | none => opErr 6 s
    | some l => payOk (l.flatMap fun g =>
        let c := cell s g
        leBytes 1 (cellStateCode c) ++ leBytes 1 c.cause ++ leBytes 2 (c.vcap.getD 0) ++ leBytes 2 c.flags ++ leBytes 2 c.repErr) s)

/-- CELL_RECORD_READ (R490). -/
def opCellRecordRead (_ : Nat) (r : MbxReq) (s : Block) : OpRes × Block :=
  needLen 0 r s (match cellRange r 84 with
    | none => opErr 6 s
    | some l => payOk (l.flatMap fun g => recordBytes (cell s g).tent) s)

/-- CELL_RECORD_WRITE (R492): a restore or a reset for the next cycle start. -/
def opCellRecordWrite (_ : Nat) (r : MbxReq) (s : Block) : OpRes × Block :=
  let reset := r.arg1 % 2 = 1
  needLen (if reset then 0 else 24) r s
    (let g := r.arg0
     let c := cell s g
     if s.host.committing then opErr 0x0D s
     else if !configured s g || decide (2 ≤ r.arg1) then ({ status := 6, item := g }, s)
     else if switching s (cellArm s g) && c.st ≠ .bypassed && c.st ≠ .faulted then ({ status := 9, item := g }, s)
     else
       let fresh := freshRecord s g
       let x := recordOf r.payload
       let v := if reset then fresh else { x with ceil := min x.ceil fresh.ceil }
       opOk { s with tentNext := s.tentNext ++ [{ cell := g, val := v, fresh := true }] })

/-- The port that serves a cell, if one does. -/
def servingPort (s : Block) (g : Nat) : Option Nat :=
  let p := g / 48
  let can := fun (q : Nat) => portUsed s q && (port s q).seg.contains g && ((port s q).st = .serve)
  if can p then some p else match ringMate s p with | some q => if can q then some q else none | none => none

/-- CELL_SERVICE (R641): a register access through the service slot, or through the partner of a relayed segment. -/
def opCellService (m : Nat) (r : MbxReq) (s : Block) : OpRes × Block :=
  needLen 4 r s
    (let g := r.arg0
     let wr := bitAt r.arg1 8
     let addr := r.arg1 % 256
     let data := BitVec.ofNat 32 (le 4 r.payload)
     if !configured s g || decide (512 ≤ r.arg1) then ({ status := 6, item := g }, s)
     else match servingPort s g with
       | some p => ({ wait := true }, svcAdd p g wr addr data m s)
       | none =>
         if s.tw.relays.contains (strPort s (g / 48)) then
           ({ wait := true }, modTw (fun t => { t with svcOut := t.svcOut ++
             [{ cell := g, sideB := !s.tw.unitB, wr := wr, addr := addr, data := data, tag := 0, sent := true, endT := s.now,
                tries := 0, mbx := m }] }) s)
         else ({ status := 0x18, item := g }, s))

/-! ### Ports (R116, R124, R125) -/

/-- The cells of a port forced dark are handled as after a break (R125). -/
def portDarkBreak (p : Nat) (s : Block) : Block :=
  let x := port s p
  if x.st ≠ .serve ∧ x.st ≠ .monitor then s
  else match ringMate s p with
    | some q =>
      if !parB s 0x1103 then
        if x.st = .serve && r781 s then forEach x.seg (fun g => faultCell g 6) s else s
      else if x.brk then s
      else if x.st = .monitor then setBreak q (raise (evRingBreak p) (setBreak p s))
      else ringBreaks p s
    | none =>
      if portTopo s p = 2 then
        if x.brk || !isActive s then s else ringBreaks p s
      else if r781 s then forEach (strCellList s p) (fun g => faultCell g 6) s
      else s

/-- PORT_DARK (R124, R125). The manual gives no status to the release of a port that is not forced dark: OK without
effect is the model's choice (log entry 31). -/
def opPortDark (_ : Nat) (r : MbxReq) (s : Block) : OpRes × Block :=
  needLen 0 r s
    (let p := r.arg0
     if 128 ≤ p ∨ !portUsed s p ∨ 1 < r.arg1 then ({ status := 6, item := p }, s)
     else if switching s (strArm s p) then ({ status := 0x12, item := p }, s)
     else if r.arg1 = 1 then opOk (modPort p (fun x => { x with forced := true }) (enterDark p (portDarkBreak p s)))
     else if (port s p).forced then
       let s := modPort p (fun x => { x with forced := false }) s
       opOk (if bitAt s.rst.pgFailed (p / 16) || bitAt s.model.pgStopped (p / 16) then s else enterSeek p s)
     else opOk s)

/-- RING_REJOIN (R116): at the arm's next window start, or the next cycle start while the arm is not switching. -/
def opRingRejoin (_ : Nat) (r : MbxReq) (s : Block) : OpRes × Block :=
  needLen 0 r s
    (let p := r.arg0
     if 128 ≤ p ∨ !portRing s p then ({ status := 6, item := p }, s)
     else if !(port s p).brk then opOk s
     else if !ringRepaired s p then ({ status := 0x1B, item := p }, s)
     else if switching s (strArm s p) then opOk (modArm (strArm s p) (fun x => { x with rejoin := insertNat p x.rejoin }) s)
     else opOk s)

/-! ### Tasks, channels and queues (R369 to R372, R384, R390, R399, R378) -/

/-- TASK_CTRL (R369 to R372). -/
def opTaskCtrl (_ : Nat) (r : MbxReq) (s : Block) : OpRes × Block :=
  needLen 0 r s
    (let t := r.arg0
     if imgTasks s ≤ t then ({ status := 6, item := t }, s)
     else match r.arg1 with
       | 1 => if cancelRefused s t then ({ status := 0x12, item := t }, s) else opOk (cancelTask t s)
       | 2 => opOk (rearm false t s)
       | 3 => opOk (rearm true t s)
       | _ => ({ status := 6, item := t }, s))

/-- The firmware owns a channel. -/
def fwOwned (s : Block) (c : Nat) : Bool := decide (c < 32) && parN s (0x6300 + c) = 0xFFFF

/-- DMA_START (R384). -/
def opDmaStart (_ : Nat) (r : MbxReq) (s : Block) : OpRes × Block :=
  needLen 8 r s
    (let c := r.arg0
     if !fwOwned s c then ({ status := 6, item := c }, s)
     else
       let busy := (dma s c).st ≠ .idle
       let s := dmaStart c 0 (le 8 r.payload) s
       if busy then ({ status := 0x0D, item := c }, s) else opOk s)

/-- DMA_ABORT (R390). -/
def opDmaAbort (m : Nat) (r : MbxReq) (s : Block) : OpRes × Block :=
  needLen 0 r s
    (let c := r.arg0
     if !fwOwned s c then ({ status := 6, item := c }, s)
     else match dmaAbort m c s with
       | (late, s) => ({ status := b2n late }, s))

def dmaCode : DmaState → Nat
  | .idle => 0 | .running => 1 | .halted => 2

/-- DMA_STATUS (Table 10-14). -/
def opDmaStatus (_ : Nat) (r : MbxReq) (s : Block) : OpRes × Block :=
  needLen 0 r s
    (if 32 ≤ r.arg0 then ({ status := 6, item := r.arg0 }, s)
     else
       let x := dma s r.arg0
       payOk (leBytes 1 (dmaCode x.st) ++ leBytes 1 x.outcome ++ leBytes 1 x.cause ++ leBytes 1 x.part ++
         leBytes 4 x.residual ++ leBytes 8 x.faultAddr ++ leBytes 8 x.descAddr ++ leBytes 4 x.startsRefused ++ leBytes 4 0) s)

/-- QUEUE_STATUS (Table 10-15); FILL_MAX counts anew from the read. -/
def opQueueStatus (_ : Nat) (r : MbxReq) (s : Block) : OpRes × Block :=
  needLen 0 r s
    (let q := r.arg0
     if 64 ≤ q then ({ status := 6, item := q }, s)
     else
       let x := queue s q
       payOk (leBytes 4 (x.fill + 512 * x.fillMax) ++ leBytes 4 (x.stallCnt + 2 ^ 16 * x.lostCnt))
         (modQueue q (fun x => { x with fillMax := x.fill }) s))

/-- QUEUE_POST (R378, R641). -/
def opQueuePost (m : Nat) (r : MbxReq) (s : Block) : OpRes × Block :=
  needLen 32 r s
    (let q := r.arg0
     if 64 ≤ q then ({ status := 6, item := q }, s)
     else if qSrc s q ≠ 3 then ({ status := 0x1B, item := q }, s)
     else
       match hostPost q m ((upto 8).map fun k => BitVec.ofNat 32 (leAt r.payload (4 * k) 4)) s with
       | (true, s) => opOk s
       | (false, s) => ({ status := 0x0D, item := q }, s))

/-! ### Safe Pulse Block, twin and firmware (R554, R555, R567, R611, R641, R745) -/

/-- SPB_ACK (R554 to R556). -/
def opSpbAck (m : Nat) (r : MbxReq) (s : Block) : OpRes × Block :=
  needLen 0 r s
    (if s.spb.mpWdLost then opErr 0x1B s
     else match spbAck s with
       | (st, c, i, s) =>
         ({ status := st, detail := if st = 0 then 0 else c, item := i }, modSpb (fun x => { x with ackBy := some (s.now, m) }) s))

/-- SPB_LOG_READ (R567): the entries held from a sequence number on. -/
def opSpbLogRead (_ : Nat) (r : MbxReq) (s : Block) : OpRes × Block :=
  needLen 0 r s
    (if r.arg1 = 0 ∨ 63 < r.arg1 then opErr 6 s
     else payOk ((s.spb.log.filter fun e => decide (r.arg0 ≤ leAt e 0 4 % 2 ^ 28 ∧ leAt e 0 4 % 2 ^ 28 < r.arg0 + r.arg1)).flatten) s)

/-- RELINQUISH (R611). -/
def opRelinquish (_ : Nat) (r : MbxReq) (s : Block) : OpRes × Block :=
  needLen 0 r s
    (if !isActive s then opErr 0x0C s
     else if s.tw.role ≠ .active ∨ !partnerEligible s ∨ s.seq.state = .energize ∨ s.seq.state = .discharge ∨
         s.tw.declAt.isSome ∨ s.tw.granted then opErr 0x1B s
     else opOk (declare 5 s))

/-- LOG_READ (R641): what the firmware has logged is a free value. -/
def opLogRead (_ : Nat) (r : MbxReq) (s : Block) : OpRes × Block :=
  needLen 0 r s (payOk (fitPayload (Config.fwLog s.free r.arg0)) (useFree s))

/-- SELF_TEST (R641): its results are a free value. -/
def opSelfTest (_ : Nat) (r : MbxReq) (s : Block) : OpRes × Block :=
  needLen 0 r s (payOk (fitPayload (Config.selfTest s.free)) (useFree s))

/-- FW_UPDATE (R745): the image in staging goes to the slot that does not run; `ok`: it writes and verifies, `version`: its
security version. -/
def opFwUpdate (ok : Bool) (version : Nat) (m : Nat) (r : MbxReq) (s : Block) : OpRes × Block :=
  needLen 0 r s
    (if !ownSession s m then opErr 0x0E s
     else if s.host.committing then opErr 0x0D s
     else if !ok then opErr 0x19 s
     else
       let k := 1 - s.host.fwSlot
       opOk { s with rst := { s.rst with prefer := k, versions := tput k version s.rst.versions } })

def cellStateStep : Nat → Block → Block := runOp 0x30 opCellState
def cellStatusStep : Nat → Block → Block := runOp 0x31 opCellStatus
def cellRecordReadStep : Nat → Block → Block := runOp 0x32 opCellRecordRead
def cellRecordWriteStep : Nat → Block → Block := runOp 0x33 opCellRecordWrite
def cellServiceStep : Nat → Block → Block := runOp 0x34 opCellService
def portDarkStep : Nat → Block → Block := runOp 0x35 opPortDark
def ringRejoinStep : Nat → Block → Block := runOp 0x36 opRingRejoin
def taskCtrlStep : Nat → Block → Block := runOp 0x40 opTaskCtrl
def dmaStartStep : Nat → Block → Block := runOp 0x41 opDmaStart
def dmaAbortStep : Nat → Block → Block := runOp 0x42 opDmaAbort
def dmaStatusStep : Nat → Block → Block := runOp 0x43 opDmaStatus
def queueStatusStep : Nat → Block → Block := runOp 0x44 opQueueStatus
def queuePostStep : Nat → Block → Block := runOp 0x45 opQueuePost
def spbAckStep : Nat → Block → Block := runOp 0x50 opSpbAck
def spbLogReadStep : Nat → Block → Block := runOp 0x51 opSpbLogRead
def relinquishStep : Nat → Block → Block := runOp 0x60 opRelinquish
def logReadStep : Nat → Block → Block := runOp 0x70 opLogRead
def selfTestStep : Nat → Block → Block := runOp 0x71 opSelfTest
def fwUpdateStep (m : Nat) (ok : Bool) (version : Nat) : Block → Block := runOp 0x72 (opFwUpdate ok version) m

/-! ### UDP transport (R663 to R665) -/

/-- A request that the transport accepts runs with the class NORMAL and its response is cut to whole items. -/
def udpItem (o : Nat) (l : List W8) : List W8 :=
  let cut := fun (n : Nat) => l.take (1440 / n * n)
  match o with
  | 0x31 => cut 8
  | 0x32 => cut 24
  | 0x51 => cut 32
  | _ => cut 4

def udpOp (r : MbxReq) (s : Block) : OpRes × Block :=
  match r.opcode with
  | 0x01 => opNop 8 r s
  | 0x02 => opIdentify 8 r s
  | 0x10 => paramReadUpTo 1440 r s
  | 0x12 => opParamInfo 8 r s
  | 0x13 => opParamFind 8 r s
  | 0x24 => opNoPay (fun _ => opCfgInfo) 8 r s
  | 0x31 => opCellStatus 8 r s
  | 0x32 => opCellRecordRead 8 r s
  | 0x43 => opDmaStatus 8 r s
  | 0x44 => opQueueStatus 8 r s
  | 0x51 => opSpbLogRead 8 r s
  | 0x70 => opLogRead 8 r s
  | _ => opErr 0x1A s

def udpRun (r : MbxReq) (s : Block) : Block :=
  match udpOp r s with
  | (x, s) => { s with host := { s.host with udpReply := some {
      opcode := r.opcode, tag := r.tag, status := x.status, cls := 1, detail := x.detail, item := x.item,
      payload := udpItem r.opcode x.payload } } }

/-- The turn of a request of the transport that came at an instant: FAST commands and NORMAL commands accepted no later start
before it (R637, R665). -/
def udpTurn (s : Block) (at_ : Nat) : Bool :=
  !(upto 8).any fun k =>
    let y := mbx s k
    y.mstate = 1 && (y.cls = 0 || (y.cls = 1 && decide (fabric y.accAt ≤ fabric at_)))

/-- UDP_REQUEST (R663 to R665) on an Ethernet port from a source address: run, answered TRANSPORT, kept until its turn comes or
the firmware serves again, or dropped. -/
def udpRequestStep (p addr : Nat) (l : List W8) (s : Block) : Block :=
  let sel := parN s 0xD002
  let mask := parN s 0xD004
  let open_ := parB s 0xD000 && decide (p < 2) && (sel = 0 || sel = p + 1) && parN s (0xD008 + p) ≠ 0 &&
    decide (l.length ≤ 1456 ∧ 16 ≤ l.length)
  if !open_ ∨ s.rst.phase ≠ .up ∨ addr &&& mask ≠ parN s 0xD003 &&& mask then s
  else if 4 ≤ s.host.udpWait.length then raise evUdpDrop s
  else if fwServes s && s.host.udpWait.isEmpty && udpTurn s s.now then udpRun (requestOf l) s
  else { s with host := { s.host with udpWait := s.host.udpWait ++ [(s.now, requestOf l)] } }

/-- Requests that wait run in their order as their turn comes (R637, R665). -/
def udpSettle (s : Block) : Block :=
  if !fwServes s then s
  else
    let due := s.host.udpWait.takeWhile fun u => udpTurn s u.1
    forEach due (fun u => udpRun u.2) { s with host := { s.host with udpWait := s.host.udpWait.drop due.length } }

/-! ### MP load and restart (R666 to R668, R640) -/

/-- MP_LOAD (R666, R667): the load of the last 100 ms in permille. -/
def mpLoadStep (load : Nat) (s : Block) : Block :=
  let load := min load 1000
  let h := s.host
  let high := if 900 < load then h.loadHigh + 1 else 0
  let low := if load < 800 then h.loadLow + 1 else 0
  let set := !h.mpOverload && decide (10 ≤ high)
  let excess := if set then true else h.mpOverload && !decide (10 ≤ low)
  raiseIf set evMpOverload { s with host := { h with
    mpLoad := load, mpLoadMax := max load h.mpLoadMax, loadHigh := min high 10, loadLow := min low 10, mpOverload := excess } }

/-- DETAIL of MP_RESTARTED: 1 where the command may have taken effect (R640, R641, R656): not for a commit before its instant,
nor for a cell access that no frame has carried. -/
def restartDetail (s : Block) (m : Nat) : Nat :=
  let o := (mbx s m).req.opcode
  let unsent := (upto 128).any fun p => (port s p).svc.any fun r => r.mbx = m && !r.sent
  b2n (o = 0x30 || o = 0x11 || (o = 0x34 && !unsent) || (o = 0x21 && s.host.storing.isSome && s.host.waitMbx = m))

/-- A set past its commit instant no longer completes the command; the restarted firmware stores it (R656). -/
def orphanStore (m : Nat) (s : Block) : Block :=
  if s.host.storing.isSome ∧ s.host.waitMbx = m then { s with host := { s.host with waitMbx := 8 } } else s

/-- What a command has started and not ended goes on, and no longer completes it (R639, R640). -/
def orphan (m : Nat) (s : Block) : Block :=
  let item := fun (x : VarItem) => match x with
    | .bank l b r (some k) => if k = m then VarItem.bank l b r none else x
    | _ => x
  { s with
    changes := s.changes.map (fun c => match c with
      | .host g dest k => if k = m then CellChange.host g dest 8 else c
      | _ => c),
    tw := { s.tw with varNew := s.tw.varNew.map item, varQ := s.tw.varQ.map fun p => (p.1, item p.2) } }

/-- A command that runs when the MP restarts completes MP_RESTARTED (R640, R656). -/
def mbxRestart (m : Nat) (s : Block) : Block :=
  let x := mbx s m
  if x.mstate = 2 then mbxDone m 3 (restartDetail s m) 0 [] (orphanStore m (orphan m (abortRunning m s))) else s

/-- MP_RESTART (R668). -/
def mpRestartStep (s : Block) : Block :=
  if s.rst.phase ≠ .up ∨ s.host.mpRestarting then s
  else
    let s := forEach (upto 8) mbxRestart s
    raise evMpRestart { s with host := { s.host with
      mpRestarting := true, fwReady := false, mpRestarts := satInc 16 s.host.mpRestarts } }

/-- MP_RESTART_DONE (R668). -/
def mpRestartDoneStep (s : Block) : Block :=
  if s.host.mpRestarting then
    bgResume (ptpResume { s with host := { s.host with mpRestarting := false, fwReady := true } })
  else s

end Sys2Proof.Machine
end

