-- ==== Sys2Proof/Machine/Events.lean ====
section
/-!
DEFINITION. Events and MSI-X (R659 to R662) and the PCI Express function (R623 to R627).
-/

namespace Sys2Proof.Machine

def modEv (f : EvSt → EvSt) (s : Block) : Block := { s with ev := f s.ev }

/-! ### Vectors (R659, R660) -/

def evtVec (s : Block) (i : Nat) : Nat := tget 0 s.ev.vec i

/-- VEC_ACTIVE: vectors with a pending enabled source. -/
def vecActive (s : Block) : Nat := maskOf ((onesBelow (s.ev.pend &&& s.ev.en) 256).map (evtVec s))

/-- The function may send messages: held while Bus Master Enable is 0 and in D3hot (R626). -/
def msiMaySend (s : Block) : Bool := s.host.busMaster && !s.host.d3hot

/-- One message of a vector goes out. -/
def msiSend (v : Nat) (s : Block) : Block :=
  modEv (fun x => { x with sent := tset 0 x.sent v ((tget 0 x.sent v + 1) % 2 ^ 32) }) s

/-- Vectors that gain a pending enabled source with no message outstanding send one, or hold it in the PBA (R660). -/
def msiSettle (s : Block) : Block :=
  let act := vecActive s
  let out := s.ev.active &&& act
  let due := (s.ev.pba &&& act) ||| clearMask act out
  let go := if msiMaySend s then clearMask due s.ev.mask else 0
  forEach (onesBelow go 64) msiSend (modEv (fun x => { x with active := act, pba := clearMask due go }) s)

/-- Raised sources set their EVT_PEND bits (R660, R661). -/
def evtRaise (evs : List Nat) (s : Block) : Block :=
  let m := maskOf (evs.filter fun e => decide (e < 256))
  if m = 0 then s
  else modEv (fun x => { x with
    pend := x.pend ||| m, lastAt := fabric s.now,
    lastSet := if x.lastAt = fabric s.now then x.lastSet ||| m else m }) s

/-- EVT_PEND_CLEAR (R661): ones written to word w; a source raised in the same fabric cycle stays set, and a vector that
the write would have emptied sends anew. -/
def evtPendClearStep (w mask : Nat) (s : Block) : Block :=
  if 8 ≤ w then s
  else
    let clr := (mask % 2 ^ 32) <<< (32 * w)
    let fresh := if s.ev.lastAt = fabric s.now then s.ev.lastSet else 0
    let emptied := modEv (fun x => { x with pend := clearMask x.pend clr }) s
    let out := s.ev.active &&& vecActive emptied
    modEv (fun x => { x with active := out, pend := clearMask x.pend (clearMask clr fresh) }) s

/-- EVT_EN_WRITE (R660): a word of EVT_EN, or the four vectors of a word of EVT_VEC. -/
def evtEnWriteStep (vec : Bool) (w : Nat) (v : W32) (s : Block) : Block :=
  if vec then
    if 64 ≤ w then s
    else modEv (fun x => { x with
      vec := (upto 4).foldl (fun t b => tset 0 t (4 * w + b) (bits v.toNat (8 * b) 6)) x.vec }) s
  else if 8 ≤ w then s
  else modEv (fun x => { x with en := clearMask x.en ((2 ^ 32 - 1) <<< (32 * w)) ||| (v.toNat <<< (32 * w)) }) s

/-- VECTOR_UNMASK (R660): the command's end sends what the PBA holds. -/
def vectorUnmaskStep (v : Nat) (s : Block) : Block :=
  if v < 64 then modEv (fun x => { x with mask := setBit x.mask v false }) s else s

/-- A word of the MSI-X table: address, data and the mask bit. -/
def msixWrite (w : Nat) (v : W32) (s : Block) : Block :=
  if w % 4 = 3 then modEv (fun x => { x with mask := setBit x.mask (w / 4) (decide (v.toNat % 2 = 1)) }) s
  else modEv (fun x => { x with tab := tset 0#32 x.tab w v }) s

/-! ### The function (R625, R626) -/

/-- The first or the last of n granules from an address is host memory. -/
def spanHost (a n : Nat) : Bool := regionOf a = .host || regionOf (a + 32 * (n - 1)) = .host

/-- A chain touches host memory from a descriptor address on; `fuel` bounds a chain that returns to itself: a valid
descriptor has a byte other than 0. -/
def chainHost (s : Block) : Nat → Nat → Bool
  | 0, _ => false
  | fuel + 1, a =>
    if regionOf a = .host then true
    else
      let l := readBytes s a 32
      if !descOk l then false
      else spanHost (leAt l 0 8) (leAt l 16 4) || spanHost (leAt l 8 8) (leAt l 16 4) ||
        (!bitAt (leAt l 20 4) 0 && chainHost s fuel (leAt l 24 8))

/-- A firmware-owned channel whose chain touches host memory (R625). -/
def dmaTouchesHost (s : Block) (c : Nat) : Bool :=
  let x := dma s c
  x.st = .running && fwOwned s c &&
    if x.fetching then chainHost s (s.mem.length + 1) x.descAddr
    else regionOf x.descAddr = .host || spanHost x.src x.count || spanHost x.dst x.count ||
      (!bitAt x.ctrl 0 && chainHost s (s.mem.length + 1) x.next)

/-- What a Function Level Reset does (R625). -/
def functionReset (s : Block) : Block :=
  let s := forEach (upto 8) (fun m => modMbx m fun x =>
    if x.mstate = 1 then { x with mstate := 0 } else if x.mstate = 2 then { x with discard := true } else x) s
  let s := forEach ((upto 32).filter (dmaTouchesHost s)) (fun c s => (dmaAbort 8 c s).2) s
  { s with
    ev := { s.ev with pend := 0, en := 0, vec := [], mask := 2 ^ 64 - 1, pba := 0, active := 0, tab := [] },
    host := { s.host with session := false, busMaster := false } }

def functionLevelResetStep (s : Block) : Block := functionReset s

/-- HOT_RESET and FUNDAMENTAL_RESET reset the host interface only (R625); the link trains again. -/
def hotResetStep (s : Block) : Block :=
  let s := functionReset s
  { s with host := { s.host with pcieUp := true, d3hot := false } }
def fundamentalResetStep (s : Block) : Block :=
  let s := functionReset s
  { s with host := { s.host with pcieUp := true, d3hot := false } }

/-- PCIE_LINK_LOSS (R625). -/
def pcieLinkLossStep (s : Block) : Block := { s with host := { s.host with pcieUp := false } }

/-- D3HOT (R625): entry, or the return to D0. -/
def d3hotStep (enter : Bool) (s : Block) : Block := { s with host := { s.host with d3hot := enter } }

/-- BUS_MASTER_ENABLE (R626). -/
def busMasterEnableStep (on : Bool) (s : Block) : Block := { s with host := { s.host with busMaster := on } }

/-- SETPOINT_WRITE (R630, R631, R65). -/
def setpointWriteStep (k : Nat) (v : W32) (s : Block) : Block :=
  if k < 64 ∧ isActive s then
    { s with cyc := { s.cyc with
      setpoints := tset 0#32 s.cyc.setpoints k v, setWrites := s.cyc.setWrites ++ [(k, v, s.now)] } }
  else s

end Sys2Proof.Machine
end

