-- ==== Sys2Proof/Machine/Power.lean ====
section
/-!
DEFINITION. Device power states, entry and wake, the arbiter and the core regulator (chapter 19).
-/

namespace Sys2Proof.Machine

def evPwrThrottle : Nat := 224
def evPwrState : Nat := 225
def evPwrRefused : Nat := 226
def evRetFail : Nat := 227

def modPwr (f : PwrSt → PwrSt) (s : Block) : Block := { s with pwr := f s.pwr }

/-! ### Domains (Table 19-2) -/

/-- A PG domain is powered where the set in force uses one of its ports and it passed its self-test (R695, R740). -/
def pgPowered (s : Block) (g : Nat) : Bool := (ports128.any fun p => p / 16 = g && portUsed s p) && !bitAt s.rst.pgFailed g

/-- The domains powered in RUN and HOLD. -/
def usedDomains (s : Block) : Nat :=
  maskOf ((upto 30).filter fun d => if 6 ≤ d ∧ d < 14 then pgPowered s (d - 6) else true)

/-- A task of the unit has work on a core or waits for one. -/
def tasksBusy (s : Block) : Bool :=
  s.dam.tasks.any fun (_, x) => x.st = .ready || x.st = .running || x.st = .preempted || x.st = .blocked

/-- The lowest cluster domain with a running task; a blocked one holds no core. -/
def busyCluster (s : Block) : Nat :=
  match (upto 16).find? fun c => (core s c).task.isSome with
  | some c => 1 + c / 4
  | none => 1

/-! ### Requests (R697 to R699) -/

def pwrResult (k : Nat) (s : Block) : Block := modPwr (fun x => { x with result := k }) s

/-- R698, and the transitions of R697. -/
def pwrBadState (s : Block) (dest : PowerState) : Bool :=
  let quiet := awaitReady s
  match dest with
  | .run => false
  | .hold => (upto 12).any (switching s) || s.seq.state = .energize || s.seq.state = .discharge
  | .doze => s.pwr.state = .off || !quiet || s.host.committing || s.tw.role = .active
  | .off => !quiet || s.host.committing || s.tw.role = .active

/-- The step of an entry begins. -/
def pwrEnter (dest : PowerState) (s : Block) : Block :=
  modPwr (fun x => { x with
    result := 0, refuseDom := 0x1F, phase := .entering, target := dest, step := 1, stepAt := s.now, reqT0 := none,
    woken := none, suppressed := true, domStopped := 0 }) s

/-- A wake starts: VDD_CORE returns to the plan's setpoint (R708). -/
def pwrWakeStart (dest : PowerState) (cause : Nat) (s : Block) : Block :=
  let s := modPwr (fun x => { x with
    phase := .waking, wakeCause := cause, wakeFrom := x.state, wakeTo := dest, wakeAt := s.now }) s
  driveVdd (if s.si.vddSet = 0 then 800000 else s.si.vddSet) s

/-- STATE changes. -/
def pwrSetState (dest : PowerState) (s : Block) : Block :=
  if s.pwr.state = dest then s else raise evPwrState (modPwr (fun x => { x with state := dest }) s)

/-! ### The power-off step (R706) -/

/-- Banks retained in DOZE, bits as RET_FAIL; SYS0 always is. -/
def retainMask (s : Block) : Nat := 1 + 2 * (parN s 0xF002 % 2 ^ 12)

/-- A unit of a domain without power. -/
def adcOff (x : AdcUnit) : AdcUnit :=
  { x with on := false, refReady := false, calDone := none, pend := none, conv := none }

/-- Power-off (R702, R706, R707). -/
def powerOff (s : Block) : Block :=
  let dest := s.pwr.target
  let s := if dest = .off then siHistoryWriteStep s else s
  let ret := if dest = .off then 0 else retainMask s
  let wakes := maskOf ((upto 32).filter fun i => decide (16 ≤ i) && (upto 13).any (tripBlocks s i))
  let s := forEach (s.ports.map (·.1)) enterDark s
  let s := forEach (upto 4) (fun u s => if (adcUnit s u).calState ≠ 0 then calEnd u 2 3 s else s) s
  let s := { s with adc := { s.adc with units := (upto 4).map fun u => (u, adcOff (adcUnit s u)) } }
  let s := modPwr (fun x => { x with
    retained := ret, canary := s.now, domOn := 1, domStopped := 0, wakeMap := wakes, phase := .steady, step := 0, woken := none,
    entries := satInc 16 x.entries }) s
  let s := driveVdd (uvOf (parW s 0xF005)) s
  let s := if twinOn s then
      setRole .offline (linkUpdate (modTw (fun t => { t with lanes := t.lanes &&& 0x101, revertReq := false }) s))
    else s
  pwrSetState dest s

/-- The host asks for a state with GO (R697). -/
def pwrRequest (dest : PowerState) (s : Block) : Block :=
  let x := s.pwr
  if s.rst.phase ≠ .up then s
  else if x.phase ≠ .steady ∨ x.toRun then pwrResult 5 s
  else if x.state = dest then pwrResult 1 s
  else if pwrBadState s dest then pwrResult 2 s
  else
    let asleep := x.state = .doze || x.state = .off
    let s := modPwr (fun x => { x with result := 0, refuseDom := 0x1F }) s
    match dest with
    | .run => if asleep then pwrWakeStart .run 0 s else modPwr (fun x => { x with toRun := true }) s
    | .hold => if asleep then pwrWakeStart .hold 0 s else pwrEnter .hold s
    | .doze => pwrEnter .doze s
    | .off => if asleep then powerOff (modPwr (fun x => { x with target := .off }) s) else pwrEnter .off s

def pwrReqRunStep : Block → Block := pwrRequest .run
def pwrReqHoldStep : Block → Block := pwrRequest .hold
def pwrReqDozeStep : Block → Block := pwrRequest .doze
def pwrReqOffStep : Block → Block := pwrRequest .off

/-! ### Entry steps (R703 to R705) -/

/-- An entry is abandoned (R705): refused by a domain, or woken. -/
def pwrAbandon (dom : Option Nat) (s : Block) : Block :=
  raise evPwrRefused (modPwr (fun x => { x with
    phase := .steady, step := 0, domStopped := 0, woken := none, refusals := satInc 16 x.refusals,
    result := if dom.isSome then 3 else 4, refuseDom := dom.getD 0x1F }) s)

/-- A step has stopped its domains; an entry whose wake source came is abandoned at the abort point (R704). -/
def pwrStepDone (doms : List Nat) (s : Block) : Block :=
  let s := modPwr (fun x => { x with domStopped := x.domStopped ||| maskOf doms, step := x.step + 1, stepAt := s.now }) s
  if s.pwr.woken.isSome then pwrAbandon none s else s

/-- The capture bank that refuses: the first of the buffer in use, or of the buffer an ARM would take. -/
def capDomain (s : Block) : Nat :=
  18 + (if s.recd.cap.isSome then s.recd.buf else (freeBuf s 0).getD 0) * (8 / recBufs s)

/-- The domain that refuses step k, with whether it may first wait for pwr.quiesce_time. `bar4`: the capture bank of a BAR4
read that stays outstanding. -/
def pwrRefuser (s : Block) (k : Nat) (bar4 : Option Nat) : Option (Nat × Bool) :=
  match k with
  | 1 => if tasksBusy s then some (busyCluster s, true) else none
  | 2 =>
    if (upto 8).any (fun e => injBusy (engineOf s e)) || (upto 4).any (fun i => (fant s i).armed.isSome) then some (5, false)
    else none
  | 3 => ((upto 4).find? fun u =>
      (adcUnit s u).calState ≠ 0 || (adcUnit s u).pend.isSome || (adcUnit s u).conv.isSome).map fun u => (26 + u, false)
  | 5 =>
    if recBusy s || s.recd.waiting then some (capDomain s, false)
    else match bar4 with | some b => if b < 8 then some (18 + b, true) else none | none => none
  | 6 =>
    if s.dam.dma.any (fun (_, x) => x.st = .running) || s.dam.queues.any (fun (_, x) => x.hwHeld.isSome) then some (14, true)
    else none
  | _ => none

def stepDomains (s : Block) : Nat → List Nat
  | 1 => [1, 2, 3, 4]
  | 2 => [5]
  | 3 => [26, 27, 28, 29]
  | 4 => (upto 8).filterMap fun g => if pgPowered s g then some (6 + g) else none
  | 5 => (upto 8).map (18 + ·)
  | 6 => [14, 15, 16, 17]
  | _ => []

/-- PWR_ENTRY_STEP (R703 to R706): the next step of the entry in progress. Entry to HOLD has step 1 alone, and takes effect
at a cycle start (R701). -/
def pwrEntryStepStep (bar4 : Option Nat) (s : Block) : Block :=
  let x := s.pwr
  if x.phase ≠ .entering then s
  else if x.step = 7 then
    -- a wake source during the step acts once it ends (R706)
    let s := powerOff s
    match x.woken with | some cause => pwrWakeStart .run cause s | none => s
  else
    match pwrRefuser s x.step bar4 with
    | some (d, waits) =>
      let from_ := if x.step = 1 then x.reqT0 else some x.stepAt
      if waits then
        match from_ with
        | some t => pwrAbandon (some d) (atTime (t + parDur s 0xF004 msU) s)
        | none => s
      else pwrAbandon (some d) s
    | none =>
      if x.target = .hold then s
      else
        let s := if x.step = 4 then forEach (s.ports.map (·.1)) (fun p => modPort p fun y => { y with frames := [] }) s else s
        pwrStepDone (stepDomains s x.step) s

/-! ### Wake (R708 to R716) -/

/-- A wake source occurs (R704, R708): it wakes the device, or ends an entry to DOZE or OFF at its next abort point. -/
def pwrWakeStep (cause : Nat) (s : Block) : Block :=
  let on := decide (1 ≤ cause ∧ cause ≤ 5) && bitAt (parN s 0xF003) (cause - 1)
  if !on then s
  else match s.pwr.phase with
    | .entering => if s.pwr.target = .hold then s else modPwr (fun x => { x with woken := x.woken <|> some cause }) s
    | .steady => if matrixOn s then s else pwrWakeStart .run cause s
    | _ => s

/-- The sources among the events raised (R709). -/
def wakeSettle (evs : List Nat) (s : Block) : Block :=
  forEach [(evContactChange, 1), (evSpbDemand, 2), (evWakeTrip, 3), (evPtpHoldover, 4)]
    (fun p s => if evs.contains p.1 then pwrWakeStep p.2 s else s) s

/-- Bank of a fabric address, bit as RET_FAIL. -/
def bankOfAddr (a : Nat) : Option Nat :=
  if a < 0x2000000 then some (a / 0x800000)
  else if 0x10000000 ≤ a ∧ a < 0x14000000 then some (4 + (a - 0x10000000) / 0x800000)
  else if 0x20000000 ≤ a ∧ a < 0x20010000 then some 0
  else none

/-- Banks filled with zeros (R712). -/
def zeroBanks (m : Nat) (s : Block) : Block :=
  { s with mem := s.mem.filter fun c => !(match bankOfAddr c.1 with | some b => bitAt m b | none => false) }

/-- Queues whose entries lie in a failed bank are empty (R712). -/
def loseQueues (m : Nat) (s : Block) : Block :=
  forEach (s.dam.queues.map (·.1)) (fun q s =>
    match bankOfAddr (qBase s q) with
    | some b => if bitAt m b then modQueue q (fun x => { x with head := 0, fill := 0 }) s else s
    | none => s) s

/-- No configuration set is in force: the state of AWAIT, with the safety configuration as it is. -/
def dropSet (s : Block) : Block :=
  let s := { s with
    par := { val := safetyInForce s }, model := { pgStopped := s.model.pgStopped }, cells := [], changes := [], ports := [],
    arms := [], tentNext := [], gov := {}, eng := {}, graph := {}, dam := {},
    trip := { raw := s.trip.raw, l2 := s.trip.l2, opened := s.trip.opened, latch := s.trip.latch },
    host := { s.host with setInForce := none, cfgId := 0, cfgSeq := 0 } }
  setConv .await (commitRhythm s)

/-- The set in force is applied again from the slot whose CFG_ID matches, else the converter enters AWAIT (R713). Governor
memory that passed its check resumes from where entry left it (R714). -/
def reapplySet (govLost : Bool) (s : Block) : Block :=
  match s.host.setInForce with
  | none => s
  | some c =>
    match [0, 1].findSome? fun k => match (slotOf s k).set with
        | some x => if cfgIdOf x = cfgIdOf c then some x else none
        | none => none with
    | some x =>
      let s' := commitApply x false { s with gov := {}, eng := {}, seq := { s.seq with state := .await } }
      if govLost then s' else { s' with gov := s.gov, eng := s.eng }
    | none => raise evCfgRejected (dropSet s)

/-- The matrix looks at its inputs afresh once wake completes (R709). -/
def tripAfresh (s : Block) : Block :=
  forEach (upto 32) (fun i s => if bitAt s.trip.raw i && !bitAt s.trip.acted i && !tripBlankedNow s i then tripAct i s else s) s

/-- WAKE_COMPLETE (R711 to R716): `fail`: banks whose granules or canaries fail. -/
def wakeCompleteStep (fail : Nat) (s : Block) : Block :=
  if s.pwr.phase ≠ .waking then s
  else
    let ret := s.pwr.retained
    let bad := fail &&& ret
    let lost := clearMask (2 ^ 13 - 1) (clearMask ret bad)
    let s := zeroBanks lost s
    let s := raiseIf (bad ≠ 0) evRetFail (modPwr (fun x => { x with retFail := x.retFail ||| bad, retained := 0 }) s)
    let s := if bits bad 4 8 ≠ 0 then recBankFail (bits bad 4 8) s else s
    let s := loseQueues lost s
    -- SYS0 to SYS2 and the Governor memory hold parts of the set in force
    let s := if s.pwr.wakeFrom = .off then dropSet s else if lost &&& 0x1007 ≠ 0 then reapplySet (bitAt lost 12) s else s
    let s := { s with adc := { s.adc with units := (upto 4).map fun u => (u, { adcUnit s u with on := true, rotAt := s.now, refFell := s.now }) } }
    let s := modPwr (fun x => { x with phase := .steady, domOn := usedDomains s, suppressed := true }) s
    let s := pwrSetState s.pwr.wakeTo s
    let s := forEach ports128 (fun p s =>
      if portUsed s p && (port s p).st = .dark && !(port s p).forced && !bitAt s.rst.pgFailed (p / 16) then enterSeek p s
      else s) s
    let s := if s.tw.role = .offline ∧ parB s 0xC000 then setRole .wait (modTw (fun t => { t with waitAt := s.now }) s) else s
    tripAfresh s

/-- What a cycle start does to the power state (R700, R701, R705): entry to HOLD, return to RUN, releases resume. -/
def pwrCycle (s : Block) : Block :=
  let x := s.pwr
  let s := if x.phase = .entering && x.reqT0.isNone then modPwr (fun x => { x with reqT0 := some s.cyc.t0 }) s else s
  if x.phase = .entering && x.target = .hold && !tasksBusy s then
    pwrSetState .hold (modPwr (fun x => { x with phase := .steady, step := 0, woken := none }) s)
  else if x.toRun || (x.state = .run && x.phase = .steady && x.suppressed) then
    let s := pwrSetState .run (modPwr (fun x => { x with toRun := false, suppressed := false }) s)
    if x.toRun || x.wakeFrom ≠ .run then
      let s := modPwr (fun x => { x with wakeFrom := .run }) s
      let s := { s with arms := s.arms.map fun (p : Nat × ArmSt) => (p.1, { p.2 with ovrConsec := 0 }) }
      { s with dam := { s.dam with tasks := s.dam.tasks.map fun (p : Nat × TaskSt) => (p.1, { p.2 with ovrConsec := 0 }) } }
    else s
  else s

/-! ### Arbiter (R721 to R724) and regulator (R719) -/

/-- Watts held as binary32 in hundredths, exactly. -/
def centiW (x : F32) : Q := qmul (q32 x) (qi 100)

/-- POWER_ESTIMATE (R723): P_est and the estimate of each domain in units of 0.01 W. -/
def powerEstimateStep (p : Nat) (doms : List (Nat × Nat)) (s : Block) : Block :=
  let p := min p 0xFFFF
  let b := centiW (parW s 0xF000)
  let m := centiW (parW s 0xF001)
  let ceil := fun (d : Nat) => centiW (parW s (0xF140 + d))
  let dom : Tab Nat := (doms.filter fun x => decide (x.1 < 30)).foldl (fun t x => tset 0 t x.1 (min x.2 0xFFFF)) ([] : Tab Nat)
  let overC := maskOf ((upto 30).filter fun d => qlt (ceil d) (qi (tget (0 : Nat) dom d : Nat)))
  let below := (upto 30).all fun d => qlt (qi (tget (0 : Nat) dom d : Nat)) (ceil d)
  let t := s.pwr.throttle
  let up := qlt (qsub b m) (qi p) || overC ≠ 0
  let low := !up && qlt (qi p) (qsub b (qmul (qi 2) m)) && below
  let cnt := if low then s.pwr.lowCnt + 1 else 0
  let t' := if up then min 8 (t + 1) else if 10 ≤ cnt then t - 1 else t
  let hot := qlt b (qi p) && t' = 8
  raiseIf (t = 0 && t' ≠ 0) evPwrThrottle (modPwr (fun x => { x with
    pEst := p, pMax := max p x.pMax, throttle := t', lowCnt := if 10 ≤ cnt then 0 else cnt, domP := dom, overCeil := overC,
    overFrom := if hot then (x.overFrom <|> some s.now) else none, excess := x.excess && hot }) s)

/-- PWR_OVER (R724): P_est above the budget for 1 ms at throttle level 8. -/
def pwrOverStep (s : Block) : Block :=
  match s.pwr.overFrom with
  | some t => if s.pwr.excess then s else raise evPwrThrottle (modPwr (fun x => { x with excess := true }) (atTime (t + msU) s))
  | none => s

/-- VR_RETRY (R719): the outcome of a PMBus setpoint write that was not acknowledged at first. -/
def vrRetryStep (ack : Bool) (s : Block) : Block :=
  match s.pwr.vrWait with
  | none => s
  | some v =>
    if ack then modPwr (fun x => { x with vrWait := none, vrTries := 0, vrAcked := v }) s
    else
      modPwr (fun x =>
        if x.vrTries + 1 < 3 then { x with vrTries := x.vrTries + 1, vrAcked := x.vrPrev }
        else { x with vrTries := 0, vrWait := none, vrFault := true, vrAcked := x.vrPrev }) s

end Sys2Proof.Machine
end

