-- ==== Sys2Proof/Machine/Reset.lean ====
section
/-!
DEFINITION. Reset pins, boot, start-up, debug and boundary scan (chapter 20).
-/

namespace Sys2Proof.Machine

def modRst (f : RstSt → RstSt) (s : Block) : Block := { s with rst := f s.rst }

/-! ### What a reset keeps (R732) -/

/-- The safety area of the boot flash, which every reset keeps. -/
def spbFlash (x : SpbSt) : SpbSt :=
  { flash := x.flash, logSeq := x.logSeq, log := x.log, pwLock := x.pwLock, pwTries := x.pwTries, pwLockEnd := x.pwLockEnd }

/-- The silicon history in the boot flash (R499). -/
def siFlash (x : SiSt) : SiSt :=
  { flashTEq := x.flashTEq, flashVdd := x.flashVdd, flashBias := x.flashBias, flashSteps := x.flashSteps, flashHist := x.flashHist,
    mirrorTEq := x.mirrorTEq, mirrorVdd := x.mirrorVdd, mirrorBias := x.mirrorBias, mirrorSteps := x.mirrorSteps,
    mirrorHist := x.mirrorHist }

/-- Directory, fuse, unit identity and pins. -/
def rstFlash (x : RstSt) : RstSt :=
  { porstLow := x.porstLow, rstLow := x.rstLow, prefer := x.prefer, versions := x.versions, fuse := x.fuse, jtag := x.jtag }

/-- A cold reset keeps the boot flash alone. The time to the end of a password lockout runs on from FRC 0. -/
def coldReset (s : Block) : Block :=
  { free := s.free, host := { slots := s.host.slots }, spb := { spbFlash s.spb with pwLockEnd := s.spb.pwLockEnd - s.now },
    si := siFlash s.si, rst := { rstFlash s.rst with cause := 1 } }

/-- Station time through a warm reset (R676), and that PTP_LOCKED has been 1 since the last step (R684, log entry 35). -/
def timeKept (t : TimeSt) : TimeSt :=
  { base := t.base, fB := t.fB, rate := t.rate, stepSeq := t.stepSeq, timeValid := t.timeValid, everLocked := t.everLocked }

/-- The block through a warm reset with a cause of Table 20-6. -/
def spbWarm (x : SpbSt) : SpbSt :=
  let y := { spbFlash x with demandCnt := x.demandCnt, reactMax := x.reactMax }
  if x.st = .killed then { y with st := .killed, cause := x.cause, causeItem := x.causeItem, latched := x.latched } else y

def warmReset (cause : Nat) (s : Block) : Block :=
  { now := s.now, free := s.free, time := timeKept s.time, spb := spbWarm s.spb, si := { siFlash s.si with plans := s.si.plans },
    recd := { seq := s.recd.seq },
    tw := { unitB := s.tw.unitB },
    host := { slots := s.host.slots, mpRestarts := s.host.mpRestarts, twinId := s.host.twinId, straps := s.host.straps },
    rst := { rstFlash s.rst with
      cause := cause, warmResets := satInc 16 s.rst.warmResets, strapBad := s.rst.strapBad, relAt := s.now } }

/-! ### Pins (R728 to R730, R735, R574) -/

/-- The straps in force: reserved ones sampled high boot as if every strap were low (R735). -/
def strapsBad (v : Nat) : Bool := bits v 6 2 ≠ 0 || bits v 1 2 = 3
def strapsOf (s : Block) : Nat := if s.rst.strapBad then 0 else s.host.straps

/-- TWIN_ID and the boot straps are sampled when a pin is released. -/
def samplePins (twinId : Bool) (straps : Nat) (s : Block) : Block :=
  { s with
    tw := { s.tw with unitB := twinId },
    host := { s.host with twinId := twinId, straps := straps % 256 },
    rst := { s.rst with strapBad := strapsBad straps, relAt := s.now } }

/-- PORST_N_ASSERT (R728, R732). -/
def porstNAssertStep (s : Block) : Block := coldReset (modRst (fun x => { x with porstLow := true }) s)

/-- PORST_N_RELEASE (R671, R730): the FRC starts at 0. -/
def porstNReleaseStep (twinId : Bool) (straps : Nat) (s : Block) : Block :=
  if s.rst.porstLow then
    samplePins twinId straps { s with now := 0, rst := { s.rst with porstLow := false, jtag := .bypass } }
  else s

/-- RST_N_ASSERT (R728, R732). While PORST_N is low nothing more happens. -/
def rstNAssertStep (s : Block) : Block :=
  if s.rst.rstLow then s
  else if s.rst.porstLow then modRst (fun x => { x with rstLow := true }) s
  else warmReset 2 (modRst (fun x => { x with rstLow := true }) s)

/-- RST_N_RELEASE (R730). -/
def rstNReleaseStep (twinId : Bool) (straps : Nat) (s : Block) : Block :=
  if s.rst.rstLow then samplePins twinId straps (modRst (fun x => { x with rstLow := false }) s) else s

def inReset (s : Block) : Bool := s.rst.porstLow || s.rst.rstLow

/-- INTERNAL_WARM_RESET (R731) from the PLL's lock detector or from a boot retry. -/
def internalWarmReset (cause : Nat) (s : Block) : Block := if inReset s then s else warmReset cause s
def internalWarmResetStep (pll : Bool) (s : Block) : Block := internalWarmReset (if pll then 3 else 4) s

/-- PLL_LOCK (R694): the root PLL loses lock. -/
def pllLockStep (s : Block) : Block := internalWarmReset 3 s

/-! ### Boot (R736 to R739) -/

def bootFail (status : Nat) (s : Block) : Block := modRst (fun x => { x with phase := .failed, bootStatus := status }) s

def checkStatus : ImageCheck → Nat
  | .good => 0 | .auth => 2 | .rollback => 3

/-- The firmware image k starts: it resumes the silicon history (R499). -/
def startImage (k fw : Nat) (siPrimary : Bool) (s : Block) : Block :=
  let s := modRst (fun x => { x with phase := .starting, image := k, fwAt := s.now }) s
  let x := s.si
  { s with
    host := { s.host with fwSlot := k, fwVersion := fw },
    si := if siPrimary then { x with
        tEq := x.flashTEq, vddSet := x.flashVdd, bias := x.flashBias, steps := x.flashSteps, hist := x.flashHist, tEqAt := s.now }
      else { x with
        tEq := x.mirrorTEq, vddSet := x.mirrorVdd, bias := x.mirrorBias, steps := x.mirrorSteps, hist := x.mirrorHist,
        tEqAt := s.now } }

def BootFlash.check (b : BootFlash) (k : Nat) : ImageCheck := if k = 0 then b.imageA else b.imageB

/-- The image tried first: the other one on a boot retry, the one IMG_SEL names, or the directory's (R737, R739). -/
def firstImage (s : Block) : Nat :=
  if s.rst.retried then 1 - s.rst.image
  else match bits (strapsOf s) 1 2 with | 1 => 0 | 2 => 1 | _ => s.rst.prefer % 2

/-- The ROM starts an image, or the controller enters the boot failure state (R738). -/
def romBoot (b : BootFlash) (s : Block) : Block :=
  let named := bits (strapsOf s) 1 2 ≠ 0
  let k := firstImage s
  let go := fun (j : Nat) => startImage j (if j = 0 then b.fwA else b.fwB) b.siPrimary s
  if !b.dirPrimary && !b.dirMirror && !named then bootFail 1 s
  else if b.check k = .good then go k
  else if named || s.rst.retried then bootFail (checkStatus (b.check k)) s
  else if b.check (1 - k) = .good then go (1 - k)
  else bootFail (checkStatus (b.check (1 - k))) s

/-- START (R730, R737, R749): 20 ms after the later release; a debug challenge is published where DEBUG_REQ asks. -/
def startStep (b : BootFlash) (s : Block) : Block :=
  if s.rst.phase ≠ .waiting ∨ inReset s then s
  else
    let s := atTime (s.rst.relAt + 20 * msU) s
    let s := modPwr (fun x => { x with pllLock := true }) { s with host := { s.host with pcieUp := true } }
    let s := modRst (fun x => { x with mirrorUsed := b.dirPrimary ≠ b.dirMirror }) s
    let s := if bitAt (strapsOf s) 5 then
        let c : BitVec 128 := Config.freeWord s.free ++ Config.freeWord (s.free + 1)
        useFree (useFree (modRst (fun x => { x with challenge := some c }) s))
      else s
    romBoot b s

/-- FW_TIMEOUT (R739): the firmware has not set FW_READY within 1.0 s, or 3.0 s with SELFTEST_EXT. -/
def fwTimeoutStep (s : Block) : Block :=
  if s.rst.phase ≠ .starting then s
  else
    let s := atTime (s.rst.fwAt + (if bitAt (strapsOf s) 4 then 3 else 1) * sU) s
    let k := s.rst.image
    if s.rst.retried then bootFail 4 (modRst (fun x => { x with failed := setBit x.failed k true }) s)
    else
      let f := setBit s.rst.failed k true
      modRst (fun x => { x with image := k, failed := f, retried := true }) (internalWarmReset 4 s)

/-! ### The end of start-up (R740, R741, R577, R746) -/

/-- twin.enable of the set that the unit is about to autoload (R577, R742); `bad` marks slots whose CRCs fail. -/
def autoloadTwin (s : Block) (bad : Nat) : Bool :=
  let ok := fun (k : Nat) => (slotOf s k).set.isSome && !bitAt bad k
  let hi := if (slotOf s 0).seq < (slotOf s 1).seq then 1 else 0
  let k := if ok hi then hi else 1 - hi
  if bitAt (strapsOf s) 3 || !ok k then false
  else match (slotOf s k).set with
    | some c => match tfind c.params 0xC000 with | some v => v ≠ 0#32 | none => paramDefault 0xC000 ≠ 0#32
    | none => false

/-- START_UP_END (R741), `ms` after the release: a fatal self-test item, or the port groups that failed. -/
def startUpEndStep (ms : Nat) (fatal : Bool) (pgFailed bad : Nat) (s : Block) : Block :=
  if s.rst.phase ≠ .starting then s
  else
    let s := atTime (s.rst.relAt + ms * msU) s
    if fatal then bootFail 5 s
    else
      let k := s.rst.image
      let s := modRst (fun x => { x with
        phase := .up, resetOut := true, pgFailed := pgFailed % 256, bootTime := (s.now - x.relAt) / msU, retried := false,
        fuse := if x.prefer = k then max x.fuse (tget 0 x.versions k) else x.fuse }) s
      let on := autoloadTwin s bad
      let s := modTw (fun t => { t with role := if on then .wait else .solo, waitAt := s.now }) s
      let s := { s with host := { s.host with fwReady := true } }
      modPwr (fun x => { x with domOn := usedDomains s }) s

/-! ### Debug and boundary scan (R748, R749) -/

/-- DEBUG_RESPONSE (R749): a response to the challenge, signed as it asks or not. -/
def debugResponseStep (signed : Bool) (s : Block) : Block :=
  if s.rst.challenge.isSome ∧ signed then modRst (fun x => { x with debugOpen := true }) s else s

/-- JTAG_INSTRUCTION (R748): EXTEST, CLAMP and HIGHZ only while PORST_N is low. -/
def jtagInstructionStep (i : JtagInstr) (s : Block) : Block :=
  let pins := i = .extest ∨ i = .clamp ∨ i = .highz
  modRst (fun x => { x with jtag := if i = .other ∨ (pins ∧ !x.porstLow) then .bypass else i }) s

/-- SPB_STARTUP_DONE (R561, R569, R747): a safety copy restored from its partner shows in the start-up status. -/
def spbStartupDoneCmd (soFail : Nat) (primaryOk mirrorOk : Bool) (tpFail : Nat) (s : Block) : Block :=
  let used := s.spb.st = .startup && s.spb.flash.isSome && primaryOk ≠ mirrorOk
  let s := spbStartupDoneStep soFail primaryOk mirrorOk tpFail s
  if used then modRst (fun x => { x with mirrorUsed := true }) s else s

end Sys2Proof.Machine
end

