-- ==== Sys2Proof/Machine/Cycle.lean ====
section
/-!
DEFINITION. The cycle start (CYC_START, R48 to R65 and the t0 work of every unit), and what every command's end
evaluates.
-/

namespace Sys2Proof.Machine

/-! ### Cell state changes (R27 to R38, R485 to R488) -/

/-- A cell state change as it took effect: cell, states before and after, CAUSE of Table 10-4. -/
structure Changed where
  cell : Nat
  old : CState
  new : CState
  cause : Nat
deriving DecidableEq, Repr

def changeOn : CellChange → Nat
  | .faulted g _ | .bypassed g | .host g _ _ | .retire g | .promote g => g

/-- State codes of Table 10-4. -/
def stateNo : CState → Nat
  | .none => 0 | .available => 0 | .reserve => 1 | .bypassed => 2 | .faulted => 3

/-- The entry of Table 10-4. -/
def changeEntry (s : Block) (c : Changed) : List W32 :=
  [BitVec.ofNat 32 (c.cell + (stateNo c.old <<< 16) + (stateNo c.new <<< 18) + (c.cause <<< 20) +
      (cellArm s c.cell <<< 24)),
   BitVec.ofNat 32 s.cyc.index, 0#32, 0#32, 0#32, 0#32, 0#32, 0#32]

/-- A cell takes a new state (R29, R30). A fault in a switching arm asks for the bypass. A request that is outstanding
lasts in FAULTED and BYPASSED until the cell confirms it or its time expires (R182); that it outlives a host change of
the cell to BYPASSED, and that its expiry still blocks the arm then (R31), is the model's choice (log entry 28). -/
def setCell (c : Changed) (s : Block) : Block :=
  let ask := c.new = .faulted && switching s (cellArm s c.cell)
  let down := c.new = .faulted || c.new = .bypassed
  modCell c.cell (fun x => { x with
    st := c.new, cause := c.cause,
    bypReq := if ask then some s.now else if down then x.bypReq else none,
    bypRet := !ask && down && x.bypRet, retWait := false, crcRun := 0, blkRun := 0,
    -- a retired cell that the host returns is not due, for R489 let it return (R484)
    tent := { x.tent with retireDue := x.tent.retireDue && !(x.tent.retired && !down) } }) s

/-- Report errors and link loss change cell states in the converter states of R781 only; the state of this cycle start
counts, since the change takes effect now. -/
def changeHolds (s : Block) : CellChange → Bool
  | .faulted _ k => (k ≠ 3 && k ≠ 6) || r781 s
  | _ => true

/-- The change that R35 lets win among those that name one cell. -/
def winning (s : Block) (g : Nat) (l : List CellChange) : Option Changed :=
  let old := (cell s g).st
  let flt := l.findSome? fun c => match c with | .faulted _ k => if inService (cell s g) then some k else none | _ => none
  let byp := l.any fun c => match c with | .bypassed _ => old = .faulted | _ => false
  let hst := (l.filterMap fun c => match c with | .host _ dest _ => some dest | _ => none).getLast?
  match flt with
  | some k => some { cell := g, old := old, new := .faulted, cause := k }
  | none =>
    if byp then some { cell := g, old := old, new := .bypassed, cause := 7 }
    else hst.map fun dest => { cell := g, old := old, new := dest, cause := 0 }

/-- Mailboxes of the host requests on a cell, in the order the requests started. -/
def hostMbx (l : List CellChange) : List Nat := l.filterMap fun c => match c with | .host _ _ m => some m | _ => none

/-- Host requests complete: the last one OK where a host request wins, every other one CONFLICT with the CAUSE of the
winning change (R35, R37). A request to BYPASSED that meets a confirmed bypass of the same cell counts as a conflict and
ends with DETAIL 7: the model's choice, since R35 does not say whether changes to one and the same state conflict (log
entry 28). -/
def completeHosts (w : Option Changed) (g : Nat) : List Nat → Block → Block
  | [], s => s
  | m :: rest, s =>
    let cause := match w with | some c => c.cause | none => 0
    let s := if rest.length = 0 ∧ cause = 0 then mbxDone m 0 0 g [] s else mbxDone m 0x13 cause g [] s
    completeHosts w g rest s

/-- Faults, confirmed bypasses and host requests of one cell. -/
def changeOne (l : List CellChange) (g : Nat) (acc : Block × List Changed) : Block × List Changed :=
  let own := l.filter fun c => changeOn c = g
  let w := winning acc.1 g own
  let s := completeHosts w g (hostMbx own) acc.1
  match w with
  | some c => if c.old = c.new then (s, acc.2) else (setCell c s, acc.2 ++ [c])
  | none => (s, acc.2)

/-- The RESERVE cell that R33 promotes for a cell that left AVAILABLE: same bridge type first, lowest wear, lowest
index; a cell due for retirement is never chosen (R486). A RESERVE cell that a change of its own names at this t0 is
passed over for the next candidate: the model's choice, since R35 could also discard the promotion (log entry 28). -/
def promotee (s : Block) (a : Nat) (fb : Bool) (not_ : List Nat) : Option Nat :=
  let l := (armCells s a).filter fun (g, c) => c.st = .reserve && !c.tent.retireDue && !not_.contains g
  let key := fun (x : Nat × CellSt) => (if cellFB s x.1 = fb then 0 else 1, x.2.tent.w, x.1)
  let lt := fun (x y : Nat × CellSt) =>
    let (a1, b1, c1) := key x; let (a2, b2, c2) := key y
    decide (a1 < a2) || (a1 = a2 && (decide (b1 < b2) || (b1 = b2 && decide (c1 < c2))))
  ((sortBy lt l).map (·.1)).head?

/-- Promotion for one change (R33). -/
def promoteFor (c : Changed) (acc : Block × List Changed) : Block × List Changed :=
  let s := acc.1
  let a := cellArm s c.cell
  if c.old = .available ∧ c.new ≠ .available ∧ parB s (0x1020 + a) then
    match promotee s a (cellFB s c.cell) (acc.2.map (·.cell)) with
    | some g =>
      let p : Changed := { cell := g, old := .reserve, new := .available, cause := 1 }
      (setCell p s, acc.2 ++ [p])
    | none => acc
  else acc

/-- A retirement (R485, R488, R501): RETIRE_DUE stays set, and the bypass request waits for the first window with REL = 1. -/
def retireOne (g : Nat) (acc : Block × List Changed) : Block × List Changed :=
  let c : Changed := { cell := g, old := (cell acc.1 g).st, new := .bypassed, cause := 8 }
  let s := modCell g (fun x => { x with retWait := true, tent := { x.tent with retired := true } }) (setCell c acc.1)
  let s := raise evTentRetire s
  promoteFor c (s, acc.2 ++ [c])

/-- Due cells that may retire now in an arm, worst wear first. -/
def dueCells (s : Block) (a : Nat) (not_ : List Nat) : List Nat :=
  let l := (armCells s a).filter fun (g, c) => inService c && c.tent.retireDue && !not_.contains g
  (sortBy (fun x y => decide (y.2.tent.w < x.2.tent.w) || (x.2.tent.w = y.2.tent.w && decide (x.1 < y.1))) l).map (·.1)

/-- AVAILABLE cells after the retirement of a cell and its promotion. -/
def availRetired (s : Block) (a g : Nat) (not_ : List Nat) : Nat :=
  if (cell s g).st = .available then
    availCount s a - 1 + (if parB s (0x1020 + a) && (promotee s a (cellFB s g) (g :: not_)).isSome then 1 else 0)
  else availCount s a

/-- R485 for one arm. -/
def retireArm (a : Nat) (acc : Block × List Changed) : Block × List Changed :=
  let s := acc.1
  let mode := parN s (0x90B0 + a)
  let due := dueCells s a (acc.2.map (·.cell))
  let (s, l) :=
    if mode = 0 then acc
    else if !switching s a then due.foldl (fun acc g => retireOne g acc) acc
    else match due with
      | g :: _ =>
        if mode = 2 ∧ minAvail s a ≤ availRetired s a g (acc.2.map (·.cell)) then retireOne g acc else acc
      | [] => acc
  let held := mode ≠ 0 && (armCells s a).any fun (_, c) => inService c && c.tent.retireDue
  let s := raiseIf (held && !(arm s a).retireHeld) evTentRetireHeld s
  let s := modArm a (fun x => { x with
    retireHeld := held, retired := ((armCells s a).filter fun (_, c) => c.tent.retired).length }) s
  (tentSummary a s, l)

/-- Entries for the queues whose hw_src is 1 (R377), and items for the state image. -/
def offerChange (c : Changed) (s : Block) : Block :=
  let s := addItem (.cell c.cell c.new (cell s c.cell).cause) s
  forEach (upto 64) (fun q s =>
    if qSrc s q = 1 ∧ qDepth s q ≠ 0 ∧ bitAt (parN s (0x60C0 + q)) (cellArm s c.cell) then hwOffer q (changeEntry s c) s
    else s) s

/-- R34. -/
def minAvailBlock (a : Nat) (s : Block) : Block :=
  if switching s a ∧ availCount s a < minAvail s a then blockArm a 6 s else s

/-- INSUFFICIENT_CELLS (R519): the first cycle start after discovery ended. -/
def insufficientCells (s : Block) : Block :=
  if s.seq.checkCells then
    let s := { s with seq := { s.seq with checkCells := false } }
    match (enabledArms s).find? fun a => decide (availCount s a < minAvail s a) with
    | some a => if s.seq.state = .energize then seqFault 9 a s else s
    | none => s
  else s

/-- The cell state changes of the cycle take effect together (R35). -/
def cellChanges (s : Block) : Block :=
  let l := s.changes.filter (changeHolds s)
  let named := unionNat [] (l.map changeOn)
  let acc := named.foldl (fun acc g => changeOne l g acc) ({ s with changes := [] }, ([] : List Changed))
  let acc := acc.2.foldl (fun t c => promoteFor c t) acc
  let acc := if isActive acc.1 then (enabledArms acc.1).foldl (fun t a => retireArm a t) acc else acc
  let done := sortBy (fun (x y : Changed) => decide (x.cell < y.cell)) acc.2
  let s := forEach done offerChange acc.1
  insufficientCells (forEach (enabledArms s) minAvailBlock s)

/-! ### Deblocking (R527, R606) and rejoin (R116) -/

/-- An accepted deblock takes effect at this t0 (R527). -/
def deblockEffect (a : Nat) (s : Block) : Block :=
  match (arm s a).deblockWait with
  | none => s
  | some all =>
    let s := modArm a (fun x => { armStopped x with
      sw := true, deblockWait := none, deblocked := some (s.now, all, x.blockCause), blockCause := 0, blockedAt := none, ovrBlock := false, residue := f32Zero }) s
    let s := mapCells (fun g c => if c.st ≠ .none ∧ cellArm s g = a then cellStopped c else c) s
    -- a cell that is FAULTED already gets its bypass request now (R30, R225, log entry 28)
    let s := mapCells (fun g c => if c.st = .faulted ∧ cellArm s g = a ∧ c.bypReq.isNone then
      { c with bypReq := some s.now } else c) s
    let s := match sinkTask s a with | some t => modTask t (fun x => { x with ovrConsec := 0 }) s | none => s
    let s := if s.seq.state = .run then s else { s with seq := { s.seq with runFrom := some (s.now, s.seq.state) } }
    setConv .run (raise evArmDeblocked s)

/-- The block cause that a declared cause of Table 16-6 leaves (R606). -/
def declBlock : Nat → Nat
  | 1 => 4 | 2 => 9 | 3 => 7 | _ => 0

/-- The deblocks of the first normal cycle after a handover (R606). -/
def handoverDeblocks (s : Block) : Block :=
  match s.tw.deblockCause with
  | none => s
  | some c =>
    let s := modTw (fun t => { t with deblockCause := none }) s
    if !deblockState s || declBlock c = 0 then s
    else forEach (enabledArms s) (fun a s =>
      let x := arm s a
      if !x.sw && x.blockCause = declBlock c && decide ((s.cyc.index + 2 ^ 32 - x.blockedCyc) % 2 ^ 32 ≤ 3) then
        let r := deblockRefusal s a
        modArm a (fun x => { x with deblockRefuse := r, deblockWait := if r = 0 then some false else none }) s
      else s) s

/-- Repaired split rings of arms that are not switching rejoin (R116). -/
def rejoinRings (s : Block) : Block :=
  forEach (s.ports.map (·.1)) (fun p s =>
    if portRing s p && (portTopo s p ≠ 2 || isActive s) && ringRepaired s p && !switching s (strArm s p) then
      ringRejoin p s
    else s) s

/-! ### The cycle begins -/

/-- Time moves to the next t0: rhythm, index and length of the cycle that ended (R47 to R50). -/
def beginCycle (s : Block) : Block :=
  let (t, new) := nextStart s
  let i := nextIndex s t new
  let len := if s.cyc.started ∧ new then (t - s.cyc.t0 - 1) % max 1 (tcU s) + 1 else tcU s
  let s := if new then recTruncate (if len = tcU s ∧ recording s then recCycleEnd s else s) else s
  let s := modTw (fun x => { x with adopt := none }) (atTime t s)
  let (n, p) := match s.cyc.newRhythm with | some (n, p, _) => if new then (n, p) else (s.cyc.n, s.cyc.phase) | none => (s.cyc.n, s.cyc.phase)
  let s := { s with cyc := { s.cyc with
      index := i, n := n, phase := p, newRhythm := if new then none else s.cyc.newRhythm,
      t0 := t, started := true, lastLen := len, adcReady := false } }
  if new then recRetake s else s

/-- The setpoints are latched (R65): a write in the fabric cycle of t0 waits for the following t0. A standby holds
those of the image. -/
def latchSetpoints (s : Block) : Block :=
  if isActive s then
    let due := s.cyc.setWrites.filter fun w => decide (fabric w.2.2 < fabric s.cyc.t0)
    { s with cyc := { s.cyc with
        latched := due.foldl (fun t w => tset 0#32 t w.1 w.2.1) s.cyc.latched,
        setWrites := s.cyc.setWrites.filter fun w => !decide (fabric w.2.2 < fabric s.cyc.t0) } }
  else s

/-- What the cells, ports and arms count per cycle begins anew. -/
def perCycle (s : Block) : Block :=
  let s := mapCells (fun _ c =>
    if c.st = .none then c
    else { c with
      seen := false, present := false, missed := false, absent := if c.present then 0 else satInc 8 c.absent,
      calA := { c.calA with gap := c.calA.gap + 1 }, calB := { c.calB with gap := c.calB.gap + 1 } }) s
  -- a port of a split ring that heard no report in the whole cycle serves no cell (R112, R114)
  let silent := fun (p : Nat) (x : PortSt) =>
    portRing s p && !asChain s p && x.brk && x.st = .serve && !x.reported && decide (x.brkAt + s.cyc.lastLen ≤ s.cyc.t0)
  let s := { s with ports := s.ports.map fun (p, x) =>
    (p, { x with reported := false, echoCnt := 0, seg := if silent p x then [] else x.seg }) }
  -- the age of the other side's offset counts as time goes on (R109)
  let s := forEach ((s.ports.filter fun x => portRing s x.1 && x.2.st = .serve).map (·.1)) alignUpdate s
  let s := modTw (fun t => { t with replyOut := [] }) s
  -- a standby's request whose reply the active unit has not relayed within a whole cycle is issued again (R172)
  let old := fun (r : SvcReq) => r.sent && decide (r.endT + s.cyc.lastLen < s.cyc.t0)
  let s := if isActive s then s else
    forEach (s.ports.filter fun x => portTopo s x.1 = 2 && x.2.st = .monitor) (fun x s =>
      forEach (x.2.svc.filter old) (svcAgain x.1) s) s
  forEach (upto 12) (fun a s => modArm a (fun x => { x with
    repDone := false, rankDone := false, lateCells := x.lateNow, lateNow := 0,
    rankOwed := x.rankOwed || (x.repDone && !x.rankDone) }) s) s

/-- The arm currents of the cycle that ends are those of the previous t0 for the next ranking (R192). -/
def keepCurrents (s : Block) : Block :=
  forEach (upto 12) (fun a s =>
    let (i, valid) := armCurrent s a
    modArm a (fun x => { x with iPrev := if valid && x.rankedOnce then some i else none }) s) s

def tooShort (s : Block) : Block :=
  forEach (enabledArms s) (fun a s => let b := cycleTooShort s a; modArm a (fun x => { x with cycleTooShort := b }) s) s

/-- Items of the state image for what the engines do: steps of the repetitive controllers in the cycle that ended, and
ramp channels with a move or in motion at this t0 (R321). -/
def rpcItems (s : Block) : Block :=
  forEach (upto 16) (fun r s =>
    match (rpc s r).wrote with
    | some (j, a, b, z) => modRpc r (fun x => { x with wrote := none }) (addItem (.rpc r j a b z) s)
    | none => s) s

def rampItems (before : Tab RampSt) (s : Block) : Block :=
  forEach before (fun (p : Nat × RampSt) s =>
    let n := (dueAt s.cyc.t0 p.2.posted).length
    let x := ramp s p.1
    if n ≠ 0 || (dueAt s.cyc.t0 p.2.cmds).length ≠ 0 || p.2.busy || x.busy then addItem (.ramp p.1 n x.x x.v x.queue) s else s) s

/-- An input's sample at t0 among those the command carries. -/
def sampleOf (l : List (Nat × F32 × Bool)) (k : Nat) : Option (F32 × Bool) := (l.find? fun x => x.1 = k).map (·.2)

/-- CYC_START (R48). `smp`: input, instantaneous sample at t0, and whether it is VALID (R53, R297). -/
def cycStartStep (smp : List (Nat × F32 × Bool)) (s : Block) : Block :=
  if s.rst.phase ≠ .up then s
  else
    let t0old := s.cyc.t0
    let s := beginCycle (keepCurrents s)
    if s.pwr.state = .doze ∨ s.pwr.state = .off then
      -- the Damsel, the engines and the slices have no power (R696); registers and parameters are served
      -- a twin-enabled unit still sends its heartbeats (R702)
      sendHb (pwrCycle { applyNext (latchSetpoints s) with time := { s.time with t0St := stNow s } })
    else
      let was := s.tw.quiet
      let s := modTw (fun t => { t with quiet := false, waitImage := false }) s
      let s := lateDeadlines t0old s
      let s := chargeAccumulate (sampleOf smp) t0old s.cyc.t0 s
      let s := applyNext (latchSetpoints s)
      let s := bgCommit s
      let s := tentTakesEffect (queueCeilings (rpcItems s))
      let s := perCycle s
      let s := cellChanges s
      let s := forEach (enabledArms s) deblockEffect s
      let s := if was then handoverDeblocks s else s
      let s := dischargeCheck (roleUnreliable s)
      let s := tooShort (rejoinRings (portsReturn s))
      let ramps := s.eng.ramp
      -- a stopped GOV domain gates the engines, and HOLD those of the Governor (Tables 19-3 and 19-4)
      let s := if stopped s 5 then s else rampItems ramps (enginesCycle (sampleOf smp) s)
      let s := recCycle (adcCycle (if stopped s 5 || s.pwr.state = .hold then s else governorCycle s))
      let s := cycleFrames (twinCycle s)
      let s := pwrCycle { s with time := { s.time with t0St := stNow s } }
      raise evCycStart s

/-! ### The end of every command -/

/-- The triggers of the measurement units and the recorder look at the events from number k on. -/
def triggers (k : Nat) (s : Block) : Block :=
  let evs := s.ev.raised.drop k
  let s := recEvents evs (injEvents evs s)
  recEvents (s.ev.raised.drop (k + evs.length)) s

/-- What the events of a command do: bindings of the Damsel, twin, wake, ports, comparators, mailboxes, measurement
triggers, recorder, host events. -/
def settle (s : Block) : Block :=
  let s := damselEval s.ev.raised s
  let n := s.ev.raised.length
  let s := udpSettle (mbxSettle (cmpSettle (portsSettle (wakeSettle s.ev.raised (twinSettle s)))))
  let s := triggers 0 s
  -- events that the other units raised belong to the same fabric cycle (R64)
  let k := s.ev.raised.length
  let s := damselEval (s.ev.raised.drop n) s
  let s := triggers k s
  let s := evtRaise s.ev.raised s
  msiSettle (modEv (fun x => { x with raised := [] }) s)

/-- A command of a unit: nothing happens while a reset pin is low. -/
def run (f : Block → Block) (s : Block) : Block := if inReset s then s else settle (f s)

/-- A command that also acts while a reset pin is low. -/
def runAlways (f : Block → Block) (s : Block) : Block := settle (f s)

/-! ### Commands that more than one unit takes -/

/-- FRAME_LAUNCH (R69): the launched window also triggers injected groups (R419). -/
def frameLaunchCmd (p : Nat) (s : Block) : Block :=
  match (port s p).frames with
  | [] => s
  | f :: _ =>
    let s := frameLaunchStep p s
    if 12 ≤ f.arm then s else injWindow f.arm f.s s

/-- RANK_DONE (R184): the recorder takes the ranked values. -/
def rankDoneCmd (a : Nat) (s : Block) : Block := if rankDue s a then recRank a (arm s a).rankOwed (rankDoneStep a s) else s

end Sys2Proof.Machine
end

