-- ==== Sys2Proof/Machine/Registers.lean ====
section
/-!
DEFINITION. Host writes to the block's memory windows: which register field does what (Tables 17-2 and 17-3 and the
register tables of every chapter; R8, R9, R627).
-/

namespace Sys2Proof.Machine

/-! ### Clears (R8) -/

/-- Runs a step when the bit of a written word is 1. -/
def onBit (v : W32) (k : Nat) (f : Block → Block) (s : Block) : Block := if v.toNat.testBit k then f s else s

/-- Clears of port p (Table 3-6). -/
def portClears (p : Nat) (v : W32) (s : Block) : Block :=
  onBit v 1 (modPort p fun x => { x with alignErrMax := 0 })
    (onBit v 0 (modPort p fun x => { x with
      codeErr := 0, slotCrcErr := 0, frameCrcErr := 0, lockLoss := 0, reversals := 0, dlyCorr := 0 }) s)

/-- Counters of an arm (Table 6-7a). -/
def armCntClear (a : Nat) : Block → Block :=
  modArm a fun x => { x with dtCollapse := 0, pulseAdj := 0, clampCnt := 0, refBad := 0 }

/-- Counters of the twin (Table 16-10). -/
def twinCntClear : Block → Block :=
  modTw fun t => { t with relayRefused := 0, imgErr := 0, hbMiss := 0, takeovers := 0, handovers := 0 }

/-- Counters of a task (Table 10-10). -/
def taskCntClear (t : Nat) : Block → Block := modTask t fun x => { x with ovrCnt := 0, runMax := 0, faultCnt := 0 }

/-- Counters of time (Table 18-2). -/
def timeCntClear : Block → Block :=
  modTime fun t => { t with syncRx := 0, annRx := 0, masterChg := 0, portSwitch := 0 }

/-- LOOP_FAULT bits of loops from l0 on (R261): the host's reset clears the struck states. -/
def loopFaultClear (l0 : Nat) (v : W32) (s : Block) : Block :=
  forEach (onesBelow v.toNat 32) (fun k s => resetStates (l0 + k) (modLoop (l0 + k) (fun x => { x with fault := false }) s)) s

/-- Loop counters (Table 7-7c). -/
def govCntClear (s : Block) : Block :=
  forEach (s.gov.loops.map (·.1)) (fun l => modLoop l fun x => { x with freezeCnt := 0, clampCnt := 0, nonfinCnt := 0, multiCnt := 0 }) s

def queueStallClear (q0 : Nat) (v : W32) (s : Block) : Block :=
  forEach (onesBelow v.toNat 32) (fun k => modQueue (q0 + k) fun x => { x with stall := false }) s

/-! ### Fields that act -/

/-- CMD and CMD_ARM (Table 14-8). -/
def seqCommand (v : W32) (s : Block) : Block :=
  let a := bits v.toNat 4 4
  match bits v.toNat 0 4 with
  | 1 => energizeStep s
  | 2 => abortStep s
  | 3 => deblockStep s
  | 4 => blockStep s
  | 5 => dischargeStep s
  | 6 => faultResetStep s
  | 7 => deblockArmStep a s
  | 8 => blockArmStep a s
  | _ => s

/-- REQ and GO (Table 19-10). -/
def pwrRequestWrite (v : W32) (s : Block) : Block :=
  onBit v 18 (match bits v.toNat 16 2 with
    | 0 => pwrReqRunStep
    | 1 => pwrReqHoldStep
    | 2 => pwrReqDozeStep
    | _ => pwrReqOffStep) s

/-- ARM, STOP and FORCE (Table 12-8). -/
def recWrite (v : W32) (s : Block) : Block := onBit v 31 recForceStep (onBit v 30 recStopStep (onBit v 29 recArmStep s))

/-- RING, ABORT and RELEASE (Table 17-7). -/
def doorbellWrite (m : Nat) (v : W32) (s : Block) : Block :=
  onBit v 2 (mbxReleaseStep m) (onBit v 1 (mbxAbortStep m) (onBit v 0 (mbxRingStep m) s))

/-- CANCEL, REARM, REARM_CLEAR and CNT_CLR (Table 10-10). -/
def taskWrite (t : Nat) (v : W32) (s : Block) : Block :=
  onBit v 3 (taskCntClear t) (onBit v 2 (taskRearmClearStep t) (onBit v 1 (taskRearmStep t) (onBit v 0 (taskCancelStep t) s)))

/-! ### The register map (Table 17-3) -/

/-- Global registers below 0x0100. -/
def writeGlobal (off : Nat) (v : W32) (s : Block) : Block :=
  let w := v.toNat
  match off with
  | 0x14 => { s with host := { s.host with mpRestarts := bits w 16 16 } }
  | 0x18 => onBit v 31 (fun s => { s with host := { s.host with mpLoadMax := 0 } }) s
  | 0x28 => modRst (fun x => { x with cause := bits w 0 3, warmResets := bits w 16 16 }) s
  | 0x88 => tripLatchClearStep w s
  | 0x94 => dmaHaltClearStep w s
  | 0x98 => { s with dam := { s.dam with dmaDone := clearMask s.dam.dmaDone w } }
  | 0xA4 => queueStallClear 0 v s
  | 0xA8 => queueStallClear 32 v s
  | 0xC4 => seqCommand v s
  | 0xD4 => scUnrelClrStep (bits w 16 16) s
  | 0xD8 => cmdHostStep (bits w 8 8) s
  | _ => s

/-- Governor, Fantails, repetitive controllers, ramps, doorbells: 0x0100 to 0x07FF. -/
def writeEngines (off : Nat) (v : W32) (s : Block) : Block :=
  if off < 0x180 then
    if off % 16 = 0xC then onBit v 31 (modEngine ((off - 0x100) / 16) fun x => { x with queueMax := 0 }) s else s
  else if off = 0x198 then loopFaultClear 0 v s
  else if off = 0x19C then loopFaultClear 32 v s
  else if off = 0x1A0 then onBit v 0 govCntClear s
  else if 0x300 ≤ off ∧ off < 0x340 then
    if off % 16 = 8 then onBit v 6 (modFant ((off - 0x300) / 16) fun x => { x with gearDone := false }) s else s
  else if 0x340 ≤ off ∧ off < 0x380 then onBit v 19 (modRpc ((off - 0x340) / 4) fun x => { x with multi := false }) s
  else if 0x380 ≤ off ∧ off < 0x400 then
    let c := (off - 0x380) / 4
    onBit v 7 (modRamp c fun x => { x with fullSeen := false }) (onBit v 6 (modRamp c fun x => { x with hardDec := false }) s)
  else if 0x400 ≤ off ∧ off < 0x480 then
    if off % 16 = 4 then doorbellWrite ((off - 0x400) / 16) v s else s
  else s

/-- Events: 0x0800 to 0x09FF. -/
def writeEvents (off : Nat) (v : W32) (s : Block) : Block :=
  let o := off - 0x800
  if o < 0x20 then evtPendClearStep (o / 4) v.toNat s
  else if o < 0x40 then evtEnWriteStep false ((o - 0x20) / 4) v s
  else if 0x100 ≤ o then evtEnWriteStep true ((o - 0x100) / 4) v s
  else s

/-- Time and power: 0x1000 to 0x1FFF. -/
def writeTimePower (off : Nat) (v : W32) (s : Block) : Block :=
  let w := v.toNat
  match off with
  | 0x1014 => modTime (fun t => { t with stepSeq := bits w 0 16, timeValid := bitAt w 16 }) s
  | 0x1034 => modTime (fun t => { t with setLo := v }) s
  | 0x1038 => modTime (fun t => { t with setHi := v }) s
  | 0x103C => onBit v 1 timeCntClear (onBit v 0 setGoStep s)
  | 0x1400 => pwrRequestWrite v s
  | 0x140C => modPwr (fun x => { x with retFail := clearMask x.retFail (bits w 0 13) }) s
  | 0x1414 => onBit v 31 (modPwr fun x => { x with pMax := 0 }) s
  | _ => s

/-- Arms and setpoints: 0x3000 to 0x34FF. -/
def writeArms (off : Nat) (v : W32) (s : Block) : Block :=
  if 0x3400 ≤ off then setpointWriteStep ((off - 0x3400) / 4) v s
  else if off < 0x3300 then
    let a := (off - 0x3000) / 64
    match off % 64 with
    | 0x0C => onBit v 31 (modArm a fun x => { x with latMax := 0 }) s
    | 0x2C => onBit v 1 (fun s => pscSink a none none true s.cyc.index s.cyc.t0 s) (onBit v 0 (armCntClear a) s)
    | _ => s
  else s

/-- Recorder and measurement units: 0x3800 to 0x4FFF. -/
def writeRecAdc (off : Nat) (v : W32) (s : Block) : Block :=
  if off = 0x3800 then recWrite v s
  else if 0x3810 ≤ off ∧ off < 0x3850 then
    if off % 8 = 4 then onBit v 0 (bufferReleaseStep ((off - 0x3810) / 8)) s else s
  else if 0x4400 ≤ off ∧ off < 0x4480 then
    let u := (off - 0x4400) / 32
    match off % 32 with
    | 0 => onBit v 31 (injGoStep u) s
    | 8 => onBit v 31 (modUnit u fun x => { x with injLost := 0 }) s
    | _ => s
  else s

/-- A write of one aligned word to BAR0. Read-only fields, reserved bits and reserved addresses ignore it. -/
def bar0Write (off : Nat) (v : W32) (s : Block) : Block :=
  if off < 0x100 then writeGlobal off v s
  else if off < 0x800 then writeEngines off v s
  else if off < 0xA00 then writeEvents off v s
  else if off < 0x1000 then s
  else if off < 0x2000 then writeTimePower off v s
  else if off < 0x3000 then if off % 32 = 0x1C then portClears ((off - 0x2000) / 32) v s else s
  else if off < 0x3500 then writeArms off v s
  else if off < 0x5000 then writeRecAdc off v s
  else if off = 0x601C then onBit v 1 twinCntClear (onBit v 0 twinClearStep s)
  else if off < 0x7000 then s
  else if off < 0x8000 then if off % 16 = 0xC then taskWrite ((off - 0x7000) / 16) v s else s
  else if off < 0x8400 then msixWrite ((off - 0x8000) / 4) v s
  else s

/-- BAR2: mailboxes and the staging window (Table 17-2). -/
def bar2Write (off : Nat) (l : List W8) (s : Block) : Block :=
  if 0x800000 ≤ off then stagingWriteStep (off - 0x800000) l s
  else if off < 0x8000 then mbxAreaWrite (off / 0x1000) (off % 0x1000) l s
  else s

/-- REGISTER_WRITE: bytes written at an offset of BAR 0, 2 or 4. BAR0 takes single aligned words only (R627); BAR4 is
read-only. -/
def registerWriteStep (bar off : Nat) (l : List W8) (s : Block) : Block :=
  match bar with
  | 0 => if l.length = 4 ∧ off % 4 = 0 then bar0Write off (BitVec.ofNat 32 (leAt l 0 4)) s else s
  | 2 => bar2Write off l s
  | _ => s

end Sys2Proof.Machine
end

