-- ==== Sys2Proof/Machine/Command.lean ====
section
/-!
DEFINITION. How a command's effect on the block becomes its outcome. The queue is left alone.
-/

namespace Sys2Proof.Machine

/-- The effect of a command; one that names no unit of the spec changes nothing, and none acts while a reset pin is
low. -/
def act (i : Instr) (f : Block → Block) (s : State) : Host.Outcome State Fault Refusal :=
  .next (if i.wf then { s with toBlock := run f s.toBlock } else s)

/-- A command on the reset pins or the boundary scan, which acts while a reset pin is low. -/
def actAlways (i : Instr) (f : Block → Block) (s : State) : Host.Outcome State Fault Refusal :=
  .next (if i.wf then { s with toBlock := runAlways f s.toBlock } else s)

/-- No command waits: 2 ns of the FRC pass and what events left open is looked at (log entry 2). The FRC stands
while PORST_N is low. -/
def idle (b : Block) : Block :=
  if b.rst.porstLow then b else run id { b with now := b.now + 8 }

end Sys2Proof.Machine
end

