-- ==== Sys2Proof/Machine/CmdAdc.lean ====
section
/-!
DEFINITION. The commands of the measurement units and comparators (chapter 11).
-/

namespace Sys2Proof.Machine

/-- ADC_CONVERSION (R405). -/
def execAdcConversion (u : Nat) (slot : Nat) (code : Int) (s : State) : Host.Outcome State Fault Refusal :=
  act (.adcConversion u slot code) (adcConversionCmd u slot code) s

/-- ADC_STREAM_SAMPLE (R413). -/
def execAdcStreamSample (k : Nat) (i : Nat) (s : State) : Host.Outcome State Fault Refusal :=
  act (.adcStreamSample k i) (adcStreamSampleCmd k i) s

/-- INJ_GROUP_START (R420). -/
def execInjGroupStart (u : Nat) (s : State) : Host.Outcome State Fault Refusal :=
  act (.injGroupStart u) (injGroupStartStep u) s

/-- INJ_GO (R419). -/
def execInjGo (u : Nat) (s : State) : Host.Outcome State Fault Refusal :=
  act (.injGo u) (injGoStep u) s

/-- REF_READY (R408). -/
def execRefReady (u : Nat) (s : State) : Host.Outcome State Fault Refusal :=
  act (.refReady u) (refReadyStep u) s

/-- ADC_REF_FAULT (R408). -/
def execAdcRefFault (u : Nat) (s : State) : Host.Outcome State Fault Refusal :=
  act (.adcRefFault u) (adcRefFaultStep u) s

/-- VANA_BAD (R408). -/
def execVanaBad (u : Nat) (s : State) : Host.Outcome State Fault Refusal :=
  act (.vanaBad u) (vanaBadStep u) s

/-- SPARE_SLICE_ROTATION (R423). -/
def execSpareSliceRotation (u : Nat) (skew : Nat) (s : State) : Host.Outcome State Fault Refusal :=
  act (.spareSliceRotation u skew) (spareSliceRotationStep u skew) s

/-- CAL_START (R425). -/
def execCalStart (u : Nat) (s : State) : Host.Outcome State Fault Refusal :=
  act (.calStart u) (calStartStep u) s

/-- CAL_ABORT (R429). -/
def execCalAbort (u : Nat) (s : State) : Host.Outcome State Fault Refusal :=
  act (.calAbort u) (calAbortStep u) s

/-- CAL_STATE_END (R426). -/
def execCalStateEnd (u : Nat) (pass : Bool) (s : State) : Host.Outcome State Fault Refusal :=
  act (.calStateEnd u pass) (calStateEndStep u pass) s

/-- CMP_INPUT_CROSS (R437). -/
def execCmpInputCross (j : Nat) (v : Int) (s : State) : Host.Outcome State Fault Refusal :=
  act (.cmpInputCross j v) (cmpInputCrossStep j v) s

/-- CMP_LEVEL1 (R437). -/
def execCmpLevel1 (j : Nat) (s : State) : Host.Outcome State Fault Refusal :=
  act (.cmpLevel1 j) (cmpLevel1Step j) s

/-- VANA_RETURN (R408). -/
def execVanaReturn (u : Nat) (s : State) : Host.Outcome State Fault Refusal :=
  act (.vanaReturn u) (vanaReturnStep u) s

end Sys2Proof.Machine
end

