-- ==== Sys2Proof/Machine/CmdBoot.lean ====
section
/-!
DEFINITION. The commands of reset, boot and start-up (chapter 20).
-/

namespace Sys2Proof.Machine

/-- PORST_N_ASSERT (R728). -/
def execPorstNAssert (s : State) : Host.Outcome State Fault Refusal :=
  actAlways .porstNAssert porstNAssertStep s

/-- PORST_N_RELEASE (R730). -/
def execPorstNRelease (twinId : Bool) (straps : W8) (s : State) : Host.Outcome State Fault Refusal :=
  actAlways (.porstNRelease twinId straps) (porstNReleaseStep twinId straps.toNat) s

/-- RST_N_ASSERT (R728). -/
def execRstNAssert (s : State) : Host.Outcome State Fault Refusal :=
  actAlways .rstNAssert rstNAssertStep s

/-- RST_N_RELEASE (R730). -/
def execRstNRelease (twinId : Bool) (straps : W8) (s : State) : Host.Outcome State Fault Refusal :=
  actAlways (.rstNRelease twinId straps) (rstNReleaseStep twinId straps.toNat) s

/-- INTERNAL_WARM_RESET (R731). -/
def execInternalWarmReset (pll : Bool) (s : State) : Host.Outcome State Fault Refusal :=
  act (.internalWarmReset pll) (internalWarmResetStep pll) s

/-- START (R737). -/
def execStart (f : BootFlash) (s : State) : Host.Outcome State Fault Refusal :=
  act (.start f) (startStep f) s

/-- FW_TIMEOUT (R739). -/
def execFwTimeout (s : State) : Host.Outcome State Fault Refusal :=
  act .fwTimeout fwTimeoutStep s

/-- START_UP_END (R741). -/
def execStartUpEnd (ms : Nat) (fatal : Bool) (pgFailed : W8) (bad : BitVec 2) (s : State) : Host.Outcome State Fault Refusal :=
  act (.startUpEnd ms fatal pgFailed bad) (startUpEndStep ms fatal pgFailed.toNat bad.toNat) s

/-- AUTOLOAD (R742). -/
def execAutoload (bad : BitVec 2) (s : State) : Host.Outcome State Fault Refusal :=
  act (.autoload bad) (autoloadStep bad.toNat) s

/-- DEBUG_RESPONSE (R749). -/
def execDebugResponse (signed : Bool) (s : State) : Host.Outcome State Fault Refusal :=
  act (.debugResponse signed) (debugResponseStep signed) s

/-- JTAG_INSTRUCTION (R748). -/
def execJtagInstruction (i : JtagInstr) (s : State) : Host.Outcome State Fault Refusal :=
  actAlways (.jtagInstruction i) (jtagInstructionStep i) s

end Sys2Proof.Machine
end

