-- ==== Sys2Proof/Machine/CmdCycle.lean ====
section
/-!
DEFINITION. The commands of the control cycle, modulation and trips (chapters 2, 4 to 6).
-/

namespace Sys2Proof.Machine

/-- CYC_START (R48). -/
def execCycStart (smp : List (Nat × F32 × Bool)) (s : State) : Host.Outcome State Fault Refusal :=
  act (.cycStart smp) (cycStartStep smp) s

/-- ADC_READY (R54). -/
def execAdcReady (s : State) : Host.Outcome State Fault Refusal :=
  act .adcReady adcReadyStep s

/-- REPORT_FRAME (R168). -/
def execReportFrame (p : Nat) (l : List W8) (s : State) : Host.Outcome State Fault Refusal :=
  act (.reportFrame p l) (reportFrameStep p l) s

/-- REPORT_DEADLINE (R61). -/
def execReportDeadline (a : Nat) (s : State) : Host.Outcome State Fault Refusal :=
  act (.reportDeadline a) (reportDeadlineStep a) s

/-- REPORT_CRC_ERROR_LIMIT (R61). -/
def execReportCrcErrorLimit (g : Nat) (s : State) : Host.Outcome State Fault Refusal :=
  act (.reportCrcErrorLimit g) (reportCrcErrorLimitStep g) s

/-- RANK_DONE (R184). -/
def execRankDone (a : Nat) (s : State) : Host.Outcome State Fault Refusal :=
  act (.rankDone a) (rankDoneCmd a) s

/-- ARM_INSERT (R210). -/
def execArmInsert (a : Nat) (kind : Nat) (x : F32) (s : State) : Host.Outcome State Fault Refusal :=
  act (.armInsert a kind x) (fun b => armInsert a kind x b.cyc.index b.cyc.t0 b) s

/-- PSC_SINK (R235). -/
def execPscSink (a : Nat) (period : Option F32) (duty : Option F32) (s : State) : Host.Outcome State Fault Refusal :=
  act (.pscSink a period duty) (fun b => pscSink a period duty false b.cyc.index b.cyc.t0 b) s

/-- PSC_COMMIT (R236). -/
def execPscCommit (a : Nat) (s : State) : Host.Outcome State Fault Refusal :=
  act (.pscCommit a) (fun b => pscSink a none none true b.cyc.index b.cyc.t0 b) s

/-- CARRIER_BOUNDARY (R239). -/
def execCarrierBoundary (a : Nat) (g : Option Nat) (s : State) : Host.Outcome State Fault Refusal :=
  act (.carrierBoundary a g) (carrierBoundaryStep a g) s

/-- PAIR_ORPHAN (R237). -/
def execPairOrphan (a : Nat) (s : State) : Host.Outcome State Fault Refusal :=
  act (.pairOrphan a) (pairOrphanStep a) s

/-- FRAME_LAUNCH (R69). -/
def execFrameLaunch (p : Nat) (s : State) : Host.Outcome State Fault Refusal :=
  act (.frameLaunch p) (frameLaunchCmd p) s

/-- KEEP_ALIVE (R73). -/
def execKeepAlive (a : Nat) (s : State) : Host.Outcome State Fault Refusal :=
  act (.keepAlive a) (keepAliveStep a) s

/-- TRIP_ASSERT (R250). -/
def execTripAssert (i : Nat) (s : State) : Host.Outcome State Fault Refusal :=
  act (.tripAssert i) (tripAssertStep i) s

/-- TRIP_RELEASE (R249). -/
def execTripRelease (i : Nat) (s : State) : Host.Outcome State Fault Refusal :=
  act (.tripRelease i) (tripReleaseStep i) s

/-- BLANKING_END (R246). -/
def execBlankingEnd (i : Nat) (s : State) : Host.Outcome State Fault Refusal :=
  act (.blankingEnd i) (blankingEndStep i) s

/-- TRIP_LATCH_CLEAR (R251). -/
def execTripLatchClear (m : W32) (s : State) : Host.Outcome State Fault Refusal :=
  act (.tripLatchClear m) (tripLatchClearStep m.toNat) s

/-- WINDOW_START (R116). -/
def execWindowStart (a : Nat) (s : State) : Host.Outcome State Fault Refusal :=
  act (.windowStart a) (windowStartStep a) s

/-- BLANKING_START (R244). -/
def execBlankingStart (a : Nat) (s : State) : Host.Outcome State Fault Refusal :=
  act (.blankingStart a) (blankingStartStep a) s

end Sys2Proof.Machine
end

