-- ==== Sys2Proof/Machine/CmdEngines.lean ====
section
/-!
DEFINITION. The commands of the Governor, Fantails, repetitive controllers and ramps (chapters 7 and 8).
-/

namespace Sys2Proof.Machine

/-- GOV_CALL (R266). -/
def execGovCall (e : Nat) (err : Nat) (s : State) : Host.Outcome State Fault Refusal :=
  act (.govCall e err) (govCallStep e err) s

/-- GOV_INJ_DONE (R282). -/
def execGovInjDone (e : Nat) (s : State) : Host.Outcome State Fault Refusal :=
  act (.govInjDone e) (govInjDoneStep e) s

/-- RPC_CALL (R311). -/
def execRpcCall (r : Nat) (e : F32) (fz : Bool) (reset : Bool) (s : State) : Host.Outcome State Fault Refusal :=
  act (.rpcCall r e fz reset) (rpcCallStep r e fz reset) s

/-- RAMP_POST (R347). -/
def execRampPost (c : Nat) (core : Nat) (xt : F32) (vc : F32) (s : State) : Host.Outcome State Fault Refusal :=
  act (.rampPost c core xt vc) (rampPostStep c core xt vc) s

/-- FT_DROOP (R300). -/
def execFtDroop (i : Nat) (v : F32) (s : State) : Host.Outcome State Fault Refusal :=
  act (.ftDroop i v) (ftDroopStep i v) s

/-- FT_STREAM_STEP (R297). -/
def execFtStreamStep (i : Nat) (s : State) : Host.Outcome State Fault Refusal :=
  act (.ftStreamStep i) (ftStreamCmd i) s

/-- FT_LOCK (R299). -/
def execFtLock (i : Nat) (s : State) : Host.Outcome State Fault Refusal :=
  act (.ftLock i) (ftLockStep i) s

/-- GEAR_ARM (R306). -/
def execGearArm (i : Nat) (s : State) : Host.Outcome State Fault Refusal :=
  act (.gearArm i) (gearArmStep i) s

/-- GEAR_CANCEL (R308). -/
def execGearCancel (i : Nat) (s : State) : Host.Outcome State Fault Refusal :=
  act (.gearCancel i) (gearCancelStep i) s

/-- RAMP_MOVE (R313). -/
def execRampMove (c : Nat) (xt : F32) (vc : F32) (s : State) : Host.Outcome State Fault Refusal :=
  act (.rampMove c xt vc) (rampMoveStep c xt vc) s

/-- RAMP_STOP (R319). -/
def execRampStop (c : Nat) (s : State) : Host.Outcome State Fault Refusal :=
  act (.rampStop c) (rampStopStep c) s

/-- RAMP_FLUSH (R319). -/
def execRampFlush (c : Nat) (s : State) : Host.Outcome State Fault Refusal :=
  act (.rampFlush c) (rampFlushStep c) s

/-- RAMP_SET (R319). -/
def execRampSet (c : Nat) (v : F32) (s : State) : Host.Outcome State Fault Refusal :=
  act (.rampSet c v) (rampSetStep c v) s

/-- INJ_START (R278). -/
def execInjStart (e : Nat) (s : State) : Host.Outcome State Fault Refusal :=
  act (.injStart e) (injStartStep e) s

/-- INJ_ABORT (R284). -/
def execInjAbort (e : Nat) (s : State) : Host.Outcome State Fault Refusal :=
  act (.injAbort e) (injAbortStep e) s

end Sys2Proof.Machine
end

