-- ==== Sys2Proof/Machine/CmdHostPort.lean ====
section
/-!
DEFINITION. The commands of host register accesses and the PCI Express function (chapter 17).
-/

namespace Sys2Proof.Machine

/-- PCIE_LINK_LOSS (R625). -/
def execPcieLinkLoss (s : State) : Host.Outcome State Fault Refusal :=
  act .pcieLinkLoss pcieLinkLossStep s

/-- HOT_RESET (R625). -/
def execHotReset (s : State) : Host.Outcome State Fault Refusal :=
  act .hotReset hotResetStep s

/-- FUNCTION_LEVEL_RESET (R625). -/
def execFunctionLevelReset (s : State) : Host.Outcome State Fault Refusal :=
  act .functionLevelReset functionLevelResetStep s

/-- FUNDAMENTAL_RESET (R625). -/
def execFundamentalReset (s : State) : Host.Outcome State Fault Refusal :=
  act .fundamentalReset fundamentalResetStep s

/-- D3HOT (R625). -/
def execD3hot (enter : Bool) (s : State) : Host.Outcome State Fault Refusal :=
  act (.d3hot enter) (d3hotStep enter) s

/-- BUS_MASTER_ENABLE (R626). -/
def execBusMasterEnable (on : Bool) (s : State) : Host.Outcome State Fault Refusal :=
  act (.busMasterEnable on) (busMasterEnableStep on) s

/-- SETPOINT_WRITE (R631). -/
def execSetpointWrite (k : Nat) (v : W32) (s : State) : Host.Outcome State Fault Refusal :=
  act (.setpointWrite k v) (setpointWriteStep k v) s

/-- REGISTER_WRITE (R9). -/
def execRegisterWrite (bar : Nat) (off : Nat) (l : List W8) (s : State) : Host.Outcome State Fault Refusal :=
  act (.registerWrite bar off l) (registerWriteStep bar off l) s

/-- FRC_LO_READ (R678). -/
def execFrcLoRead (s : State) : Host.Outcome State Fault Refusal :=
  act .frcLoRead frcLoReadStep s

/-- SET_GO (R680). -/
def execSetGo (s : State) : Host.Outcome State Fault Refusal :=
  act .setGo setGoStep s

/-- EVT_PEND_CLEAR (R661). -/
def execEvtPendClear (w : Nat) (m : W32) (s : State) : Host.Outcome State Fault Refusal :=
  act (.evtPendClear w m) (evtPendClearStep w m.toNat) s

/-- MBX_RING (R635). -/
def execMbxRing (m : Nat) (s : State) : Host.Outcome State Fault Refusal :=
  act (.mbxRing m) (mbxRingStep m) s

/-- MBX_ABORT (R639). -/
def execMbxAbort (m : Nat) (s : State) : Host.Outcome State Fault Refusal :=
  act (.mbxAbort m) (mbxAbortStep m) s

/-- MBX_RELEASE (R634). -/
def execMbxRelease (m : Nat) (s : State) : Host.Outcome State Fault Refusal :=
  act (.mbxRelease m) (mbxReleaseStep m) s

/-- STAGING_WRITE (R651). -/
def execStagingWrite (off : Nat) (l : List W8) (s : State) : Host.Outcome State Fault Refusal :=
  act (.stagingWrite off l) (stagingWriteStep off l) s

/-- EVT_EN_WRITE (R660). -/
def execEvtEnWrite (vec : Bool) (w : Nat) (v : W32) (s : State) : Host.Outcome State Fault Refusal :=
  act (.evtEnWrite vec w v) (evtEnWriteStep vec w v) s

/-- VECTOR_UNMASK (R660). -/
def execVectorUnmask (v : Nat) (s : State) : Host.Outcome State Fault Refusal :=
  act (.vectorUnmask v) (vectorUnmaskStep v) s

end Sys2Proof.Machine
end

