-- ==== Sys2Proof/Machine/CmdMail.lean ====
section
/-!
DEFINITION. The commands of mailboxes and UDP (chapter 17).
-/

namespace Sys2Proof.Machine

/-- NOP (R641). -/
def execNop (m : Nat) (s : State) : Host.Outcome State Fault Refusal :=
  act (.nop m) (nopStep m) s

/-- IDENTIFY (R641). -/
def execIdentify (m : Nat) (s : State) : Host.Outcome State Fault Refusal :=
  act (.identify m) (identifyStep m) s

/-- PARAM_READ (R646). -/
def execParamRead (m : Nat) (s : State) : Host.Outcome State Fault Refusal :=
  act (.paramRead m) (paramReadStep m) s

/-- PARAM_WRITE (R644). -/
def execParamWrite (m : Nat) (s : State) : Host.Outcome State Fault Refusal :=
  act (.paramWrite m) (paramWriteStep m) s

/-- PARAM_INFO (R641). -/
def execParamInfo (m : Nat) (s : State) : Host.Outcome State Fault Refusal :=
  act (.paramInfo m) (paramInfoStep m) s

/-- PARAM_FIND (R647). -/
def execParamFind (m : Nat) (s : State) : Host.Outcome State Fault Refusal :=
  act (.paramFind m) (paramFindStep m) s

/-- CFG_OPEN (R651). -/
def execCfgOpen (m : Nat) (s : State) : Host.Outcome State Fault Refusal :=
  act (.cfgOpen m) (cfgOpenStep m) s

/-- CFG_COMMIT (R652). -/
def execCfgCommit (m : Nat) (s : State) : Host.Outcome State Fault Refusal :=
  act (.cfgCommit m) (cfgCommitStep m) s

/-- CFG_APPLY (R653). -/
def execCfgApply (flashOk : Bool) (s : State) : Host.Outcome State Fault Refusal :=
  act (.cfgApply flashOk) (cfgApplyStep flashOk) s

/-- CFG_CLOSE (R651). -/
def execCfgClose (m : Nat) (s : State) : Host.Outcome State Fault Refusal :=
  act (.cfgClose m) (cfgCloseStep m) s

/-- CFG_LOAD (R641). -/
def execCfgLoad (m : Nat) (s : State) : Host.Outcome State Fault Refusal :=
  act (.cfgLoad m) (cfgLoadStep m) s

/-- CFG_INFO (R641). -/
def execCfgInfo (m : Nat) (s : State) : Host.Outcome State Fault Refusal :=
  act (.cfgInfo m) (cfgInfoStep m) s

/-- CFG_READ (R658). -/
def execCfgRead (m : Nat) (s : State) : Host.Outcome State Fault Refusal :=
  act (.cfgRead m) (cfgReadStep m) s

/-- CELL_STATE (R36). -/
def execCellState (m : Nat) (s : State) : Host.Outcome State Fault Refusal :=
  act (.cellState m) (cellStateStep m) s

/-- CELL_STATUS (R641). -/
def execCellStatus (m : Nat) (s : State) : Host.Outcome State Fault Refusal :=
  act (.cellStatus m) (cellStatusStep m) s

/-- CELL_RECORD_READ (R490). -/
def execCellRecordRead (m : Nat) (s : State) : Host.Outcome State Fault Refusal :=
  act (.cellRecordRead m) (cellRecordReadStep m) s

/-- CELL_RECORD_WRITE (R492). -/
def execCellRecordWrite (m : Nat) (s : State) : Host.Outcome State Fault Refusal :=
  act (.cellRecordWrite m) (cellRecordWriteStep m) s

/-- CELL_SERVICE (R641). -/
def execCellService (m : Nat) (s : State) : Host.Outcome State Fault Refusal :=
  act (.cellService m) (cellServiceStep m) s

/-- PORT_DARK (R125). -/
def execPortDark (m : Nat) (s : State) : Host.Outcome State Fault Refusal :=
  act (.portDark m) (portDarkStep m) s

/-- RING_REJOIN (R116). -/
def execRingRejoin (m : Nat) (s : State) : Host.Outcome State Fault Refusal :=
  act (.ringRejoin m) (ringRejoinStep m) s

/-- TASK_CTRL (R372). -/
def execTaskCtrl (m : Nat) (s : State) : Host.Outcome State Fault Refusal :=
  act (.taskCtrl m) (taskCtrlStep m) s

/-- DMA_START (R384). -/
def execDmaStart (m : Nat) (s : State) : Host.Outcome State Fault Refusal :=
  act (.dmaStart m) (dmaStartStep m) s

/-- DMA_ABORT (R390). -/
def execDmaAbort (m : Nat) (s : State) : Host.Outcome State Fault Refusal :=
  act (.dmaAbort m) (dmaAbortStep m) s

/-- DMA_STATUS (R399). -/
def execDmaStatus (m : Nat) (s : State) : Host.Outcome State Fault Refusal :=
  act (.dmaStatus m) (dmaStatusStep m) s

/-- QUEUE_STATUS (R399). -/
def execQueueStatus (m : Nat) (s : State) : Host.Outcome State Fault Refusal :=
  act (.queueStatus m) (queueStatusStep m) s

/-- QUEUE_POST (R378). -/
def execQueuePost (m : Nat) (s : State) : Host.Outcome State Fault Refusal :=
  act (.queuePost m) (queuePostStep m) s

/-- SPB_ACK (R555). -/
def execSpbAck (m : Nat) (s : State) : Host.Outcome State Fault Refusal :=
  act (.spbAck m) (spbAckStep m) s

/-- SPB_LOG_READ (R567). -/
def execSpbLogRead (m : Nat) (s : State) : Host.Outcome State Fault Refusal :=
  act (.spbLogRead m) (spbLogReadStep m) s

/-- RELINQUISH (R611). -/
def execRelinquish (m : Nat) (s : State) : Host.Outcome State Fault Refusal :=
  act (.relinquish m) (relinquishStep m) s

/-- LOG_READ (R641). -/
def execLogRead (m : Nat) (s : State) : Host.Outcome State Fault Refusal :=
  act (.logRead m) (logReadStep m) s

/-- SELF_TEST (R641). -/
def execSelfTest (m : Nat) (s : State) : Host.Outcome State Fault Refusal :=
  act (.selfTest m) (selfTestStep m) s

/-- FW_UPDATE (R745). -/
def execFwUpdate (m : Nat) (ok : Bool) (version : Nat) (s : State) : Host.Outcome State Fault Refusal :=
  act (.fwUpdate m ok version) (fwUpdateStep m ok version) s

/-- UDP_REQUEST (R663). -/
def execUdpRequest (p : Nat) (addr : W32) (l : List W8) (s : State) : Host.Outcome State Fault Refusal :=
  act (.udpRequest p addr l) (udpRequestStep p addr.toNat l) s

/-- MP_LOAD (R667). -/
def execMpLoad (load : Nat) (s : State) : Host.Outcome State Fault Refusal :=
  act (.mpLoad load) (mpLoadStep load) s

/-- MP_RESTART (R668). -/
def execMpRestart (s : State) : Host.Outcome State Fault Refusal :=
  act .mpRestart mpRestartStep s

/-- MP_RESTART_DONE (R668). -/
def execMpRestartDone (s : State) : Host.Outcome State Fault Refusal :=
  act .mpRestartDone mpRestartDoneStep s

end Sys2Proof.Machine
end

