-- ==== Sys2Proof/Machine/CmdNet.lean ====
section
/-!
DEFINITION. The commands of station time and PTP (chapter 18).
-/

namespace Sys2Proof.Machine

/-- SYNC (R684). -/
def execSync (x : PtpMsg) (s : State) : Host.Outcome State Fault Refusal :=
  act (.sync x) (syncStep x) s

/-- FOLLOW_UP (R681). -/
def execFollowUp (x : PtpMsg) (s : State) : Host.Outcome State Fault Refusal :=
  act (.followUp x) (followUpStep x) s

/-- DELAY_REQ (R681). -/
def execDelayReq (x : PtpMsg) (s : State) : Host.Outcome State Fault Refusal :=
  act (.delayReq x) (delayReqStep x) s

/-- DELAY_RESP (R681). -/
def execDelayResp (x : PtpMsg) (s : State) : Host.Outcome State Fault Refusal :=
  act (.delayResp x) (delayRespStep x) s

/-- PDELAY_REQ (R681). -/
def execPdelayReq (x : PtpMsg) (s : State) : Host.Outcome State Fault Refusal :=
  act (.pdelayReq x) (pdelayReqStep x) s

/-- PDELAY_RESP (R681). -/
def execPdelayResp (x : PtpMsg) (s : State) : Host.Outcome State Fault Refusal :=
  act (.pdelayResp x) (pdelayRespStep x) s

/-- PDELAY_RESP_FOLLOW_UP (R681). -/
def execPdelayRespFollowUp (x : PtpMsg) (s : State) : Host.Outcome State Fault Refusal :=
  act (.pdelayRespFollowUp x) (pdelayRespFollowUpStep x) s

/-- ANNOUNCE (R683). -/
def execAnnounce (x : PtpAnn) (s : State) : Host.Outcome State Fault Refusal :=
  act (.announce x) (announceStep x) s

/-- SIGNALING (R681). -/
def execSignaling (x : PtpMsg) (s : State) : Host.Outcome State Fault Refusal :=
  act (.signaling x) (signalingStep x) s

/-- MANAGEMENT (R681). -/
def execManagement (x : PtpMsg) (s : State) : Host.Outcome State Fault Refusal :=
  act (.management x) (managementStep x) s

/-- ANNOUNCE_TIMEOUT (R683). -/
def execAnnounceTimeout (p : Nat) (s : State) : Host.Outcome State Fault Refusal :=
  act (.announceTimeout p) (announceTimeoutStep p) s

/-- ETH_LINK_LOSS (R683). -/
def execEthLinkLoss (p : Nat) (s : State) : Host.Outcome State Fault Refusal :=
  act (.ethLinkLoss p) (ethLinkLossStep p) s

/-- RATE_CHANGE (R675). -/
def execRateChange (s : State) : Host.Outcome State Fault Refusal :=
  act .rateChange rateChangeStep s

/-- PTP_TX_INTERVAL (R681). -/
def execPtpTxInterval (k : PtpKind) (s : State) : Host.Outcome State Fault Refusal :=
  act (.ptpTxInterval k) (ptpTxIntervalStep k) s

end Sys2Proof.Machine
end

