-- ==== Sys2Proof/Machine/CmdPair.lean ====
section
/-!
DEFINITION. The commands of twin operation (chapter 16).
-/

namespace Sys2Proof.Machine

/-- WAIT_TIMEOUT (R576). -/
def execWaitTimeout (s : State) : Host.Outcome State Fault Refusal :=
  act .waitTimeout waitTimeoutStep s

/-- HEARTBEAT_RX (R584). -/
def execHeartbeatRx (l : List W8) (s : State) : Host.Outcome State Fault Refusal :=
  act (.heartbeatRx l) (heartbeatRxStep l) s

/-- HEARTBEAT_MISSING (R584). -/
def execHeartbeatMissing (s : State) : Host.Outcome State Fault Refusal :=
  act .heartbeatMissing heartbeatMissingStep s

/-- TXDIS_GUARD (R602). -/
def execTxdisGuard (s : State) : Host.Outcome State Fault Refusal :=
  act .txdisGuard txdisGuardStep s

/-- TWIN_LANE_LOSS (R582). -/
def execTwinLaneLoss (lane : Nat) (s : State) : Host.Outcome State Fault Refusal :=
  act (.twinLaneLoss lane) (twinLaneLossStep lane) s

/-- LINK_FULL_RETURN (R582). -/
def execLinkFullReturn (s : State) : Host.Outcome State Fault Refusal :=
  act .linkFullReturn linkFullReturnStep s

/-- D_TW (R583). -/
def execDTw (rt : Nat) (s : State) : Host.Outcome State Fault Refusal :=
  act (.dTw rt) (dTwStep rt) s

/-- TIME_WORD (R587). -/
def execTimeWord (frc : Nat) (idx : W32) (err : Int) (s : State) : Host.Outcome State Fault Refusal :=
  act (.timeWord frc idx err) (timeWordStep frc idx.toNat err) s

/-- IMAGE_RX (R592). -/
def execImageRx (i : Image) (bad : Bool) (s : State) : Host.Outcome State Fault Refusal :=
  act (.imageRx i bad) (imageRxStep i bad) s

/-- BACKGROUND_RECORD (R597). -/
def execBackgroundRecord (r : BgRecord) (s : State) : Host.Outcome State Fault Refusal :=
  act (.backgroundRecord r) (backgroundRecordStep r) s

/-- HANDOVER_IMAGE_DEADLINE (R604). -/
def execHandoverImageDeadline (s : State) : Host.Outcome State Fault Refusal :=
  act .handoverImageDeadline handoverImageDeadlineStep s

/-- SPLIT (R607). -/
def execSplit (s : State) : Host.Outcome State Fault Refusal :=
  act .split splitStep s

/-- REVERT_HOLDOFF (R609). -/
def execRevertHoldoff (s : State) : Host.Outcome State Fault Refusal :=
  act .revertHoldoff revertHoldoffStep s

/-- RELAY_RECORD_RX (R614). -/
def execRelayRecordRx (l : List W8) (s : State) : Host.Outcome State Fault Refusal :=
  act (.relayRecordRx l) (relayRecordRxStep l) s

/-- RELAY_LAUNCH (R614). -/
def execRelayLaunch (p : Nat) (s : State) : Host.Outcome State Fault Refusal :=
  act (.relayLaunch p) (relayLaunchStep p) s

/-- TWIN_CLEAR (R619). -/
def execTwinClear (s : State) : Host.Outcome State Fault Refusal :=
  act .twinClear twinClearStep s

/-- TWIN_LANE_LOCK (R582). -/
def execTwinLaneLock (lane : Nat) (s : State) : Host.Outcome State Fault Refusal :=
  act (.twinLaneLock lane) (twinLaneLockStep lane) s

/-- RELAY_REPORT_RX (R616). -/
def execRelayReportRx (l : List W8) (reply : Option (Nat × Nat × W32)) (s : State) : Host.Outcome State Fault Refusal :=
  act (.relayReportRx l reply) (relayReportRxStep l reply) s

/-- RELAY_PORT_STATUS (R615). -/
def execRelayPortStatus (l : List (Nat × Bool × Bool × Nat)) (s : State) : Host.Outcome State Fault Refusal :=
  act (.relayPortStatus l) (relayPortStatusStep l) s

end Sys2Proof.Machine
end

