-- ==== Sys2Proof/Machine/CmdPorts.lean ====
section
/-!
DEFINITION. The commands of the cell-link ports and memory errors (chapters 0, 1 and 3).
-/

namespace Sys2Proof.Machine

/-- TRAIN (R92). -/
def execTrain (p : Nat) (count : Nat) (s : State) : Host.Outcome State Fault Refusal :=
  act (.train p count) (trainStep p count) s

/-- SEEK_SETTLE (R91). -/
def execSeekSettle (p : Nat) (s : State) : Host.Outcome State Fault Refusal :=
  act (.seekSettle p) (seekSettleStep p) s

/-- UPSTREAM_LOCK (R91). -/
def execUpstreamLock (p : Nat) (s : State) : Host.Outcome State Fault Refusal :=
  act (.upstreamLock p) (upstreamLockStep p) s

/-- UPSTREAM_LOCK_LOST (R110). -/
def execUpstreamLockLost (p : Nat) (violations : Nat) (s : State) : Host.Outcome State Fault Refusal :=
  act (.upstreamLockLost p violations) (upstreamLockLostStep p violations) s

/-- RING_BREAK (R111). -/
def execRingBreak (p : Nat) (s : State) : Host.Outcome State Fault Refusal :=
  act (.ringBreak p) (ringBreakStep p) s

/-- LINK_LOSS (R117). -/
def execLinkLoss (p : Nat) (s : State) : Host.Outcome State Fault Refusal :=
  act (.linkLoss p) (linkLossStep p) s

/-- SEGMENT_ABSENT (R114). -/
def execSegmentAbsent (g : Nat) (s : State) : Host.Outcome State Fault Refusal :=
  act (.segmentAbsent g) (segmentAbsentStep g) s

/-- REPORT_END_SHORT (R118). -/
def execReportEndShort (p : Nat) (s : State) : Host.Outcome State Fault Refusal :=
  act (.reportEndShort p) (reportEndShortStep p) s

/-- ECHO (R98). -/
def execEcho (p : Nat) (hop : Nat) (rtt : Nat) (s : State) : Host.Outcome State Fault Refusal :=
  act (.echo p hop rtt) (echoStep p hop rtt) s

/-- TIME_MARK (R101). -/
def execTimeMark (p : Nat) (s : State) : Host.Outcome State Fault Refusal :=
  act (.timeMark p) (timeMarkStep p) s

/-- DISCOVER_LIMIT (R782). -/
def execDiscoverLimit (p : Nat) (s : State) : Host.Outcome State Fault Refusal :=
  act (.discoverLimit p) (discoverLimitStep p) s

/-- BYPASS_UNCONF (R31). -/
def execBypassUnconf (g : Nat) (s : State) : Host.Outcome State Fault Refusal :=
  act (.bypassUnconf g) (bypassUnconfStep g) s

/-- RET_UNCONF (R488). -/
def execRetUnconf (g : Nat) (s : State) : Host.Outcome State Fault Refusal :=
  act (.retUnconf g) (retUnconfStep g) s

/-- MEM_UNCORR (R17). -/
def execMemUncorr (pg : Nat) (s : State) : Host.Outcome State Fault Refusal :=
  act (.memUncorr pg) (memUncorrStep pg) s

end Sys2Proof.Machine
end

