-- ==== Sys2Proof/Machine/CmdRecord.lean ====
section
/-!
DEFINITION. The commands of the recorder (chapter 12).
-/

namespace Sys2Proof.Machine

/-- REC_ARM (R451). -/
def execRecArm (s : State) : Host.Outcome State Fault Refusal :=
  act .recArm recArmStep s

/-- REC_STOP (R456). -/
def execRecStop (s : State) : Host.Outcome State Fault Refusal :=
  act .recStop recStopStep s

/-- REC_FORCE (R461). -/
def execRecForce (s : State) : Host.Outcome State Fault Refusal :=
  act .recForce recForceStep s

/-- BUFFER_RELEASE (R467). -/
def execBufferRelease (k : Nat) (s : State) : Host.Outcome State Fault Refusal :=
  act (.bufferRelease k) (bufferReleaseStep k) s

/-- PRE_ROWS_FILLED (R451). -/
def execPreRowsFilled (s : State) : Host.Outcome State Fault Refusal :=
  act .preRowsFilled preRowsFilledStep s

/-- REC_DONE (R454). -/
def execRecDone (s : State) : Host.Outcome State Fault Refusal :=
  act .recDone recDoneStep s

/-- REC_REARM (R455). -/
def execRecRearm (s : State) : Host.Outcome State Fault Refusal :=
  act .recRearm recRearmStep s

end Sys2Proof.Machine
end

