-- ==== Sys2Proof/Machine/CmdSafety.lean ====
section
/-!
DEFINITION. The commands of the Safe Pulse Block (chapter 15).
-/

namespace Sys2Proof.Machine

/-- SI_CHANGE (R540). -/
def execSiChange (k : Nat) (contactB : Bool) (closed : Bool) (s : State) : Host.Outcome State Fault Refusal :=
  act (.siChange k contactB closed) (siChangeStep k contactB closed) s

/-- TEST_PULSE (R542). -/
def execTestPulse (second : Bool) (s : State) : Host.Outcome State Fault Refusal :=
  act (.testPulse second) (testPulseStep second) s

/-- TEST_WINDOW_END (R542). -/
def execTestWindowEnd (second : Bool) (opened : W8) (s : State) : Host.Outcome State Fault Refusal :=
  act (.testWindowEnd second opened) (testWindowEndStep second opened.toNat) s

/-- DISCREPANCY (R543). -/
def execDiscrepancy (k : Nat) (s : State) : Host.Outcome State Fault Refusal :=
  act (.discrepancy k) (discrepancyStep k) s

/-- BLOCK_REPEAT (R546). -/
def execBlockRepeat (s : State) : Host.Outcome State Fault Refusal :=
  act .blockRepeat blockRepeatStep s

/-- SO_READBACK (R551). -/
def execSoReadback (j : Nat) (level : Bool) (s : State) : Host.Outcome State Fault Refusal :=
  act (.soReadback j level) (soReadbackStep j level) s

/-- FEEDBACK (R552). -/
def execFeedback (j : Nat) (s : State) : Host.Outcome State Fault Refusal :=
  act (.feedback j) (feedbackStep j) s

/-- CLOCK (R558). -/
def execClock (s : State) : Host.Outcome State Fault Refusal :=
  act .clock clockStep s

/-- CONFIG_CRC (R558). -/
def execConfigCrc (s : State) : Host.Outcome State Fault Refusal :=
  act .configCrc configCrcStep s

/-- MEMORY (R558). -/
def execMemory (uncorrectable : Bool) (s : State) : Host.Outcome State Fault Refusal :=
  act (.memory uncorrectable) (memoryStep uncorrectable) s

/-- SPB_CHALLENGE (R560). -/
def execSpbChallenge (s : State) : Host.Outcome State Fault Refusal :=
  act .spbChallenge spbChallengeStep s

/-- CHALLENGE_RETURN (R560). -/
def execChallengeReturn (v : Option W16) (s : State) : Host.Outcome State Fault Refusal :=
  act (.challengeReturn v) (challengeReturnStep v) s

/-- SPB_STARTUP_DONE (R561). -/
def execSpbStartupDone (soFail : BitVec 4) (primaryOk : Bool) (mirrorOk : Bool) (tpFail : W16) (s : State) : Host.Outcome State Fault Refusal :=
  act (.spbStartupDone soFail primaryOk mirrorOk tpFail) (spbStartupDoneCmd soFail.toNat primaryOk mirrorOk tpFail.toNat) s

/-- FB_CHANGE (R552). -/
def execFbChange (j : Nat) (closed : Bool) (s : State) : Host.Outcome State Fault Refusal :=
  act (.fbChange j closed) (fbChangeStep j closed) s

/-- PASSWORD_LOCKOUT_END (R566). -/
def execPasswordLockoutEnd (s : State) : Host.Outcome State Fault Refusal :=
  act .passwordLockoutEnd passwordLockoutEndStep s

end Sys2Proof.Machine
end

