-- ==== Sys2Proof/Machine/CmdStation.lean ====
section
/-!
DEFINITION. The commands of the operating sequences and station contacts (chapter 14).
-/

namespace Sys2Proof.Machine

/-- ENERGIZE (R516). -/
def execEnergize (s : State) : Host.Outcome State Fault Refusal :=
  act .energize energizeStep s

/-- ABORT (R521). -/
def execAbort (s : State) : Host.Outcome State Fault Refusal :=
  act .abort abortStep s

/-- DEBLOCK (R526). -/
def execDeblock (s : State) : Host.Outcome State Fault Refusal :=
  act .deblock deblockStep s

/-- BLOCK (R525). -/
def execBlock (s : State) : Host.Outcome State Fault Refusal :=
  act .block blockStep s

/-- DISCHARGE (R531). -/
def execDischarge (s : State) : Host.Outcome State Fault Refusal :=
  act .discharge dischargeStep s

/-- FAULT_RESET (R532). -/
def execFaultReset (s : State) : Host.Outcome State Fault Refusal :=
  act .faultReset faultResetStep s

/-- DEBLOCK_ARM (R526). -/
def execDeblockArm (a : Nat) (s : State) : Host.Outcome State Fault Refusal :=
  act (.deblockArm a) (deblockArmStep a) s

/-- BLOCK_ARM (R525). -/
def execBlockArm (a : Nat) (s : State) : Host.Outcome State Fault Refusal :=
  act (.blockArm a) (blockArmStep a) s

/-- CONTACT_DEBOUNCE (R507). -/
def execContactDebounce (c : Nat) (s : State) : Host.Outcome State Fault Refusal :=
  act (.contactDebounce c) (contactDebounceStep c) s

/-- CONTACT_UNSETTLED (R508). -/
def execContactUnsettled (c : Nat) (s : State) : Host.Outcome State Fault Refusal :=
  act (.contactUnsettled c) (contactUnsettledStep c) s

/-- SC_UNREL_CLR (R510). -/
def execScUnrelClr (m : W16) (s : State) : Host.Outcome State Fault Refusal :=
  act (.scUnrelClr m) (scUnrelClrStep m.toNat) s

/-- CMD_HOST (R511). -/
def execCmdHost (v : W8) (s : State) : Host.Outcome State Fault Refusal :=
  act (.cmdHost v) (cmdHostStep v.toNat) s

/-- MAIN_CONFIRM_TIMEOUT (R517). -/
def execMainConfirmTimeout (s : State) : Host.Outcome State Fault Refusal :=
  act .mainConfirmTimeout mainConfirmTimeoutStep s

/-- BYPASS_CONFIRM_TIMEOUT (R517). -/
def execBypassConfirmTimeout (s : State) : Host.Outcome State Fault Refusal :=
  act .bypassConfirmTimeout bypassConfirmTimeoutStep s

/-- CHARGE_TIMEOUT (R517). -/
def execChargeTimeout (s : State) : Host.Outcome State Fault Refusal :=
  act .chargeTimeout chargeTimeoutStep s

/-- DISCOVERY_END (R518). -/
def execDiscoveryEnd (s : State) : Host.Outcome State Fault Refusal :=
  act .discoveryEnd discoveryEndStep s

/-- BYPASS_OPEN (R514). -/
def execBypassOpen (s : State) : Host.Outcome State Fault Refusal :=
  act .bypassOpen bypassOpenStep s

/-- BREAKER_STUCK (R515). -/
def execBreakerStuck (byp : Bool) (s : State) : Host.Outcome State Fault Refusal :=
  act (.breakerStuck byp) (breakerStuckStep byp) s

/-- DISCHARGE_TIMEOUT (R531). -/
def execDischargeTimeout (s : State) : Host.Outcome State Fault Refusal :=
  act .dischargeTimeout dischargeTimeoutStep s

/-- SC_RAW_CHANGE (R507). -/
def execScRawChange (c : Nat) (level : Bool) (s : State) : Host.Outcome State Fault Refusal :=
  act (.scRawChange c level) (scRawChangeStep c level) s

end Sys2Proof.Machine
end

