-- ==== Sys2Proof/Machine/CmdSupply.lean ====
section
/-!
DEFINITION. The commands of power states, arbiter and clocks (chapter 19).
-/

namespace Sys2Proof.Machine

/-- PWR_REQ_RUN (R697). -/
def execPwrReqRun (s : State) : Host.Outcome State Fault Refusal :=
  act .pwrReqRun pwrReqRunStep s

/-- PWR_REQ_HOLD (R698). -/
def execPwrReqHold (s : State) : Host.Outcome State Fault Refusal :=
  act .pwrReqHold pwrReqHoldStep s

/-- PWR_REQ_DOZE (R703). -/
def execPwrReqDoze (s : State) : Host.Outcome State Fault Refusal :=
  act .pwrReqDoze pwrReqDozeStep s

/-- PWR_REQ_OFF (R707). -/
def execPwrReqOff (s : State) : Host.Outcome State Fault Refusal :=
  act .pwrReqOff pwrReqOffStep s

/-- PWR_ENTRY_STEP (R703). -/
def execPwrEntryStep (bar4 : Option Nat) (s : State) : Host.Outcome State Fault Refusal :=
  act (.pwrEntryStep bar4) (pwrEntryStepStep bar4) s

/-- PWR_WAKE (R708). -/
def execPwrWake (cause : Nat) (s : State) : Host.Outcome State Fault Refusal :=
  act (.pwrWake cause) (pwrWakeStep cause) s

/-- WAKE_COMPLETE (R711). -/
def execWakeComplete (fail : BitVec 13) (s : State) : Host.Outcome State Fault Refusal :=
  act (.wakeComplete fail) (wakeCompleteStep fail.toNat) s

/-- POWER_ESTIMATE (R723). -/
def execPowerEstimate (est : Nat) (doms : List (Nat × Nat)) (s : State) : Host.Outcome State Fault Refusal :=
  act (.powerEstimate est doms) (powerEstimateStep est doms) s

/-- PWR_OVER (R724). -/
def execPwrOver (s : State) : Host.Outcome State Fault Refusal :=
  act .pwrOver pwrOverStep s

/-- PLL_LOCK (R694). -/
def execPllLock (s : State) : Host.Outcome State Fault Refusal :=
  act .pllLock pllLockStep s

/-- VR_RETRY (R719). -/
def execVrRetry (ack : Bool) (s : State) : Host.Outcome State Fault Refusal :=
  act (.vrRetry ack) (vrRetryStep ack) s

end Sys2Proof.Machine
end

