-- ==== Sys2Proof/Machine/CmdTasks.lean ====
section
/-!
DEFINITION. The commands of graph blocks, tasks, queues and DMA (chapters 9 and 10).
-/

namespace Sys2Proof.Machine

/-- BLOCK_EXECUTE (R337). -/
def execBlockExecute (c : Nat) (err : Nat) (s : State) : Host.Outcome State Fault Refusal :=
  act (.blockExecute c err) (blockExecuteStep c err) s

/-- BLOCK_SOURCE_WAIT_END (R339). -/
def execBlockSourceWaitEnd (c : Nat) (s : State) : Host.Outcome State Fault Refusal :=
  act (.blockSourceWaitEnd c) (blockSourceWaitEndStep c) s

/-- EVENT_POST (R348). -/
def execEventPost (n : Nat) (s : State) : Host.Outcome State Fault Refusal :=
  act (.eventPost n) (eventPostStep n) s

/-- REC_TAP (R350). -/
def execRecTap (k : Nat) (v : W32) (s : State) : Host.Outcome State Fault Refusal :=
  act (.recTap k v) (recTapStep k v) s

/-- READBACK (R350). -/
def execReadback (k : Nat) (v : W32) (s : State) : Host.Outcome State Fault Refusal :=
  act (.readback k v) (readbackStep k v) s

/-- QUEUE_TAKE (R344). -/
def execQueueTake (q : Nat) (sig : Nat) (s : State) : Host.Outcome State Fault Refusal :=
  act (.queueTake q sig) (queueTakeStep q sig) s

/-- QUEUE_POST_BLOCK (R375). -/
def execQueuePostBlock (q : Nat) (c : Nat) (w : List W32) (s : State) : Host.Outcome State Fault Refusal :=
  act (.queuePostBlock q c w) (queuePostBlockStep q c w) s

/-- QUEUE_POST_WAIT_END (R375). -/
def execQueuePostWaitEnd (q : Nat) (s : State) : Host.Outcome State Fault Refusal :=
  act (.queuePostWaitEnd q) (queuePostWaitEndStep q) s

/-- TASK_CANCEL (R369). -/
def execTaskCancel (t : Nat) (s : State) : Host.Outcome State Fault Refusal :=
  act (.taskCancel t) (taskCancelStep t) s

/-- TASK_REARM (R371). -/
def execTaskRearm (t : Nat) (s : State) : Host.Outcome State Fault Refusal :=
  act (.taskRearm t) (taskRearmStep t) s

/-- TASK_REARM_CLEAR (R371). -/
def execTaskRearmClear (t : Nat) (s : State) : Host.Outcome State Fault Refusal :=
  act (.taskRearmClear t) (taskRearmClearStep t) s

/-- HW_SOURCE_RETRY (R376). -/
def execHwSourceRetry (q : Nat) (s : State) : Host.Outcome State Fault Refusal :=
  act (.hwSourceRetry q) (hwSourceRetryStep q) s

/-- DMA_DESCRIPTOR_FETCH (R389). -/
def execDmaDescriptorFetch (c : Nat) (err : Nat) (host : List W8) (s : State) : Host.Outcome State Fault Refusal :=
  act (.dmaDescriptorFetch c err host) (dmaDescriptorFetchStep c err host) s

/-- DMA_GRANULE_READ (R386). -/
def execDmaGranuleRead (c : Nat) (err : Nat) (host : List W8) (s : State) : Host.Outcome State Fault Refusal :=
  act (.dmaGranuleRead c err host) (dmaGranuleReadStep c err host) s

/-- DMA_HALT_CLEAR (R391). -/
def execDmaHaltClear (m : W32) (s : State) : Host.Outcome State Fault Refusal :=
  act (.dmaHaltClear m) (dmaHaltClearStep m.toNat) s

end Sys2Proof.Machine
end

