-- ==== Sys2Proof/Machine/CmdWear.lean ====
section
/-!
DEFINITION. The commands of Tentering (chapter 13).
-/

namespace Sys2Proof.Machine

/-- TENT_UPDATE (R474). -/
def execTentUpdate (s : State) : Host.Outcome State Fault Refusal :=
  act .tentUpdate tentUpdateStep s

/-- SI_MONITOR (R494). -/
def execSiMonitor (paths : List (Nat × Int)) (srams : List (Nat × Nat)) (tj : Int) (s : State) : Host.Outcome State Fault Refusal :=
  act (.siMonitor paths srams tj) (siMonitorStep paths srams tj) s

/-- SI_PLAN (R495). -/
def execSiPlan (tj : Int) (s : State) : Host.Outcome State Fault Refusal :=
  act (.siPlan tj) (siPlanStep tj) s

/-- PLAN_STEP (R495). -/
def execPlanStep (paths : List (Nat × Int)) (s : State) : Host.Outcome State Fault Refusal :=
  act (.planStep paths) (planStepStep paths) s

/-- SI_HISTORY_WRITE (R499). -/
def execSiHistoryWrite (s : State) : Host.Outcome State Fault Refusal :=
  act .siHistoryWrite siHistoryWriteStep s

end Sys2Proof.Machine
end

