-- ==== Sys2Proof/Machine/Dispatch.lean ====
section
/-! DEFINITION. Which meaning a command has: one arm per constructor. -/

namespace Sys2Proof.Machine

def exec (i : Instr) (s : State) : Host.Outcome State Fault Refusal :=
  match i with
  | .cycStart x1 => Sys2Proof.Machine.execCycStart x1 s
  | .adcReady => Sys2Proof.Machine.execAdcReady s
  | .reportFrame x1 x2 => Sys2Proof.Machine.execReportFrame x1 x2 s
  | .reportDeadline x1 => Sys2Proof.Machine.execReportDeadline x1 s
  | .reportCrcErrorLimit x1 => Sys2Proof.Machine.execReportCrcErrorLimit x1 s
  | .rankDone x1 => Sys2Proof.Machine.execRankDone x1 s
  | .blockExecute x1 x2 => Sys2Proof.Machine.execBlockExecute x1 x2 s
  | .blockSourceWaitEnd x1 => Sys2Proof.Machine.execBlockSourceWaitEnd x1 s
  | .armInsert x1 x2 x3 => Sys2Proof.Machine.execArmInsert x1 x2 x3 s
  | .pscSink x1 x2 x3 => Sys2Proof.Machine.execPscSink x1 x2 x3 s
  | .pscCommit x1 => Sys2Proof.Machine.execPscCommit x1 s
  | .carrierBoundary x1 x2 => Sys2Proof.Machine.execCarrierBoundary x1 x2 s
  | .pairOrphan x1 => Sys2Proof.Machine.execPairOrphan x1 s
  | .frameLaunch x1 => Sys2Proof.Machine.execFrameLaunch x1 s
  | .keepAlive x1 => Sys2Proof.Machine.execKeepAlive x1 s
  | .govCall x1 x2 => Sys2Proof.Machine.execGovCall x1 x2 s
  | .govInjDone x1 => Sys2Proof.Machine.execGovInjDone x1 s
  | .rpcCall x1 x2 x3 x4 => Sys2Proof.Machine.execRpcCall x1 x2 x3 x4 s
  | .rampPost x1 x2 x3 x4 => Sys2Proof.Machine.execRampPost x1 x2 x3 x4 s
  | .ftDroop x1 x2 => Sys2Proof.Machine.execFtDroop x1 x2 s
  | .eventPost x1 => Sys2Proof.Machine.execEventPost x1 s
  | .recTap x1 x2 => Sys2Proof.Machine.execRecTap x1 x2 s
  | .readback x1 x2 => Sys2Proof.Machine.execReadback x1 x2 s
  | .queueTake x1 x2 => Sys2Proof.Machine.execQueueTake x1 x2 s
  | .queuePostBlock x1 x2 x3 => Sys2Proof.Machine.execQueuePostBlock x1 x2 x3 s
  | .queuePostWaitEnd x1 => Sys2Proof.Machine.execQueuePostWaitEnd x1 s
  | .taskCancel x1 => Sys2Proof.Machine.execTaskCancel x1 s
  | .taskRearm x1 => Sys2Proof.Machine.execTaskRearm x1 s
  | .taskRearmClear x1 => Sys2Proof.Machine.execTaskRearmClear x1 s
  | .hwSourceRetry x1 => Sys2Proof.Machine.execHwSourceRetry x1 s
  | .dmaDescriptorFetch x1 x2 x3 => Sys2Proof.Machine.execDmaDescriptorFetch x1 x2 x3 s
  | .dmaGranuleRead x1 x2 x3 => Sys2Proof.Machine.execDmaGranuleRead x1 x2 x3 s
  | .dmaHaltClear x1 => Sys2Proof.Machine.execDmaHaltClear x1 s
  | .train x1 x2 => Sys2Proof.Machine.execTrain x1 x2 s
  | .seekSettle x1 => Sys2Proof.Machine.execSeekSettle x1 s
  | .upstreamLock x1 => Sys2Proof.Machine.execUpstreamLock x1 s
  | .upstreamLockLost x1 x2 => Sys2Proof.Machine.execUpstreamLockLost x1 x2 s
  | .ringBreak x1 => Sys2Proof.Machine.execRingBreak x1 s
  | .linkLoss x1 => Sys2Proof.Machine.execLinkLoss x1 s
  | .segmentAbsent x1 => Sys2Proof.Machine.execSegmentAbsent x1 s
  | .reportEndShort x1 => Sys2Proof.Machine.execReportEndShort x1 s
  | .echo x1 x2 x3 => Sys2Proof.Machine.execEcho x1 x2 x3 s
  | .timeMark x1 => Sys2Proof.Machine.execTimeMark x1 s
  | .discoverLimit x1 => Sys2Proof.Machine.execDiscoverLimit x1 s
  | .bypassUnconf x1 => Sys2Proof.Machine.execBypassUnconf x1 s
  | .retUnconf x1 => Sys2Proof.Machine.execRetUnconf x1 s
  | .memUncorr x1 => Sys2Proof.Machine.execMemUncorr x1 s
  | .tripAssert x1 => Sys2Proof.Machine.execTripAssert x1 s
  | .tripRelease x1 => Sys2Proof.Machine.execTripRelease x1 s
  | .blankingEnd x1 => Sys2Proof.Machine.execBlankingEnd x1 s
  | .tripLatchClear x1 => Sys2Proof.Machine.execTripLatchClear x1 s
  | .ftStreamStep x1 => Sys2Proof.Machine.execFtStreamStep x1 s
  | .ftLock x1 => Sys2Proof.Machine.execFtLock x1 s
  | .gearArm x1 => Sys2Proof.Machine.execGearArm x1 s
  | .gearCancel x1 => Sys2Proof.Machine.execGearCancel x1 s
  | .rampMove x1 x2 x3 => Sys2Proof.Machine.execRampMove x1 x2 x3 s
  | .rampStop x1 => Sys2Proof.Machine.execRampStop x1 s
  | .rampFlush x1 => Sys2Proof.Machine.execRampFlush x1 s
  | .rampSet x1 x2 => Sys2Proof.Machine.execRampSet x1 x2 s
  | .injStart x1 => Sys2Proof.Machine.execInjStart x1 s
  | .injAbort x1 => Sys2Proof.Machine.execInjAbort x1 s
  | .adcConversion x1 x2 x3 => Sys2Proof.Machine.execAdcConversion x1 x2 x3 s
  | .adcStreamSample x1 x2 => Sys2Proof.Machine.execAdcStreamSample x1 x2 s
  | .injGroupStart x1 => Sys2Proof.Machine.execInjGroupStart x1 s
  | .injGo x1 => Sys2Proof.Machine.execInjGo x1 s
  | .refReady x1 => Sys2Proof.Machine.execRefReady x1 s
  | .adcRefFault x1 => Sys2Proof.Machine.execAdcRefFault x1 s
  | .vanaBad x1 => Sys2Proof.Machine.execVanaBad x1 s
  | .spareSliceRotation x1 x2 => Sys2Proof.Machine.execSpareSliceRotation x1 x2 s
  | .calStart x1 => Sys2Proof.Machine.execCalStart x1 s
  | .calAbort x1 => Sys2Proof.Machine.execCalAbort x1 s
  | .calStateEnd x1 x2 => Sys2Proof.Machine.execCalStateEnd x1 x2 s
  | .cmpInputCross x1 x2 => Sys2Proof.Machine.execCmpInputCross x1 x2 s
  | .cmpLevel1 x1 => Sys2Proof.Machine.execCmpLevel1 x1 s
  | .recArm => Sys2Proof.Machine.execRecArm s
  | .recStop => Sys2Proof.Machine.execRecStop s
  | .recForce => Sys2Proof.Machine.execRecForce s
  | .bufferRelease x1 => Sys2Proof.Machine.execBufferRelease x1 s
  | .preRowsFilled => Sys2Proof.Machine.execPreRowsFilled s
  | .recDone => Sys2Proof.Machine.execRecDone s
  | .recRearm => Sys2Proof.Machine.execRecRearm s
  | .tentUpdate => Sys2Proof.Machine.execTentUpdate s
  | .siMonitor x1 x2 x3 => Sys2Proof.Machine.execSiMonitor x1 x2 x3 s
  | .siPlan x1 => Sys2Proof.Machine.execSiPlan x1 s
  | .planStep x1 => Sys2Proof.Machine.execPlanStep x1 s
  | .siHistoryWrite => Sys2Proof.Machine.execSiHistoryWrite s
  | .energize => Sys2Proof.Machine.execEnergize s
  | .abort => Sys2Proof.Machine.execAbort s
  | .deblock => Sys2Proof.Machine.execDeblock s
  | .block => Sys2Proof.Machine.execBlock s
  | .discharge => Sys2Proof.Machine.execDischarge s
  | .faultReset => Sys2Proof.Machine.execFaultReset s
  | .deblockArm x1 => Sys2Proof.Machine.execDeblockArm x1 s
  | .blockArm x1 => Sys2Proof.Machine.execBlockArm x1 s
  | .contactDebounce x1 => Sys2Proof.Machine.execContactDebounce x1 s
  | .contactUnsettled x1 => Sys2Proof.Machine.execContactUnsettled x1 s
  | .scUnrelClr x1 => Sys2Proof.Machine.execScUnrelClr x1 s
  | .cmdHost x1 => Sys2Proof.Machine.execCmdHost x1 s
  | .mainConfirmTimeout => Sys2Proof.Machine.execMainConfirmTimeout s
  | .bypassConfirmTimeout => Sys2Proof.Machine.execBypassConfirmTimeout s
  | .chargeTimeout => Sys2Proof.Machine.execChargeTimeout s
  | .discoveryEnd => Sys2Proof.Machine.execDiscoveryEnd s
  | .bypassOpen => Sys2Proof.Machine.execBypassOpen s
  | .breakerStuck x1 => Sys2Proof.Machine.execBreakerStuck x1 s
  | .dischargeTimeout => Sys2Proof.Machine.execDischargeTimeout s
  | .siChange x1 x2 x3 => Sys2Proof.Machine.execSiChange x1 x2 x3 s
  | .testPulse x1 => Sys2Proof.Machine.execTestPulse x1 s
  | .testWindowEnd x1 x2 => Sys2Proof.Machine.execTestWindowEnd x1 x2 s
  | .discrepancy x1 => Sys2Proof.Machine.execDiscrepancy x1 s
  | .blockRepeat => Sys2Proof.Machine.execBlockRepeat s
  | .soReadback x1 x2 => Sys2Proof.Machine.execSoReadback x1 x2 s
  | .feedback x1 => Sys2Proof.Machine.execFeedback x1 s
  | .clock => Sys2Proof.Machine.execClock s
  | .configCrc => Sys2Proof.Machine.execConfigCrc s
  | .memory x1 => Sys2Proof.Machine.execMemory x1 s
  | .spbChallenge => Sys2Proof.Machine.execSpbChallenge s
  | .challengeReturn x1 => Sys2Proof.Machine.execChallengeReturn x1 s
  | .spbStartupDone x1 x2 x3 x4 => Sys2Proof.Machine.execSpbStartupDone x1 x2 x3 x4 s
  | .waitTimeout => Sys2Proof.Machine.execWaitTimeout s
  | .heartbeatRx x1 => Sys2Proof.Machine.execHeartbeatRx x1 s
  | .heartbeatMissing => Sys2Proof.Machine.execHeartbeatMissing s
  | .txdisGuard => Sys2Proof.Machine.execTxdisGuard s
  | .twinLaneLoss x1 => Sys2Proof.Machine.execTwinLaneLoss x1 s
  | .linkFullReturn => Sys2Proof.Machine.execLinkFullReturn s
  | .dTw x1 => Sys2Proof.Machine.execDTw x1 s
  | .timeWord x1 x2 x3 => Sys2Proof.Machine.execTimeWord x1 x2 x3 s
  | .imageRx x1 x2 => Sys2Proof.Machine.execImageRx x1 x2 s
  | .backgroundRecord x1 => Sys2Proof.Machine.execBackgroundRecord x1 s
  | .handoverImageDeadline => Sys2Proof.Machine.execHandoverImageDeadline s
  | .split => Sys2Proof.Machine.execSplit s
  | .revertHoldoff => Sys2Proof.Machine.execRevertHoldoff s
  | .relayRecordRx x1 => Sys2Proof.Machine.execRelayRecordRx x1 s
  | .relayLaunch x1 => Sys2Proof.Machine.execRelayLaunch x1 s
  | .twinClear => Sys2Proof.Machine.execTwinClear s
  | .pcieLinkLoss => Sys2Proof.Machine.execPcieLinkLoss s
  | .hotReset => Sys2Proof.Machine.execHotReset s
  | .functionLevelReset => Sys2Proof.Machine.execFunctionLevelReset s
  | .fundamentalReset => Sys2Proof.Machine.execFundamentalReset s
  | .d3hot x1 => Sys2Proof.Machine.execD3hot x1 s
  | .busMasterEnable x1 => Sys2Proof.Machine.execBusMasterEnable x1 s
  | .setpointWrite x1 x2 => Sys2Proof.Machine.execSetpointWrite x1 x2 s
  | .registerWrite x1 x2 x3 => Sys2Proof.Machine.execRegisterWrite x1 x2 x3 s
  | .frcLoRead => Sys2Proof.Machine.execFrcLoRead s
  | .setGo => Sys2Proof.Machine.execSetGo s
  | .evtPendClear x1 x2 => Sys2Proof.Machine.execEvtPendClear x1 x2 s
  | .mbxRing x1 => Sys2Proof.Machine.execMbxRing x1 s
  | .mbxAbort x1 => Sys2Proof.Machine.execMbxAbort x1 s
  | .mbxRelease x1 => Sys2Proof.Machine.execMbxRelease x1 s
  | .stagingWrite x1 x2 => Sys2Proof.Machine.execStagingWrite x1 x2 s
  | .nop x1 => Sys2Proof.Machine.execNop x1 s
  | .identify x1 => Sys2Proof.Machine.execIdentify x1 s
  | .paramRead x1 => Sys2Proof.Machine.execParamRead x1 s
  | .paramWrite x1 => Sys2Proof.Machine.execParamWrite x1 s
  | .paramInfo x1 => Sys2Proof.Machine.execParamInfo x1 s
  | .paramFind x1 => Sys2Proof.Machine.execParamFind x1 s
  | .cfgOpen x1 => Sys2Proof.Machine.execCfgOpen x1 s
  | .cfgCommit x1 => Sys2Proof.Machine.execCfgCommit x1 s
  | .cfgApply x1 => Sys2Proof.Machine.execCfgApply x1 s
  | .cfgClose x1 => Sys2Proof.Machine.execCfgClose x1 s
  | .cfgLoad x1 => Sys2Proof.Machine.execCfgLoad x1 s
  | .cfgInfo x1 => Sys2Proof.Machine.execCfgInfo x1 s
  | .cfgRead x1 => Sys2Proof.Machine.execCfgRead x1 s
  | .cellState x1 => Sys2Proof.Machine.execCellState x1 s
  | .cellStatus x1 => Sys2Proof.Machine.execCellStatus x1 s
  | .cellRecordRead x1 => Sys2Proof.Machine.execCellRecordRead x1 s
  | .cellRecordWrite x1 => Sys2Proof.Machine.execCellRecordWrite x1 s
  | .cellService x1 => Sys2Proof.Machine.execCellService x1 s
  | .portDark x1 => Sys2Proof.Machine.execPortDark x1 s
  | .ringRejoin x1 => Sys2Proof.Machine.execRingRejoin x1 s
  | .taskCtrl x1 => Sys2Proof.Machine.execTaskCtrl x1 s
  | .dmaStart x1 => Sys2Proof.Machine.execDmaStart x1 s
  | .dmaAbort x1 => Sys2Proof.Machine.execDmaAbort x1 s
  | .dmaStatus x1 => Sys2Proof.Machine.execDmaStatus x1 s
  | .queueStatus x1 => Sys2Proof.Machine.execQueueStatus x1 s
  | .queuePost x1 => Sys2Proof.Machine.execQueuePost x1 s
  | .spbAck x1 => Sys2Proof.Machine.execSpbAck x1 s
  | .spbLogRead x1 => Sys2Proof.Machine.execSpbLogRead x1 s
  | .relinquish x1 => Sys2Proof.Machine.execRelinquish x1 s
  | .logRead x1 => Sys2Proof.Machine.execLogRead x1 s
  | .selfTest x1 => Sys2Proof.Machine.execSelfTest x1 s
  | .fwUpdate x1 x2 x3 => Sys2Proof.Machine.execFwUpdate x1 x2 x3 s
  | .udpRequest x1 x2 x3 => Sys2Proof.Machine.execUdpRequest x1 x2 x3 s
  | .mpLoad x1 => Sys2Proof.Machine.execMpLoad x1 s
  | .mpRestart => Sys2Proof.Machine.execMpRestart s
  | .mpRestartDone => Sys2Proof.Machine.execMpRestartDone s
  | .sync x1 => Sys2Proof.Machine.execSync x1 s
  | .followUp x1 => Sys2Proof.Machine.execFollowUp x1 s
  | .delayReq x1 => Sys2Proof.Machine.execDelayReq x1 s
  | .delayResp x1 => Sys2Proof.Machine.execDelayResp x1 s
  | .pdelayReq x1 => Sys2Proof.Machine.execPdelayReq x1 s
  | .pdelayResp x1 => Sys2Proof.Machine.execPdelayResp x1 s
  | .pdelayRespFollowUp x1 => Sys2Proof.Machine.execPdelayRespFollowUp x1 s
  | .announce x1 => Sys2Proof.Machine.execAnnounce x1 s
  | .signaling x1 => Sys2Proof.Machine.execSignaling x1 s
  | .management x1 => Sys2Proof.Machine.execManagement x1 s
  | .announceTimeout x1 => Sys2Proof.Machine.execAnnounceTimeout x1 s
  | .ethLinkLoss x1 => Sys2Proof.Machine.execEthLinkLoss x1 s
  | .rateChange => Sys2Proof.Machine.execRateChange s
  | .ptpTxInterval x1 => Sys2Proof.Machine.execPtpTxInterval x1 s
  | .pwrReqRun => Sys2Proof.Machine.execPwrReqRun s
  | .pwrReqHold => Sys2Proof.Machine.execPwrReqHold s
  | .pwrReqDoze => Sys2Proof.Machine.execPwrReqDoze s
  | .pwrReqOff => Sys2Proof.Machine.execPwrReqOff s
  | .pwrEntryStep x1 => Sys2Proof.Machine.execPwrEntryStep x1 s
  | .pwrWake x1 => Sys2Proof.Machine.execPwrWake x1 s
  | .wakeComplete x1 => Sys2Proof.Machine.execWakeComplete x1 s
  | .powerEstimate x1 x2 => Sys2Proof.Machine.execPowerEstimate x1 x2 s
  | .pwrOver => Sys2Proof.Machine.execPwrOver s
  | .pllLock => Sys2Proof.Machine.execPllLock s
  | .vrRetry x1 => Sys2Proof.Machine.execVrRetry x1 s
  | .porstNAssert => Sys2Proof.Machine.execPorstNAssert s
  | .porstNRelease x1 x2 => Sys2Proof.Machine.execPorstNRelease x1 x2 s
  | .rstNAssert => Sys2Proof.Machine.execRstNAssert s
  | .rstNRelease x1 x2 => Sys2Proof.Machine.execRstNRelease x1 x2 s
  | .internalWarmReset x1 => Sys2Proof.Machine.execInternalWarmReset x1 s
  | .start x1 => Sys2Proof.Machine.execStart x1 s
  | .fwTimeout => Sys2Proof.Machine.execFwTimeout s
  | .startUpEnd x1 x2 x3 x4 => Sys2Proof.Machine.execStartUpEnd x1 x2 x3 x4 s
  | .autoload x1 => Sys2Proof.Machine.execAutoload x1 s
  | .debugResponse x1 => Sys2Proof.Machine.execDebugResponse x1 s
  | .jtagInstruction x1 => Sys2Proof.Machine.execJtagInstruction x1 s
  | .twinLaneLock x1 => Sys2Proof.Machine.execTwinLaneLock x1 s
  | .fbChange x1 x2 => Sys2Proof.Machine.execFbChange x1 x2 s
  | .scRawChange x1 x2 => Sys2Proof.Machine.execScRawChange x1 x2 s
  | .passwordLockoutEnd => Sys2Proof.Machine.execPasswordLockoutEnd s
  | .evtEnWrite x1 x2 x3 => Sys2Proof.Machine.execEvtEnWrite x1 x2 x3 s
  | .vectorUnmask x1 => Sys2Proof.Machine.execVectorUnmask x1 s
  | .relayReportRx x1 x2 => Sys2Proof.Machine.execRelayReportRx x1 x2 s
  | .relayPortStatus x1 => Sys2Proof.Machine.execRelayPortStatus x1 s
  | .windowStart x1 => Sys2Proof.Machine.execWindowStart x1 s
  | .blankingStart x1 => Sys2Proof.Machine.execBlankingStart x1 s
  | .vanaReturn x1 => Sys2Proof.Machine.execVanaReturn x1 s

end Sys2Proof.Machine
end

