-- ==== Sys2Proof/Machine/RegisterMap.lean ====
section
/-!
DEFINITION. What a host read of the memory windows returns: the fields of the register tables of every chapter, at their
offsets and bits (Tables 17-2 and 17-3). Reads change nothing; the latch that a read of FRC_LO makes is FRC_LO_READ.
-/

namespace Sys2Proof.Machine

/-- A word put together from fields: low bit, width and value of each; the bits left are reserved and read 0 (R9). -/
def word (fs : List (Nat × Nat × Nat)) : W32 :=
  BitVec.ofNat 32 (sumNat (fs.map fun f => f.2.2 % 2 ^ f.2.1 * 2 ^ f.1))

/-- A counter or value shown in n bits, saturating. -/
def sat (n x : Nat) : Nat := clampU n x

/-- Bits of 64, low word or high word. -/
def half (hi : Bool) (x : Nat) : W32 := BitVec.ofNat 32 (if hi then x / 2 ^ 32 else x)

/-! ### Codes -/

def convCode : ConvState → Nat
  | .await => 0 | .ready => 1 | .energize => 2 | .charged => 3 | .run => 4 | .blocked => 5 | .discharge => 6 | .fault => 7

def portCode : PState → Nat
  | .dark => 0 | .seek => 1 | .discover => 2 | .serve => 3 | .monitor => 4 | .fail => 5

def injCode : InjState → Nat
  | .idle => 0 | .running => 1 | .settling => 2 | .integrating => 3 | .done => 4 | .aborted => 5

def taskCode : TState → Nat
  | .idle => 0 | .ready => 1 | .running => 2 | .preempted => 3 | .blocked => 4 | .cancelled => 5

def spbCode : SpbState → Nat
  | .startup => 0 | .normal => 1 | .demand => 2 | .safe => 3 | .killed => 4

def powerCode : PowerState → Nat
  | .run => 0 | .hold => 1 | .doze => 2 | .off => 3

def phaseCode : PowerPhase → Nat
  | .steady => 0 | .entering => 1 | .abandoning => 2 | .waking => 3

def ptpCode : PtpState → Nat
  | .initializing => 1 | .faulty => 2 | .disabled => 3 | .listening => 4 | .preMaster => 5 | .master => 6 | .passive => 7
  | .uncalibrated => 8 | .slave => 9

/-! ### Global block -/

/-- Identity, host status and start-up (Tables 17-4 and 20-6). -/
def readIdentity (s : Block) (off : Nat) : W32 :=
  let h := s.host
  let r := s.rst
  match off with
  | 0x14 => word [(0, 1, b2n h.fwReady), (1, 1, b2n h.mpOverload), (2, 1, b2n h.mpRestarting), (16, 16, h.mpRestarts)]
  | 0x18 => word [(0, 10, h.mpLoad), (16, 10, h.mpLoadMax)]
  | 0x1C => word [(0, 1, b2n h.session), (1, 3, h.sessionMbx), (4, 1, b2n h.committing)]
  | 0x20 => BitVec.ofNat 32 h.cfgId
  | 0x24 => BitVec.ofNat 32 h.cfgSeq
  | 0x28 => word [(0, 3, r.cause), (16, 16, r.warmResets)]
  | 0x2C => word [(0, 4, r.bootStatus), (4, 1, b2n r.strapBad), (5, 1, b2n r.debugOpen), (6, 1, b2n r.mirrorUsed), (7, 8, r.pgFailed)]
  | 0x30 => BitVec.ofNat 32 r.bootTime
  | 0x34 | 0x38 | 0x3C => BitVec.ofNat 32 ((r.challenge.getD 0#128).toNat / 2 ^ (8 * (off - 0x34)))
  | _ => if off < 0x14 then identWord s (off / 4) else 0#32

def dmaMask (s : Block) (st : DmaState) : Nat := maskOf ((upto 32).filter fun c => (dma s c).st = st)
def queueMask (s : Block) (f : QueueSt → Bool) : Nat := maskOf ((upto 64).filter fun q => f (queue s q))
def queueFullMask (s : Block) : Nat := maskOf ((upto 64).filter fun q => decide (qDepth s q ≠ 0) && queueFull s q)
def taskCount (s : Block) (f : TState → Bool) : Nat := (s.dam.tasks.filter fun x => f x.2.st).length

/-- The base of STEP_TIME is the begin of the present step, or of DISCHARGE. -/
def stepMs (s : Block) : Nat :=
  if s.seq.step ≠ 0 ∨ s.seq.state = .discharge then sat 32 ((s.now - s.seq.stepAt) / msU) else 0

/-- Cycle, trips, Damsel, sequence and contacts (Tables 2-3a, 6-7b, 10-13 and 14-8). -/
def readGlobal (s : Block) (off : Nat) : W32 :=
  match off with
  | 0x40 => BitVec.ofNat 32 s.cyc.index
  | 0x44 => word [(0, 8, s.cyc.n), (8, 15, s.cyc.phase)]
  | 0x80 => BitVec.ofNat 32 s.trip.raw
  | 0x84 => BitVec.ofNat 32 s.trip.blanked
  | 0x88 => BitVec.ofNat 32 s.trip.latch
  | 0x8C => word [(0, 16, s.trip.l2)]
  | 0x90 => BitVec.ofNat 32 (dmaMask s .running)
  | 0x94 => BitVec.ofNat 32 (dmaMask s .halted)
  | 0x98 => BitVec.ofNat 32 s.dam.dmaDone
  | 0x9C => half false (queueFullMask s)
  | 0xA0 => half true (queueFullMask s)
  | 0xA4 => half false (queueMask s (·.stall))
  | 0xA8 => half true (queueMask s (·.stall))
  | 0xAC => word [(0, 9, taskCount s fun t => t = .ready || t = .preempted), (16, 9, taskCount s fun t => t = .blocked)]
  | 0xC0 => word [(0, 3, convCode s.seq.state), (3, 2, s.seq.step), (5, 1, b2n (charged s)), (8, 8, s.seq.faultCause),
      (16, 4, s.seq.faultItem), (20, 8, s.seq.faultLast)]
  | 0xC4 => word [(8, 8, s.seq.cmdResult), (16, 8, s.seq.refuseArm)]
  | 0xC8 => BitVec.ofNat 32 (stepMs s)
  | 0xD0 => word [(0, 16, s.seq.scState), (16, 16, s.seq.scUnrel)]
  | 0xD4 => word [(0, 16, s.seq.scRaw)]
  | 0xD8 => word [(0, 8, s.seq.cmdLevel), (8, 8, s.seq.cmdHost)]
  | _ => 0#32

/-! ### Engines, doorbells and events -/

/-- Engine injection status (Table 7-7a). -/
def readEngine (s : Block) (e o : Nat) : W32 :=
  let x := engineOf s e
  match o with
  | 0 => word [(0, 6, x.loop), (6, 3, injCode x.st), (9, 1, b2n x.satSeen), (10, 1, b2n x.resultValid), (16, 4, x.queueMax)]
  | 4 => x.gain
  | 8 => x.phase
  | _ => word [(0, 24, sat 24 x.nSamples)]

def loopMask (s : Block) (f : LoopSt → Bool) : Nat := maskOf ((upto 64).filter fun l => f (loopOf s l))

/-- Loop bitmaps and counters (Tables 7-7b and 7-7c). -/
def readLoops (s : Block) (off : Nat) : W32 :=
  match off with
  | 0x180 => half false (loopMask s (·.satHi))
  | 0x184 => half true (loopMask s (·.satHi))
  | 0x188 => half false (loopMask s (·.satLo))
  | 0x18C => half true (loopMask s (·.satLo))
  | 0x190 => half false (loopMask s (·.active))
  | 0x194 => half true (loopMask s (·.active))
  | 0x198 => half false (loopMask s (·.fault))
  | 0x19C => half true (loopMask s (·.fault))
  | _ =>
    if 0x200 ≤ off ∧ off < 0x300 then
      let x := loopOf s ((off - 0x200) / 4)
      word [(0, 8, x.freezeCnt), (8, 8, x.clampCnt), (16, 8, x.nonfinCnt), (24, 8, x.multiCnt)]
    else 0#32

/-- Fantail status (Table 8-3). -/
def readFant (s : Block) (i o : Nat) : W32 :=
  let x := fant s i
  match o with
  | 0 => BitVec.ofNat 32 x.angle
  | 4 => x.freq
  | 8 => word [(0, 2, ftMode s i), (2, 1, b2n x.form), (3, 1, b2n x.locked), (4, 1, b2n x.ampLow), (5, 1, b2n x.armed.isSome),
      (6, 1, b2n x.gearDone), (8, 8, wrapN 8 x.num), (16, 8, x.den)]
  | _ => if ftMode s i = 1 ∧ !x.form then x.amp else f32Zero

/-- Status of a repetitive controller and of a ramp (Tables 8-4 and 8-5). -/
def readRpc (s : Block) (r : Nat) : W32 :=
  let x := rpc s r
  word [(0, 16, sat 16 x.period), (16, 1, b2n x.frozen), (17, 1, b2n x.sparse), (18, 1, b2n x.outLim), (19, 1, b2n x.multi)]

def readRamp (s : Block) (c : Nat) : W32 :=
  let x := ramp s c
  word [(0, 4, x.queue.length), (4, 2, if x.stopping then 2 else b2n x.busy), (6, 1, b2n x.hardDec), (7, 1, b2n x.fullSeen),
    (8, 1, b2n x.falling)]

/-- µs from acceptance to completion, or to now. -/
def mbxElapsed (s : Block) (x : MbxSt) : Nat :=
  match x.mstate with
  | 0 => 0
  | 3 => sat 32 ((x.doneAt - x.accAt) / usU)
  | _ => sat 32 ((s.now - x.accAt) / usU)

/-- Mailbox doorbell (Table 17-7). -/
def readDoorbell (s : Block) (m o : Nat) : W32 :=
  let x := mbx s m
  match o with
  | 0 => word [(0, 2, x.mstate), (2, 2, x.cls), (4, 2, x.abortResult), (16, 10, x.progress)]
  | 8 => BitVec.ofNat 32 (mbxElapsed s x)
  | 12 => word [(0, 16, x.wrIgn), (16, 16, x.ringIgn)]
  | _ => 0#32

/-- Governor, Fantails, repetitive controllers, ramps, doorbells: 0x0100 to 0x07FF. -/
def readEngines (s : Block) (off : Nat) : W32 :=
  if off < 0x180 then readEngine s ((off - 0x100) / 16) (off % 16)
  else if off < 0x300 then readLoops s off
  else if off < 0x340 then readFant s ((off - 0x300) / 16) (off % 16)
  else if off < 0x380 then readRpc s ((off - 0x340) / 4)
  else if off < 0x400 then readRamp s ((off - 0x380) / 4)
  else if off < 0x480 then readDoorbell s ((off - 0x400) / 16) (off % 16)
  else 0#32

/-- Events (Table 17-11). -/
def readEvents (s : Block) (off : Nat) : W32 :=
  let o := off - 0x800
  if o < 0x20 then BitVec.ofNat 32 (s.ev.pend >>> (8 * o))
  else if o < 0x40 then BitVec.ofNat 32 (s.ev.en >>> (8 * (o - 0x20)))
  else if o < 0x48 then BitVec.ofNat 32 (vecActive s >>> (8 * (o - 0x40)))
  else if 0x100 ≤ o then word ((upto 4).map fun k => (8 * k, 6, evtVec s (o - 0x100 + k)))
  else 0#32

/-! ### Time, power and wear -/

/-- OFFSET in whole ns, saturating. -/
def offsetNs (s : Block) : Nat := wrapN 32 (clampS 32 (idivRne s.time.offset (2 ^ 16)))

/-- Time registers (Table 18-2). -/
def readTime (s : Block) (off : Nat) : W32 :=
  let t := s.time
  match off with
  | 0x1000 => half false (tickNow s)
  | 0x1004 => half true t.latchFrc
  | 0x1008 => half false t.latchSt
  | 0x100C => half true t.latchSt
  | 0x1010 => half false (stNow s)
  | 0x1014 => word [(0, 16, t.stepSeq), (16, 1, b2n t.timeValid), (17, 1, b2n t.ptpLocked), (18, 1, b2n t.holdover), (19, 1, b2n t.setRef)]
  | 0x1018 => BitVec.ofNat 32 (holdAge s)
  | 0x101C => BitVec.ofInt 32 t.rate
  | 0x1020 => BitVec.ofNat 32 (offsetNs s)
  | 0x1024 => BitVec.ofInt 32 (idivRne t.meanPath (2 ^ 16))
  | 0x1028 => word [(0, 4, ptpCode t.state), (4, 1, t.activePort), (5, 1, b2n (backupOk s)), (6, 1, b2n t.utcValid),
      (16, 16, wrapN 16 t.utcOffset)]
  | 0x102C => half false t.gmId
  | 0x1030 => half true t.gmId
  | 0x1034 => t.setLo
  | 0x1038 => t.setHi
  | 0x1040 => word [(0, 16, t.syncRx), (16, 16, t.annRx)]
  | 0x1044 => word [(0, 16, t.masterChg), (16, 16, t.portSwitch)]
  | 0x1048 => half false t.t0St
  | _ => 0#32

/-- Floors of the powered domains in quarter watts (R722). -/
def floorSum (s : Block) : Nat :=
  (qfloor (qmul (qi 4) (((upto 30).map fun d => if domCounts s d then q32 (parW s (0xF100 + d)) else qi 0).foldl qadd (qi 0)))).toNat

/-- BIAS of the logic domains: REVERSE in DOZE (R717). -/
def biasNow (s : Block) : Nat := if s.pwr.state = .doze then 2 else s.si.bias

/-- Power and Tentering (Tables 19-6, 13-3, 13-4 and 19-11). -/
def readPower (s : Block) (off : Nat) : W32 :=
  let x := s.pwr
  match off with
  | 0x1400 => word [(0, 2, powerCode x.state), (2, 3, phaseCode x.phase), (5, 3, x.result), (8, 5, x.refuseDom), (13, 3, x.wakeCause)]
  | 0x1404 => word [(0, 30, x.domOn)]
  | 0x1408 => word [(0, 30, x.domStopped)]
  | 0x140C => word [(0, 13, x.retFail)]
  | 0x1410 => word [(0, 16, x.pEst), (16, 16, x.pMax)]
  | 0x1414 => word [(0, 4, x.throttle), (4, 1, b2n x.excess), (5, 1, b2n x.pllLock), (6, 1, b2n x.vrFault)]
  | 0x1418 => word [(0, 16, (qfloor (qmul (qi 4) (q32 (parW s 0xF000)))).toNat), (16, 16, floorSum s)]
  | 0x141C => word [(0, 16, x.entries), (16, 16, x.refusals)]
  | 0x1480 => word [(0, 16, if s.si.vddSet = 0 then 0 else x.vrAcked / 1000), (16, 2, biasNow s), (18, 1, b2n s.si.resLow),
      (19, 1, b2n s.si.slackLow), (20, 1, b2n s.si.projValid), (21, 1, b2n s.si.sramAssist)]
  | 0x1484 => word [(0, 16, wrapN 16 s.si.slackMin), (16, 6, s.si.slackMon), (22, 4, s.si.sramMargin), (26, 4, s.si.sramMon)]
  | 0x1488 => word [(0, 8, s.si.reserve), (16, 16, Config.vfreshEq)]
  | 0x148C => BitVec.ofNat 32 s.si.lifeRem
  | 0x1490 => BitVec.ofNat 32 (clampUI 32 (qfloor (q64 s.si.tEq)))
  | 0x1494 => word [(0, 16, s.si.plans)]
  | _ =>
    if 0x14C0 ≤ off ∧ off < 0x14F0 then
      let y := arm s ((off - 0x14C0) / 4)
      word [(0, 11, y.retired), (11, 11, y.due), (22, 1, b2n y.retireHeld), (23, 1, b2n y.retUnconf), (24, 8, y.cMinPct)]
    else if 0x1500 ≤ off ∧ off < 0x1578 then
      let d := (off - 0x1500) / 4
      word [(0, 16, tget 0 x.domP d), (16, 1, b2n (bitAt x.overCeil d))]
    else 0#32

/-! ### Ports and arms -/

/-- Port status (Table 3-6). A delay above 65,535 units, which a cell at a higher hop may have, shows modulo 2^16: the
model's choice, as the manual gives no other form (log entry 31). The guard of R602 drives the TXDIS pins too. -/
def readPort (s : Block) (p o : Nat) : W32 :=
  let x := port s p
  match o with
  | 0x00 => word [(0, 3, portCode x.st), (3, 1, b2n x.lock), (4, 1, b2n x.alignOk), (5, 1, b2n x.brk), (6, 1, b2n x.reversed),
      (7, 1, b2n (x.txdis || (s.tw.guard && s.tw.role = .active))), (8, 6, x.cellsFound), (16, 6, x.seg.length), (24, 4, x.failCause)]
  | 0x04 => word [(0, 16, x.dFar), (16, 16, x.dFarAlt)]
  | 0x08 => word [(0, 16, x.alignErrMax), (16, 6, x.echoPos)]
  | 0x0C => BitVec.ofNat 32 x.codeErr
  | 0x10 => word [(0, 16, x.slotCrcErr), (16, 16, x.frameCrcErr)]
  | 0x14 => word [(0, 16, x.lockLoss), (16, 16, x.reversals)]
  | 0x18 => word [(0, 16, x.dlyCorr)]
  | _ => 0#32

/-- The largest consecutive-overrun count among the tasks that drive an arm. -/
def armOverruns (s : Block) (a : Nat) : Nat :=
  match sinkTask s a with
  | some t => (task s t).ovrConsec
  | none => 0

/-- Arm status (Tables 2-3, 5-3, 6-7a and 14-9). -/
def readArm (s : Block) (a o : Nat) : W32 :=
  let x := arm s a
  match o with
  | 0x00 => BitVec.ofNat 32 x.latLast
  | 0x04 => BitVec.ofNat 32 x.latMax
  | 0x08 => BitVec.ofNat 32 x.winCycle
  | 0x0C => word [(0, 8, armOverruns s a), (16, 8, x.lateCells), (29, 1, b2n x.cycleTooShort), (30, 1, b2n x.ovrBlock)]
  | 0x10 => word [(0, 16, x.vMeanU), (16, 16, x.vMaxU - x.vMinU)]
  | 0x14 => word [(0, 16, x.vMinU), (16, 16, x.vMaxU)]
  | 0x18 => word [(0, 11, x.nAvail), (11, 11, x.nAvailFB)]
  | 0x1C => word [(0, 11, x.nReserve), (11, 1, b2n x.dir), (12, 1, b2n x.inDb), (13, 1, b2n x.guard), (16, 16, x.selCyc)]
  | 0x20 => x.residue
  | 0x24 => word [(0, 16, x.dtCollapse), (16, 16, x.pulseAdj)]
  | 0x28 => word [(0, 16, x.clampCnt), (16, 8, x.refBad), (24, 1, parN s (0x3000 + a)), (25, 1, b2n x.psc.heldPeriod.isSome),
      (26, 1, b2n x.psc.heldDuty.isSome), (27, 1, b2n x.resSat)]
  | 0x30 => x.psc.period
  | 0x34 => x.psc.duty
  | 0x38 => word [(0, 1, b2n x.sw), (1, 4, x.blockCause), (5, 4, x.deblockRefuse)]
  | _ => 0#32

/-! ### Recorder, measurement, safety, twin and tasks -/

/-- Recorder and buffer directory (Tables 12-8 and 12-9). -/
def readRecorder (s : Block) (off : Nat) : W32 :=
  let r := s.recd
  match off with
  | 0x3800 => word [(0, 3, r.st), (3, 3, r.buf), (6, 1, b2n r.fullWait), (7, 1, b2n r.stopLate), (8, 8, r.armErr), (16, 6, r.errItem)]
  | 0x3804 => BitVec.ofNat 32 r.deadTime
  | 0x3808 => word [(0, 16, r.ignPre), (16, 16, r.captures)]
  | 0x380C => word [(0, 16, r.trg)]
  | _ =>
    let b := (off - 0x3810) / 8
    if 0x3810 ≤ off ∧ off < 0x3850 ∧ off % 8 = 0 ∧ b < recBufs s then
      let x := recBuf s b
      word [(0, 2, x.bstate), (2, 1, b2n x.clamped), (3, 1, b2n x.aborted), (4, 1, b2n x.truncated), (8, 8, x.retFail), (16, 16, x.seq)]
    else 0#32

/-- Cycle-value mirror (Table 11-7). -/
def readInput (s : Block) (k o : Nat) : W32 :=
  let x := ainVal s k
  match o with
  | 0 => x.avg
  | 4 => x.inst
  | 8 => word [(0, 16, x.nConv), (16, 1, b2n x.valid), (17, 1, b2n x.calIn), (18, 1, b2n x.extrap), (19, 1, b2n x.clip),
      (20, 1, b2n x.opened), (21, 1, b2n x.test)]
  | _ => BitVec.ofNat 32 x.cycle

/-- Unit status (Table 11-8). -/
def readUnit (s : Block) (u o : Nat) : W32 :=
  let x := adcUnit s u
  match o with
  | 0 => word [(0, 1, b2n x.refReady), (1, 1, parN s (0x7000 + u)), (2, 1, b2n x.vanaBad), (3, 1, b2n (bgCalOn s u)), (4, 3, x.calState),
      (7, 1, b2n (x.calState = 1)), (8, 1, b2n (calRunning x)), (9, 2, x.outcome), (11, 2, x.cause), (13, 4, x.spare),
      (17, 1, b2n (x.pend.isSome || x.conv.isSome)), (18, 1, b2n (injHeld s u))]
  | 4 => word [(0, 16, x.injLost), (16, 8, x.restarts)]
  | 8 => word [(0, 16, x.skewRes)]
  | 12 => BitVec.ofNat 32 x.injTime
  | _ => x.injVal.getD ((o - 16) / 4) 0#32

/-- Safety status (Table 15-7). -/
def readSafety (s : Block) (off : Nat) : W32 :=
  let x := s.spb
  match off with
  | 0x5000 => word [(0, 3, spbCode x.st), (3, 1, b2n (spbDemands s)), (4, 4, x.soCmd), (8, 4, x.soRb), (12, 4, x.soFault),
      (16, 8, siDemand s), (24, 8, x.siFault)]
  | 0x5004 => word [(0, 8, x.fbState), (8, 8, x.fbFault), (16, 1, b2n x.mpWdLost), (17, 1, b2n x.pwLock), (18, 1, b2n x.logMirrorBad)]
  | 0x5008 => word [(0, 16, x.siContact), (16, 16, x.tpFail)]
  | 0x500C => BitVec.ofNat 32 x.cfgCrc
  | 0x5010 => word [(0, 28, x.logSeq)]
  | 0x5014 => word [(0, 16, x.demandCnt), (16, 16, x.eccCorr)]
  | 0x5018 => word [(0, 16, x.reactLast), (16, 16, x.reactMax)]
  | 0x501C => word [(0, 4, x.cause), (4, 4, x.causeItem)]
  | _ => 0#32

/-- Twin status (Table 16-10). -/
def readTwin (s : Block) (off : Nat) : W32 :=
  let t := s.tw
  match off with
  | 0x6000 => word [(0, 3, roleCode t.role), (3, 1, b2n t.unitB), (4, 3, t.partnerRole), (7, 1, b2n t.partnerAbsent), (8, 2, t.link),
      (10, 1, b2n t.frcLock), (11, 1, b2n t.cfgMatch), (12, 2, t.offCause), (14, 3, t.declCause), (17, 1, b2n t.revertReq),
      (18, 1, b2n (steady s))]
  | 0x6004 => word [(0, 16, holdoffLeft s)]
  | 0x6008 => word [(0, 16, t.dTw), (16, 16, wrapN 16 (clampS 16 t.frcErr))]
  | 0x600C => word [(0, 8, t.relays.length), (8, 8, relayMax s), (16, 8, t.relayRefused)]
  | 0x6010 => word [(0, 16, t.imgBytes), (16, 16, t.imgFixed)]
  | 0x6014 => word [(0, 16, t.imgErr), (16, 16, t.hbMiss)]
  | 0x6018 => word [(0, 16, t.takeovers), (16, 16, t.handovers)]
  | _ => 0#32

/-- Task status (Table 10-10). -/
def readTask (s : Block) (t o : Nat) : W32 :=
  let x := task s t
  match o with
  | 0 => word [(0, 3, taskCode x.st), (3, 1, b2n x.cancelPend), (4, 4, x.outcome), (8, 4, x.core),
      (12, 4, if t < imgTasks s then tPart (img s) t else 0), (16, 8, x.ovrConsec), (24, 8, x.faultCnt)]
  | 4 => BitVec.ofNat 32 x.flags
  | 8 => word [(0, 16, x.ovrCnt), (16, 16, x.runMax)]
  | _ => word [(4, 1, b2n x.cancelRef), (16, 12, x.faultBlk), (28, 4, x.faultCause)]

/-- A word of the MSI-X table. -/
def readMsix (s : Block) (w : Nat) : W32 :=
  if w % 4 = 3 then word [(0, 1, b2n (bitAt s.ev.mask (w / 4)))] else tget 0#32 s.ev.tab w

/-! ### The windows -/

/-- A single aligned read of BAR0 (R627, R628); reserved addresses read 0 (R9). -/
def bar0Read (s : Block) (off : Nat) : W32 :=
  if off % 4 ≠ 0 then 0#32
  else if off < 0x40 then readIdentity s off
  else if off < 0x100 then readGlobal s off
  else if off < 0x800 then readEngines s off
  else if off < 0xA00 then readEvents s off
  else if off < 0x1000 then 0#32
  else if off < 0x1400 then readTime s off
  else if off < 0x2000 then readPower s off
  else if off < 0x3000 then readPort s ((off - 0x2000) / 32) (off % 32)
  else if off < 0x3300 then readArm s ((off - 0x3000) / 64) (off % 64)
  else if off < 0x3400 then 0#32
  else if off < 0x3500 then tget 0#32 s.cyc.setpoints ((off - 0x3400) / 4)
  else if off < 0x4000 then readRecorder s off
  else if off < 0x4400 then readInput s ((off - 0x4000) / 16) (off % 16)
  else if off < 0x4480 then readUnit s ((off - 0x4400) / 32) (off % 32)
  else if off < 0x5000 then 0#32
  else if off < 0x6000 then readSafety s off
  else if off < 0x7000 then readTwin s off
  else if off < 0x8000 then readTask s ((off - 0x7000) / 16) (off % 16)
  else if off < 0x8400 then readMsix s ((off - 0x8000) / 4)
  else if off = 0x8800 then half false s.ev.pba
  else if off = 0x8804 then half true s.ev.pba
  else 0#32

/-- The bytes of the response header and payload (Table 17-6). -/
def respBytes (r : MbxResp) : List W8 :=
  leBytes 2 r.opcode ++ leBytes 2 r.tag ++ leBytes 2 r.payload.length ++ leBytes 1 r.status ++ leBytes 1 r.cls ++
    leBytes 4 r.detail ++ leBytes 4 r.item ++ r.payload

/-- A byte of BAR2: mailboxes, host readback and staging (Table 17-2, R632, R633). -/
def bar2Read (s : Block) (off : Nat) : W8 :=
  if off < 0x8000 then
    let x := mbx s (off / 0x1000)
    let o := off % 0x1000
    if o < 0x800 then tget 0#8 x.area o else (respBytes x.resp).getD (o - 0x800) 0#8
  else if off < 0x8400 then
    BitVec.ofNat 8 ((tget 0#32 s.host.readback ((off - 0x8000) / 4)).toNat / 2 ^ (8 * (off % 4)))
  else if 0x800000 ≤ off ∧ off - 0x800000 < stagingSize then memRead s.mem (stagingBase + (off - 0x800000))
  else 0#8

/-- What the boundary-scan instruction IDCODE reads (R748). -/
def jtagIdCode : W32 := BitVec.ofNat 32 (0x06144A3D + 2 ^ 28 * (Config.revision.toNat % 16))

/-- A byte of BAR4: capture memory as it stands (R466); zeros while its domain is stopped (Table 19-4). That it reads zeros
without power too is the model's choice (log entry 10). -/
def bar4Read (s : Block) (off : Nat) : W8 :=
  let d := 18 + off / 0x800000
  if off < 0x4000000 && !stopped s d && matrixOn s then memRead s.mem (0x10000000 + off) else 0#8

end Sys2Proof.Machine
end

