-- ==== Sys2Proof/Safety.lean ====
section
/-!
DEFINITION. What counts as a safe state and a safe run, in the terms the claims use.
-/

namespace Sys2Proof.Machine

/-- What R660 and R64 ask once a command has acted: every raised source has been evaluated, a vector counts as
outstanding exactly while it has a pending enabled source, and only such vectors hold a message in the PBA. -/
def Block.eventsSettled (b : Block) : Bool :=
  b.ev.raised.length = 0 && b.ev.active = vecActive b && clearMask b.ev.pba b.ev.active = 0

def State.safe (s : State) : Bool := s.toBlock.eventsSettled

/-- The next state in which the block is b and the events that the command raised have been evaluated. -/
def ended (s : State) (b : Block) : State := { s with toBlock := settle b }

/-- Both reset pins are high. -/
abbrev State.live (s : State) : Prop := inReset s.toBlock = false

/-- The request that mailbox m has latched. -/
abbrev State.request (s : State) (m : Nat) : MbxReq := (mbx s.toBlock m).req

/-- Mailbox m holds an accepted request with this opcode, the firmware serves mailboxes, and no command starts before it
(R637). -/
abbrev State.asked (s : State) (m code : Nat) : Prop :=
  s.live ∧ m < 8 ∧ (mbx s.toBlock m).mstate = 1 ∧ (s.request m).opcode = code ∧ fwServes s.toBlock = true ∧
    mbxTurn s.toBlock m = true

/-- The request of mailbox m carries a payload of exactly n bytes. -/
abbrev State.carries (s : State) (m n : Nat) : Prop := (s.request m).len = n ∧ (s.request m).payload.length = n

/-- The block while mailbox m is RUNNING. -/
def State.runs (s : State) (m : Nat) : Block := modMbx m (fun x => { x with mstate := 2 }) s.toBlock

/-- The next state in which the block is b with the command of mailbox m completed. -/
def completed (s : State) (m status detail item : Nat) (payload : List W8) (b : Block) : Host.Outcome State Fault Refusal :=
  .next (ended s (mbxDone m status detail item payload b))

/-- A step stops for no command of the manual. -/
def runsOn (s : State) : Bool := match step s with | .next _ => true | _ => false

end Sys2Proof.Machine
end

