-- ==== Sys2Proof/Certificates/Slice0/Obligations.lean ====
section
/-!
DEFINITION. The statements: what the commands do, what they leave alone, and what every step keeps. `ended s b` is the
next state whose block is b once the events raised have been evaluated.
-/

open Sys2Proof Sys2Proof.Machine

/-! ### Every command and every step -/

/-- A step on a queue with command c in front is exec of c on the state with the queue's rest. -/
def Obligations.step_runs_front : Prop :=
  ∀ (c : Instr) (s : State), step { s with pending := c :: s.pending } = exec c s

/-- On an empty queue, with both reset pins high, a step lets one 2 ns tick of the FRC pass and evaluates events; while
PORST_N is low nothing changes. That an empty queue idles is the model's choice (log entry 2). -/
def Obligations.empty_queue_idles : Prop :=
  ∀ s : State, s.pending = [] →
    (s.rst.porstLow = true → step s = .next s) ∧
    (s.live → step s = .next (ended s { s.toBlock with now := s.now + 8 }))

/-- Whatever a command does, the queue it leaves is the one it was given. -/
def Obligations.exec_keeps_queue : Prop :=
  ∀ (c : Instr) (s t : State), exec c s = .next t → t.pending = s.pending

/-- The spec gives every command an effect, and none of them stops the block: exec answers a next state for all. -/
def Obligations.exec_never_stops : Prop :=
  ∀ (c : Instr) (s : State), ∃ t, exec c s = .next t

/-- While PORST_N or RST_N is low the controller is in reset (R730): every command but those of the reset pins and of
the boundary scan leaves the state as it is (log entry 1). -/
def Obligations.reset_pins_hold_the_block : Prop :=
  ∀ (c : Instr) (s : State), inReset s.toBlock = true →
    (match c with
      | .porstNAssert => False | .porstNRelease _ _ => False | .rstNAssert => False | .rstNRelease _ _ => False
      | .jtagInstruction _ => False | _ => True) →
    exec c s = .next s

/-- A command whose operands name no port, cell, arm, task or other unit of the spec changes nothing. The spec has no such
command: that it changes nothing is the model's choice (log entry 1). -/
def Obligations.ill_formed_commands_change_nothing : Prop :=
  ∀ (c : Instr) (s : State), c.wf = false → exec c s = .next s

/-- R660 and R64 as an invariant of the whole machine: from every state in which no raised source waits, the vectors with an
outstanding message are exactly those with a pending enabled source, and the PBA names only such vectors, every step of
every command, and every idle step, leads to such a state. -/
def Obligations.events_settled_is_invariant : Prop :=
  ∀ s t : State, s.toBlock.eventsSettled = true → step s = .next t → t.toBlock.eventsSettled = true

/-- The invariant of `events_settled_is_invariant` holds after reset, and the memory is in its canonical form. -/
def Obligations.reset_is_settled : Prop :=
  State.reset.toBlock.eventsSettled = true ∧ State.reset.pending = [] ∧ memWf State.reset.mem = true

/-- The evaluation that ends every command (`ended`) leaves every byte of fabric memory, the parameters and the converter model
in force, the host setpoint registers, the cell changes that wait, Tentering, the Governor, Fantails, repetitive controllers and
ramps, the Safe Pulse Block, the graph, station time and the reset unit exactly as the command's own effect left them. -/
def Obligations.command_end_leaves_the_rest : Prop :=
  ∀ (s : State) (b : Block), let t := ended s b
    (∀ a, memRead t.mem a = memRead b.mem a) ∧ t.par = b.par ∧ t.model = b.model ∧ t.cyc = b.cyc ∧ t.changes = b.changes ∧
    t.si = b.si ∧ t.tentNext = b.tentNext ∧ t.gov = b.gov ∧ t.eng = b.eng ∧ t.spb = b.spb ∧ t.graph = b.graph ∧
    t.time = b.time ∧ t.rst = b.rst ∧ t.now = b.now ∧ t.pending = s.pending

/-- Fabric memory: the bytes written read back, every other address reads as before, and equal memories stay equal lists. -/
def Obligations.memory_read_after_write : Prop :=
  ∀ (m : List Host.Cell) (a : Nat) (l : List W8), memWf m = true →
    memWf (memWriteBytes m a l) = true ∧
    (∀ k, (h : k < l.length) → memRead (memWriteBytes m a l) (a + k) = l[k]) ∧
    (∀ i, i < a ∨ a + l.length ≤ i → memRead (memWriteBytes m a l) i = memRead m i) ∧
    (∀ m', memWf m' = true → (∀ i, memRead m' i = memRead m i) → m' = m)

/-! ### The PCI Express function, register accesses, events and doorbells -/

/-- A link loss, a change of D3hot and a change of Bus Master Enable change that bit of the PCI Express function and nothing else
(R625, R626): the converter state, every parameter, every host setpoint and every task are as before. -/
def Obligations.pcie_link_and_power_state_commands : Prop :=
  ∀ s : State, s.live →
    exec .pcieLinkLoss s = .next (ended s { s.toBlock with host := { s.host with pcieUp := false } }) ∧
    (∀ e, exec (.d3hot e) s = .next (ended s { s.toBlock with host := { s.host with d3hot := e } })) ∧
    (∀ on, exec (.busMasterEnable on) s = .next (ended s { s.toBlock with host := { s.host with busMaster := on } }))

/-- R625: mailboxes in ACCEPTED return to IDLE without executing, RUNNING responses are discarded, every event enable, vector
assignment and pending bit is cleared, the MSI-X table takes its reset values, an open staging session closes, and every
firmware-owned DMA chain that touches host memory is aborted; the converter state, parameters, setpoints and tasks stay. That
HOT_RESET and FUNDAMENTAL_RESET do the same and bring the link up in D0 is the model's choice (log entry 27). -/
def Obligations.function_resets_clear_the_host_interface : Prop :=
  ∀ s : State, s.live → ∀ c ∈ ([.functionLevelReset, .hotReset, .fundamentalReset] : List Instr),
    ∃ b : Block, exec c s = .next (ended s b) ∧
      (∀ m, m < 8 → mbx b m = (if (mbx s.toBlock m).mstate = 1 then { mbx s.toBlock m with mstate := 0 }
        else if (mbx s.toBlock m).mstate = 2 then { mbx s.toBlock m with discard := true } else mbx s.toBlock m)) ∧
      b.ev.pend = 0 ∧ b.ev.en = 0 ∧ b.ev.vec = [] ∧ b.ev.mask = 2 ^ 64 - 1 ∧ b.ev.pba = 0 ∧ b.ev.tab = [] ∧
      b.host.session = false ∧ b.host.busMaster = false ∧
      (c ≠ .functionLevelReset → b.host.pcieUp = true ∧ b.host.d3hot = false) ∧
      (∀ k, k < 32 → dmaTouchesHost s.toBlock k = true → (dma b k).st = .idle ∧ (dma b k).outcome = 2) ∧
      (∀ k, dmaTouchesHost s.toBlock k = false → dma b k = dma s.toBlock k) ∧
      b.cyc = s.cyc ∧ b.par = s.par ∧ b.model = s.model ∧ b.cells = s.cells ∧ b.ports = s.ports ∧ b.arms = s.arms ∧
      b.trip = s.trip ∧ b.seq = s.seq ∧ b.dam.tasks = s.dam.tasks ∧ b.mem = s.mem ∧ b.spb = s.spb ∧ b.time = s.time

/-- SETPOINT_WRITE k v in a SOLO or ACTIVE unit writes setpoint register k, which the latch of a later cycle start takes (R65);
in any other role the write is ignored (R631). -/
def Obligations.setpoint_write_and_standby : Prop :=
  ∀ (s : State) (k : Nat) (v : W32), s.live → k < 64 →
    ((s.tw.role = .solo ∨ s.tw.role = .active) →
      ∃ b : Block, exec (.setpointWrite k v) s = .next (ended s b) ∧ tget 0#32 b.cyc.setpoints k = v ∧
        (∀ j, j ≠ k → tget 0#32 b.cyc.setpoints j = tget 0#32 s.cyc.setpoints j) ∧
        b.cyc.setWrites = s.cyc.setWrites ++ [(k, v, s.now)] ∧ b.cyc.latched = s.cyc.latched ∧
        { b with cyc := s.cyc } = s.toBlock) ∧
    (s.tw.role ≠ .solo → s.tw.role ≠ .active → exec (.setpointWrite k v) s = .next (ended s s.toBlock))

/-- EVT_PEND_CLEAR clears the ones of its word except sources raised in the same fabric cycle (R661); EVT_EN_WRITE writes a
word of EVT_EN or four vector assignments; VECTOR_UNMASK unmasks one vector. Messages then follow from R660. -/
def Obligations.event_register_writes : Prop :=
  ∀ s : State, s.live →
    (∀ (w : Nat) (m : W32), w < 8 → ∃ b : Block, exec (.evtPendClear w m) s = .next (ended s b) ∧
      (∀ i, b.ev.pend.testBit i = (s.ev.pend.testBit i &&
        !((decide (32 * w ≤ i) && m.toNat.testBit (i - 32 * w)) &&
          !(decide (s.ev.lastAt = fabric s.now) && s.ev.lastSet.testBit i)))) ∧
      b.ev.en = s.ev.en ∧ b.ev.vec = s.ev.vec ∧ b.ev.mask = s.ev.mask ∧ { b with ev := s.ev } = s.toBlock) ∧
    (∀ (w : Nat) (v : W32), w < 8 → ∃ b : Block, exec (.evtEnWrite false w v) s = .next (ended s b) ∧
      (∀ i, b.ev.en.testBit i =
        if 32 * w ≤ i ∧ i < 32 * w + 32 then v.toNat.testBit (i - 32 * w) else s.ev.en.testBit i) ∧
      b.ev.pend = s.ev.pend ∧ b.ev.vec = s.ev.vec ∧ b.ev.mask = s.ev.mask ∧ { b with ev := s.ev } = s.toBlock) ∧
    (∀ (w : Nat) (v : W32), 8 ≤ w → w < 64 → exec (.evtEnWrite false w v) s = .next (ended s s.toBlock)) ∧
    (∀ (w : Nat) (v : W32), w < 64 → ∃ b : Block, exec (.evtEnWrite true w v) s = .next (ended s b) ∧
      (∀ i, evtVec b i = if i / 4 = w then bits v.toNat (8 * (i % 4)) 6 else evtVec s.toBlock i) ∧
      b.ev.pend = s.ev.pend ∧ b.ev.en = s.ev.en ∧ b.ev.mask = s.ev.mask ∧ { b with ev := s.ev } = s.toBlock) ∧
    (∀ v, v < 64 → ∃ b : Block, exec (.vectorUnmask v) s = .next (ended s b) ∧
      b = { s.toBlock with ev := { s.ev with mask := setBit s.ev.mask v false } } ∧ b.ev.mask.testBit v = false)

/-- R635: RING in IDLE or DONE latches the request and sets ACCEPTED; in ACCEPTED or RUNNING it is only counted. R639: ABORT in
ACCEPTED completes ABORTED, of a FAST command in RUNNING it gives NOT_ABORTABLE, in IDLE or DONE ALREADY_COMPLETE; another
RUNNING command stops at its abort point, once the fabric cycle of the ABORT has passed without its completion. RELEASE returns
DONE to IDLE. -/
def Obligations.mailbox_doorbells : Prop :=
  ∀ (s : State) (m : Nat), s.live → m < 8 → let x := mbx s.toBlock m
    ((x.mstate = 0 ∨ x.mstate = 3) → exec (.mbxRing m) s = .next (ended s (modMbx m (fun y => { y with
      mstate := 1, req := requestOf (areaBytes x 0 0x800), cls := opClass (requestOf (areaBytes x 0 0x800)).opcode,
      resp := {}, abortResult := 0, abortAt := none, progress := 0, accAt := s.now }) s.toBlock))) ∧
    ((x.mstate = 1 ∨ x.mstate = 2) → exec (.mbxRing m) s = .next (ended s (modMbx m (fun y => { y with
      ringIgn := min (y.ringIgn + 1) (2 ^ 16 - 1) }) s.toBlock))) ∧
    (x.mstate = 1 → x.discard = false → ∃ b : Block, exec (.mbxAbort m) s = .next (ended s b) ∧
      (mbx b m).mstate = 3 ∧ (mbx b m).abortResult = 1 ∧ (mbx b m).resp.status = 2 ∧
      (mbx b m).resp.opcode = x.req.opcode ∧ (mbx b m).resp.tag = x.req.tag ∧
      (∀ j, j ≠ m → mbx b j = mbx s.toBlock j) ∧ b.seq = s.seq ∧ b.par = s.par ∧ b.mem = s.mem ∧ b.dam = s.dam) ∧
    (x.mstate = 2 → x.cls = 0 → exec (.mbxAbort m) s = .next (ended s (modMbx m (fun y => { y with abortResult := 3 }) s.toBlock))) ∧
    (x.mstate = 2 → x.cls ≠ 0 → s.host.storing.isSome = true → s.host.waitMbx = m →
      exec (.mbxAbort m) s = .next (ended s (modMbx m (fun y => { y with abortResult := 2 }) s.toBlock))) ∧
    (x.mstate = 2 → x.cls ≠ 0 → x.abortAt = none → s.host.storing = none ∨ s.host.waitMbx ≠ m →
      exec (.mbxAbort m) s = .next (ended s (modMbx m (fun y => { y with abortAt := some s.now }) s.toBlock))) ∧
    (∀ (b : Block) (t : Nat), (mbx b m).mstate = 2 → (mbx b m).discard = false → (mbx b m).abortAt = some t →
      (fabric t < fabric b.now → (mbx (abortSettle m b) m).mstate = 3 ∧ (mbx (abortSettle m b) m).abortResult = 1 ∧
        (mbx (abortSettle m b) m).resp.status = 2) ∧
      (fabric t = fabric b.now → ∀ st d i l, (mbx (mbxDone m st d i l b) m).mstate = 3 ∧
        (mbx (mbxDone m st d i l b) m).abortResult = 2 ∧ (mbx (mbxDone m st d i l b) m).resp.status = st)) ∧
    ((x.mstate = 0 ∨ x.mstate = 3) →
      exec (.mbxAbort m) s = .next (ended s (modMbx m (fun y => { y with abortResult := 2 }) s.toBlock))) ∧
    (x.mstate = 3 → exec (.mbxRelease m) s = .next (ended s (modMbx m (fun y => { y with mstate := 0 }) s.toBlock))) ∧
    (x.mstate ≠ 3 → exec (.mbxRelease m) s = .next (ended s s.toBlock))

/-- A 32-bit write to BAR0 acts as the register map says: some registers are shown, a reserved address ignores the write (R9). BAR2
is bytes of a mailbox's request area, or of the staging area while a session is open and no commit validates (R651). A read of
FRC_LO latches FRC and station time at one tick (R678). SET_GO steps station time unless the port is UNCALIBRATED or SLAVE (R680). -/
def Obligations.register_and_staging_writes : Prop :=
  ∀ s : State, s.live →
    (∀ (k : Nat) (l : List W8), k < 64 → l.length = 4 → exec (.registerWrite 0 (0x3400 + 4 * k) l) s =
      .next (ended s (setpointWriteStep k (BitVec.ofNat 32 (leAt l 0 4)) s.toBlock))) ∧
    (∀ l : List W8, l.length = 4 → exec (.registerWrite 0 0x1034 l) s =
      .next (ended s { s.toBlock with time := { s.time with setLo := BitVec.ofNat 32 (leAt l 0 4) } })) ∧
    (∀ l : List W8, l.length = 4 → exec (.registerWrite 0 0x1038 l) s =
      .next (ended s { s.toBlock with time := { s.time with setHi := BitVec.ofNat 32 (leAt l 0 4) } })) ∧
    (∀ (m : Nat) (l : List W8), m < 8 → l.length = 4 → exec (.registerWrite 0 (0x404 + 16 * m) l) s =
      .next (ended s (doorbellWrite m (BitVec.ofNat 32 (leAt l 0 4)) s.toBlock))) ∧
    (∀ (off : Nat) (l : List W8), (Instr.registerWrite 0 off l).wf = true →
      (l.length ≠ 4 ∨ off % 4 ≠ 0 ∨ (0xA00 ≤ off ∧ off < 0x1000)) → exec (.registerWrite 0 off l) s = .next (ended s s.toBlock)) ∧
    (∀ (off : Nat) (l : List W8), (Instr.stagingWrite off l).wf = true → off + l.length ≤ 0x800000 →
      (s.host.session = true → s.host.committing = false →
        exec (.stagingWrite off l) s = .next (ended s { s.toBlock with mem := memWriteBytes s.mem (0x1800000 + off) l })) ∧
      (s.host.session = false ∨ s.host.committing = true → exec (.stagingWrite off l) s = .next (ended s s.toBlock))) ∧
    (∃ b : Block, exec .frcLoRead s = .next (ended s b) ∧ b.time.latchFrc = s.now / 8 * 8 % 2 ^ 64 ∧
      b.time.latchSt = wrapN 64 (stAt s.time (s.now / 8 * 8)) ∧
      b = { s.toBlock with time := { s.time with latchFrc := b.time.latchFrc, latchSt := b.time.latchSt } }) ∧
    (s.time.state ≠ .uncalibrated → s.time.state ≠ .slave →
      (let v : Int := (s.time.setHi.toNat * 2 ^ 32 + s.time.setLo.toNat : Nat)
       let now1 : TimeSt := { s.time with
         base := v * 2 ^ 32, fB := (s.now / 8 * 8 : Nat),
         stepSeq := (s.time.stepSeq + 1) % 2 ^ 16, timeValid := true, everLocked := false, setRef := false }
       ((∀ r fc, s.time.rateWas = some (r, fc) → fabric fc ≠ fabric s.now) →
         exec .setGo s = .next (ended s { s.toBlock with time := now1 })) ∧
       (∀ r fc, s.time.rateWas = some (r, fc) → fabric fc = fabric s.now →
         exec .setGo s = .next (ended s { s.toBlock with time := { now1 with
           base := (v + ((fc : Int) - (s.now / 8 * 8 : Nat)) * (2 ^ 40 + r) / 2 ^ 42) * 2 ^ 32, fB := fc } })))) ∧
    (s.time.state = .uncalibrated ∨ s.time.state = .slave →
      exec .setGo s = .next (ended s { s.toBlock with time := { s.time with setRef := true } }))

/-! ### Reset, boot and start-up -/

/-- R732: a cold reset keeps only the boot flash: the stored sets, the silicon history and its mirror, the safety area and log,
the boot directory and the fused counter. Everything else takes its reset value. It acts in every state (log entry 1). -/
def Obligations.cold_reset_keeps_only_the_boot_flash : Prop :=
  ∀ s : State, ∃ b : Block, exec .porstNAssert s = .next (ended s b) ∧
    b.rst.porstLow = true ∧ b.rst.rstLow = s.rst.rstLow ∧ b.rst.cause = 1 ∧ b.rst.warmResets = 0 ∧ b.rst.phase = .waiting ∧
    b.now = 0 ∧ b.cyc = {} ∧ b.par = {} ∧ b.model = {} ∧ b.ev = {} ∧ b.cells = [] ∧ b.changes = [] ∧ b.ports = [] ∧
    b.arms = [] ∧ b.trip = {} ∧ b.seq = {} ∧ b.tentNext = [] ∧ b.gov = {} ∧ b.eng = {} ∧ b.adc = {} ∧ b.recd = {} ∧
    b.tw = {} ∧ b.graph = {} ∧ b.dam = {} ∧ b.mem = [] ∧ b.time = {} ∧ b.pwr = {} ∧
    b.host = { slots := s.host.slots } ∧ b.spb.flash = s.spb.flash ∧ b.spb.log = s.spb.log ∧ b.spb.logSeq = s.spb.logSeq ∧
    b.spb.pwLock = s.spb.pwLock ∧ b.spb.st = .startup ∧ b.si.flashTEq = s.si.flashTEq ∧ b.si.mirrorTEq = s.si.mirrorTEq ∧
    b.si.vddSet = 0 ∧ b.rst.prefer = s.rst.prefer ∧ b.rst.versions = s.rst.versions ∧ b.rst.fuse = s.rst.fuse

/-- R732: a warm reset keeps the FRC, B, F_B, RATE and TIME_VALID of station time, every RWS field, a latched KILLED state of the
safety block and the boot flash. R731: an internal warm reset acts as a pulse on RST_N. RESET_CAUSE tells which (Table 17-4). -/
def Obligations.warm_reset_keeps_time_and_flash : Prop :=
  ∀ s : State,
    (s.live → ∀ p ∈ ([(.rstNAssert, 2), (.internalWarmReset true, 3), (.internalWarmReset false, 4)] : List (Instr × Nat)),
      ∃ b : Block, exec p.1 s = .next (ended s b) ∧
      b.rst.cause = p.2 ∧ b.rst.rstLow = decide (p.2 = 2) ∧ b.rst.porstLow = false ∧ b.rst.phase = .waiting ∧
      b.rst.warmResets = min (s.rst.warmResets + 1) (2 ^ 16 - 1) ∧ b.rst.relAt = s.now ∧ b.now = s.now ∧
      b.time = { base := s.time.base, fB := s.time.fB, rate := s.time.rate,
                 stepSeq := s.time.stepSeq, timeValid := s.time.timeValid, everLocked := s.time.everLocked } ∧
      b.host.slots = s.host.slots ∧ b.host.twinId = s.host.twinId ∧ b.host.straps = s.host.straps ∧ b.host.fwReady = false ∧
      b.host.mbx = [] ∧ b.spb.flash = s.spb.flash ∧ b.spb.log = s.spb.log ∧
      (s.spb.st = .killed → b.spb.st = .killed ∧ b.spb.cause = s.spb.cause) ∧ (s.spb.st ≠ .killed → b.spb.st = .startup) ∧
      b.cyc = {} ∧ b.par = {} ∧ b.model = {} ∧ b.ev = {} ∧ b.cells = [] ∧ b.changes = [] ∧ b.ports = [] ∧ b.arms = [] ∧
      b.trip = {} ∧ b.seq = {} ∧ b.gov = {} ∧ b.eng = {} ∧ b.adc = {} ∧ b.graph = {} ∧ b.dam = {} ∧ b.mem = [] ∧ b.pwr = {}) ∧
    (s.rst.porstLow = true → s.rst.rstLow = false →
      exec .rstNAssert s = .next (ended s { s.toBlock with rst := { s.rst with rstLow := true } })) ∧
    (s.rst.rstLow = true → exec .rstNAssert s = .next (ended s s.toBlock))

/-- At the release of a reset pin the straps and TWIN_ID are sampled, a reserved strap sets STRAP_BAD (R735, R574); PORST_N starts
the FRC at 0. EXTEST, CLAMP and HIGHZ act only while PORST_N is low and as BYPASS at any other time (R748). -/
def Obligations.reset_release_samples_the_pins : Prop :=
  ∀ (s : State) (id : Bool) (st : W8),
    (s.rst.porstLow = true → exec (.porstNRelease id st) s = .next (ended s { s.toBlock with
      now := 0, tw := { s.tw with unitB := id }, host := { s.host with twinId := id, straps := st.toNat },
      rst := { s.rst with porstLow := false, jtag := .bypass, relAt := 0,
                          strapBad := decide (64 ≤ st.toNat) || decide (st.toNat / 2 % 4 = 3) } })) ∧
    (s.rst.porstLow = false → exec (.porstNRelease id st) s = .next (ended s s.toBlock)) ∧
    (s.rst.rstLow = true → exec (.rstNRelease id st) s = .next (ended s { s.toBlock with
      tw := { s.tw with unitB := id }, host := { s.host with twinId := id, straps := st.toNat },
      rst := { s.rst with rstLow := false, relAt := s.now,
                          strapBad := decide (64 ≤ st.toNat) || decide (st.toNat / 2 % 4 = 3) } })) ∧
    (s.rst.rstLow = false → exec (.rstNRelease id st) s = .next (ended s s.toBlock)) ∧
    (∀ i ∈ ([.bypass, .idcode, .samplePreload] : List JtagInstr),
      exec (.jtagInstruction i) s = .next (ended s { s.toBlock with rst := { s.rst with jtag := i } })) ∧
    (∀ i ∈ ([.extest, .clamp, .highz] : List JtagInstr), exec (.jtagInstruction i) s =
      .next (ended s { s.toBlock with rst := { s.rst with jtag := if s.rst.porstLow then i else .bypass } })) ∧
    exec (.jtagInstruction .other) s = .next (ended s { s.toBlock with rst := { s.rst with jtag := .bypass } })

/-- R737, R738: at start, 20 ms after the release, the ROM takes the image IMG_SEL names or the directory's preferred one; if it is
rejected it tries the other, except when IMG_SEL names one. With DEBUG_REQ high a challenge is published (R749). With both
directory copies bad and no IMG_SEL the boot fails with DIR_BAD (log entry 20). -/
def Obligations.rom_boot_chooses_an_image : Prop :=
  ∀ (s : State) (f : BootFlash), s.live →
    (s.rst.phase = .waiting → s.rst.retried = false → ∃ b : Block, exec (.start f) s = .next (ended s b) ∧
      b.now = max s.now (s.rst.relAt + 20 * msU) ∧ b.host.pcieUp = true ∧ b.pwr.pllLock = true ∧
      b.rst.mirrorUsed = decide (f.dirPrimary ≠ f.dirMirror) ∧
      (bitAt (strapsOf s.toBlock) 5 = true → b.rst.challenge.isSome = true) ∧
      (bitAt (strapsOf s.toBlock) 5 = false → b.rst.challenge = s.rst.challenge) ∧
      (let n := bits (strapsOf s.toBlock) 1 2
       let k := if n = 1 then 0 else if n = 2 then 1 else s.rst.prefer % 2
       let status := fun j => checkStatus (if j = 0 then f.imageA else f.imageB)
       let good := fun j => (if j = 0 then f.imageA else f.imageB) = .good
       let starts := fun j => b.rst.phase = .starting ∧ b.rst.image = j ∧ b.host.fwSlot = j ∧
         b.host.fwVersion = (if j = 0 then f.fwA else f.fwB)
       if f.dirPrimary = false ∧ f.dirMirror = false ∧ n = 0 then b.rst.phase = .failed ∧ b.rst.bootStatus = 1
       else if good k then starts k
       else if n ≠ 0 then b.rst.phase = .failed ∧ b.rst.bootStatus = status k
       else if good (1 - k) then starts (1 - k)
       else b.rst.phase = .failed ∧ b.rst.bootStatus = status (1 - k))) ∧
    (s.rst.phase ≠ .waiting → exec (.start f) s = .next (ended s s.toBlock))

/-- R739: firmware that does not set FW_READY in time is marked failed and retried once through a warm reset; a second failure is the
boot failure state. R741: start-up ends with FW_READY, RESET_OUT_N high and role WAIT or SOLO. R742: a stored set is committed
without a session. R749: only a signed response to a published challenge opens debug. -/
def Obligations.start_up_ends_or_is_retried : Prop :=
  ∀ s : State, s.live →
    (s.rst.phase = .starting → s.rst.retried = true → ∃ b : Block, exec .fwTimeout s = .next (ended s b) ∧
      b.rst.phase = .failed ∧ b.rst.bootStatus = 4 ∧ b.rst.failed = setBit s.rst.failed s.rst.image true ∧ b.mem = s.mem) ∧
    (s.rst.phase = .starting → s.rst.retried = false → ∃ b : Block, exec .fwTimeout s = .next (ended s b) ∧
      b.rst.phase = .waiting ∧ b.rst.cause = 4 ∧ b.rst.retried = true ∧ b.rst.image = s.rst.image ∧
      b.rst.failed = setBit s.rst.failed s.rst.image true ∧ b.mem = [] ∧ b.par = {} ∧ b.host.slots = s.host.slots) ∧
    (∀ (ms : Nat) (pg : W8) (bad : BitVec 2), s.rst.phase = .starting →
      (∃ b : Block, exec (.startUpEnd ms true pg bad) s = .next (ended s b) ∧ b.rst.phase = .failed ∧ b.rst.bootStatus = 5 ∧
        b.host.fwReady = s.host.fwReady) ∧
      (∃ b : Block, exec (.startUpEnd ms false pg bad) s = .next (ended s b) ∧ b.rst.phase = .up ∧ b.host.fwReady = true ∧
        b.rst.resetOut = true ∧ b.rst.pgFailed = pg.toNat ∧ b.rst.bootTime = (b.now - s.rst.relAt) / msU ∧
        b.now = max s.now (s.rst.relAt + ms * msU) ∧ (b.tw.role = .wait ∨ b.tw.role = .solo) ∧
        b.seq = s.seq ∧ b.par = s.par ∧ b.mem = s.mem)) ∧
    (∀ (bad : BitVec 2) (k : Nat) (c : CfgSet), s.rst.phase = .up → s.seq.state = .await → bitAt (strapsOf s.toBlock) 3 = false →
      s.host.committing = false → k < 2 → (slotOf s.toBlock (1 - k)).seq ≤ (slotOf s.toBlock k).seq →
      (k = 1 → (slotOf s.toBlock 0).seq < (slotOf s.toBlock 1).seq) →
      (slotOf s.toBlock k).set = some c → bad.toNat.testBit k = false →
      (validate { s.toBlock with host := { s.host with
          waitSlot := k
          waitRetry := !((slotOf s.toBlock (1 - k)).set.isSome && !bad.toNat.testBit (1 - k)) } }
        { c with safety := safetyInForce s.toBlock } none).1 = none →
      ∃ b : Block, exec (.autoload bad) s = .next (ended s b) ∧ b.host.committing = true ∧
        b.host.waiting = some { c with safety := safetyInForce s.toBlock } ∧ b.host.waitMbx = 8 ∧ b.host.waitSlot = k ∧
        b.par = s.par ∧ b.seq = s.seq ∧ b.mem = s.mem) ∧
    (∀ bad : BitVec 2, s.rst.phase = .up → s.seq.state = .await → bitAt (strapsOf s.toBlock) 3 = false →
      s.host.committing = false → (slotOf s.toBlock 0).set = none → (slotOf s.toBlock 1).set = none →
      ∃ b : Block, exec (.autoload bad) s = .next (ended s b) ∧ evCfgRejected ∈ b.ev.raised ∧ b.host.waiting = s.host.waiting ∧
        b.host.committing = false ∧ b.seq = s.seq ∧ b.par = s.par) ∧
    (s.rst.challenge.isSome = true → exec (.debugResponse true) s =
      .next (ended s { s.toBlock with rst := { s.rst with debugOpen := true } })) ∧
    (s.rst.challenge = none → exec (.debugResponse true) s = .next (ended s s.toBlock)) ∧
    exec (.debugResponse false) s = .next (ended s s.toBlock)

/-! ### Mailbox commands and the UDP transport -/

/-- R636: the whole response is written and DONE is set; MBX_DONE is raised when NOTIFY was set, and the completion of a LONG
command brings PROGRESS to 1000, which raises MBX_PROGRESS. R639: an ABORT of an earlier fabric cycle stops the command, one of
the same fabric cycle comes too late. R625: a response to a function that was reset is discarded. -/
def Obligations.a_mailbox_completes_with_its_response : Prop :=
  ∀ (b : Block) (m st d it : Nat) (pl : List W8),
    ((mbx b m).mstate = 1 ∨ (mbx b m).mstate = 2 → (mbx b m).discard = false →
      (mbx (mbxDone m st d it pl b) m).mstate = 3 ∧ (mbx (mbxDone m st d it pl b) m).doneAt = b.now ∧
      (abortDue (mbx b m).abortAt b.now = false →
        (mbx (mbxDone m st d it pl b) m).resp = ⟨(mbx b m).req.opcode, (mbx b m).req.tag, st, (mbx b m).cls, d, it, pl⟩) ∧
      (abortDue (mbx b m).abortAt b.now = true →
        (mbx (mbxDone m st d it pl b) m).resp = ⟨(mbx b m).req.opcode, (mbx b m).req.tag, 2, (mbx b m).cls, 0, 0, []⟩) ∧
      (mbx (mbxDone m st d it pl b) m).abortResult = (if (mbx b m).abortAt = none then (mbx b m).abortResult
        else if abortDue (mbx b m).abortAt b.now = true then 1 else 2) ∧
      (mbxDone m st d it pl b).ev.raised = b.ev.raised ++ (if (mbx b m).cls = 2 then [249] else []) ++
        (if (mbx b m).req.flags % 2 = 1 then [248] else []) ∧
      (∀ k, k ≠ m → mbx (mbxDone m st d it pl b) k = mbx b k) ∧
      { mbxDone m st d it pl b with host := b.host, ev := b.ev } = b) ∧
    ((mbx b m).mstate = 1 ∨ (mbx b m).mstate = 2 → (mbx b m).discard = true →
      mbx (mbxDone m st d it pl b) m = { mbx b m with mstate := 0, discard := false, abortAt := none } ∧
      (∀ k, k ≠ m → mbx (mbxDone m st d it pl b) k = mbx b k) ∧ { mbxDone m st d it pl b with host := b.host } = b) ∧
    ((mbx b m).mstate = 0 ∨ (mbx b m).mstate = 3 → mbxDone m st d it pl b = b)

/-- A command of Table 17-8 acts only on a mailbox whose latched request was accepted with its opcode (R635, R641), and that no other precedes (R637); mailbox
execution pauses while the MP restarts (R668). In the boot failure state the ROM answers every other command BAD_OPCODE and
serves IDENTIFY, CFG_OPEN and FW_UPDATE on mailbox 0 (R738). -/
def Obligations.only_an_accepted_request_of_its_opcode_runs : Prop :=
  ∀ (s : State) (m : Nat), s.live → m < 8 →
    ∀ c ∈ ([(0x01, .nop m), (0x02, .identify m), (0x10, .paramRead m), (0x11, .paramWrite m), (0x12, .paramInfo m),
        (0x13, .paramFind m), (0x20, .cfgOpen m), (0x21, .cfgCommit m), (0x22, .cfgClose m), (0x23, .cfgLoad m), (0x24, .cfgInfo m),
        (0x25, .cfgRead m), (0x30, .cellState m), (0x31, .cellStatus m), (0x32, .cellRecordRead m), (0x33, .cellRecordWrite m),
        (0x34, .cellService m), (0x35, .portDark m), (0x36, .ringRejoin m), (0x40, .taskCtrl m), (0x41, .dmaStart m),
        (0x42, .dmaAbort m), (0x43, .dmaStatus m), (0x44, .queueStatus m), (0x45, .queuePost m), (0x50, .spbAck m),
        (0x51, .spbLogRead m), (0x60, .relinquish m), (0x70, .logRead m), (0x71, .selfTest m)] : List (Nat × Instr)),
      ((mbx s.toBlock m).mstate ≠ 1 ∨ (s.request m).opcode ≠ c.1 ∨
        ((s.rst.phase ≠ .up ∨ s.host.fwReady = false ∨ s.host.mpRestarting = true) ∧ s.rst.phase ≠ .failed) ∨ mbxTurn s.toBlock m = false →
        exec c.2 s = .next (ended s s.toBlock)) ∧
      ((mbx s.toBlock m).mstate = 1 → (s.request m).opcode = c.1 → s.rst.phase = .failed → (m ≠ 0 ∨ c.1 ∉ [0x02, 0x20, 0x72]) →
        exec c.2 s = completed s m 4 0 0 [] s.toBlock)

/-- The commands of Table 17-8 that read. A payload of another length completes BAD_LENGTH (R641) and changes nothing. Values
of parameters are those in force (R646). A read of QUEUE_STATUS starts FILL_MAX anew (Table 10-15). The firmware log and the
self-test results are free values (log entry 4); that CFG_INFO lists identity, sequence number and five CRCs for each of three
sets is the model's layout (log entry 8). -/
def Obligations.mailbox_reads_answer_what_is_in_force : Prop :=
  ∀ (s : State) (m : Nat),
    (∀ c ∈ ([(0x01, 0, .nop m), (0x02, 0, .identify m), (0x12, 0, .paramInfo m), (0x20, 0, .cfgOpen m), (0x21, 0, .cfgCommit m),
      (0x22, 0, .cfgClose m), (0x23, 0, .cfgLoad m), (0x24, 0, .cfgInfo m), (0x25, 0, .cfgRead m), (0x30, 0, .cellState m),
      (0x31, 0, .cellStatus m), (0x32, 0, .cellRecordRead m), (0x34, 4, .cellService m), (0x35, 0, .portDark m), (0x36, 0, .ringRejoin m),
      (0x40, 0, .taskCtrl m), (0x41, 8, .dmaStart m), (0x42, 0, .dmaAbort m), (0x43, 0, .dmaStatus m), (0x44, 0, .queueStatus m),
      (0x45, 32, .queuePost m), (0x50, 0, .spbAck m), (0x51, 0, .spbLogRead m), (0x60, 0, .relinquish m), (0x70, 0, .logRead m),
      (0x71, 0, .selfTest m)] : List (Nat × Nat × Instr)),
      s.asked m c.1 → ¬ s.carries m c.2.1 → exec c.2.2 s = completed s m 5 0 0 [] (s.runs m)) ∧
    (s.asked m 0x01 → s.carries m 0 → exec (.nop m) s = completed s m 0 0 0 [] (s.runs m)) ∧
    (s.asked m 0x02 → s.carries m 0 → exec (.identify m) s =
      completed s m 0 0 0 ((upto 5).flatMap fun k => leBytes 4 (identWord s.toBlock k).toNat) (s.runs m)) ∧
    (s.asked m 0x10 → 1 ≤ (s.request m).arg0 → (s.request m).arg0 ≤ 64 → s.carries m (pad4 (2 * (s.request m).arg0)) →
      (∀ k, k < (s.request m).arg0 → (paramRow (leAt (s.request m).payload (2 * k) 2)).isSome = true) →
      exec (.paramRead m) s = completed s m 0 0 0 (itemsUpTo 2032 ((upto (s.request m).arg0).map fun k =>
        itemBytes (leAt (s.request m).payload (2 * k) 2) (valueBytes s.toBlock (leAt (s.request m).payload (2 * k) 2)))) (s.runs m)) ∧
    (s.asked m 0x12 → s.carries m 0 → (∀ w i j, paramRow (s.request m).arg0 = some (w, i, j) → exec (.paramInfo m) s =
      completed s m 0 0 0 (textBytes 64 (paramName w i j) ++ leBytes 4 (infoWord (s.request m).arg0 0).toNat ++
        leBytes 4 (infoMin w (s.request m).arg0).toNat ++ leBytes 4 (infoMax w (s.request m).arg0).toNat ++
        leBytes 4 (paramDefault (s.request m).arg0).toNat ++ textBytes 16 w.unit ++ leBytes 4 (infoWord (s.request m).arg0 3).toNat) (s.runs m)) ∧
      (paramRow (s.request m).arg0 = none → exec (.paramInfo m) s = completed s m 7 0 (s.request m).arg0 [] (s.runs m))) ∧
    (s.asked m 0x13 → 4 ≤ (s.request m).len → (s.request m).len ≤ 64 → (s.request m).len % 4 = 0 →
      (s.request m).payload.length = (s.request m).len → 0#8 ∈ (s.request m).payload →
      exec (.paramFind m) s = (match paramFind (String.ofList (((s.request m).payload.takeWhile (· ≠ 0#8)).map fun b => Char.ofNat b.toNat)) with
        | some i => completed s m 0 0 i [] (s.runs m)
        | none => completed s m 7 0 0 [] (s.runs m))) ∧
    (s.asked m 0x24 → s.carries m 0 → exec (.cfgInfo m) s = completed s m 0 0 0 (setInfo s.host.cfgSeq s.host.setInForce ++
      setInfo (slotOf s.toBlock 0).seq (slotOf s.toBlock 0).set ++ setInfo (slotOf s.toBlock 1).seq (slotOf s.toBlock 1).set) (s.runs m)) ∧
    (s.asked m 0x31 → s.carries m 0 →
      (1 ≤ (s.request m).arg1 → (s.request m).arg1 ≤ 254 → (s.request m).arg0 + (s.request m).arg1 ≤ 6144 →
        exec (.cellStatus m) s = completed s m 0 0 0 ((upto (s.request m).arg1).flatMap fun k =>
          leBytes 1 (cellStateCode (cell s.toBlock ((s.request m).arg0 + k))) ++ leBytes 1 (cell s.toBlock ((s.request m).arg0 + k)).cause ++
          leBytes 2 ((cell s.toBlock ((s.request m).arg0 + k)).vcap.getD 0) ++ leBytes 2 (cell s.toBlock ((s.request m).arg0 + k)).flags ++
          leBytes 2 (cell s.toBlock ((s.request m).arg0 + k)).repErr) (s.runs m)) ∧
      ((s.request m).arg1 = 0 ∨ 254 < (s.request m).arg1 ∨ 6144 < (s.request m).arg0 + (s.request m).arg1 →
        exec (.cellStatus m) s = completed s m 6 0 0 [] (s.runs m))) ∧
    (s.asked m 0x32 → s.carries m 0 →
      (1 ≤ (s.request m).arg1 → (s.request m).arg1 ≤ 84 → (s.request m).arg0 + (s.request m).arg1 ≤ 6144 →
        exec (.cellRecordRead m) s = completed s m 0 0 0 ((upto (s.request m).arg1).flatMap fun k =>
          recordBytes (cell s.toBlock ((s.request m).arg0 + k)).tent) (s.runs m)) ∧
      ((s.request m).arg1 = 0 ∨ 84 < (s.request m).arg1 ∨ 6144 < (s.request m).arg0 + (s.request m).arg1 →
        exec (.cellRecordRead m) s = completed s m 6 0 0 [] (s.runs m))) ∧
    (s.asked m 0x43 → s.carries m 0 → (∀ c, (s.request m).arg0 = c → c < 32 → exec (.dmaStatus m) s = completed s m 0 0 0
        (leBytes 1 (dmaCode (dma s.toBlock c).st) ++ leBytes 1 (dma s.toBlock c).outcome ++ leBytes 1 (dma s.toBlock c).cause ++
         leBytes 1 (dma s.toBlock c).part ++ leBytes 4 (dma s.toBlock c).residual ++ leBytes 8 (dma s.toBlock c).faultAddr ++
         leBytes 8 (dma s.toBlock c).descAddr ++ leBytes 4 (dma s.toBlock c).startsRefused ++ leBytes 4 0) (s.runs m)) ∧
      (32 ≤ (s.request m).arg0 → exec (.dmaStatus m) s = completed s m 6 0 (s.request m).arg0 [] (s.runs m))) ∧
    (s.asked m 0x44 → s.carries m 0 → (∀ q, (s.request m).arg0 = q → q < 64 → exec (.queueStatus m) s = completed s m 0 0 0
        (leBytes 4 ((queue s.toBlock q).fill + 512 * (queue s.toBlock q).fillMax) ++
         leBytes 4 ((queue s.toBlock q).stallCnt + 2 ^ 16 * (queue s.toBlock q).lostCnt))
        (modQueue q (fun x => { x with fillMax := x.fill }) (s.runs m))) ∧
      (64 ≤ (s.request m).arg0 → exec (.queueStatus m) s = completed s m 6 0 (s.request m).arg0 [] (s.runs m))) ∧
    (s.asked m 0x51 → s.carries m 0 → (1 ≤ (s.request m).arg1 → (s.request m).arg1 ≤ 63 → exec (.spbLogRead m) s = completed s m 0 0 0
        ((s.spb.log.filter fun e => decide ((s.request m).arg0 ≤ leAt e 0 4 % 2 ^ 28 ∧
          leAt e 0 4 % 2 ^ 28 < (s.request m).arg0 + (s.request m).arg1)).flatten) (s.runs m)) ∧
      ((s.request m).arg1 = 0 ∨ 63 < (s.request m).arg1 → exec (.spbLogRead m) s = completed s m 6 0 0 [] (s.runs m))) ∧
    (s.asked m 0x70 → s.carries m 0 → exec (.logRead m) s =
      completed s m 0 0 0 (fitPayload (Config.fwLog s.free (s.request m).arg0)) { s.runs m with free := s.free + 1 }) ∧
    (s.asked m 0x71 → s.carries m 0 → exec (.selfTest m) s =
      completed s m 0 0 0 (fitPayload (Config.selfTest s.free)) { s.runs m with free := s.free + 1 })

/-! ### Mailbox commands that act -/

/-- R644: every item is validated before any is applied; on a failure none is applied and the response names the status, the
position and the index of the first failing item. R655: BUSY while a commit is validating or waits. R645, R10: a NEXT CYCLE
scalar waits for the next cycle start, any other scalar is in force at once. -/
def Obligations.param_write_is_all_or_nothing : Prop :=
  ∀ (s : State) (m : Nat), s.asked m 0x11 →
    ((s.request m).arg0 = 0 ∨ 64 < (s.request m).arg0 → exec (.paramWrite m) s = completed s m 6 0 0 [] (s.runs m)) ∧
    (1 ≤ (s.request m).arg0 → (s.request m).arg0 ≤ 64 → s.host.committing = true →
      exec (.paramWrite m) s = completed s m 0xD 0 0 [] (s.runs m)) ∧
    (1 ≤ (s.request m).arg0 → (s.request m).arg0 ≤ 64 → s.host.committing = false →
      ((itemsOf (s.request m).payload).2 ≠ none ∨ (itemsOf (s.request m).payload).1.length ≠ (s.request m).arg0 ∨
        (s.request m).payload.length ≠ (s.request m).len) → exec (.paramWrite m) s = completed s m 5 0 0 [] (s.runs m)) ∧
    (∀ l : List PItem, 1 ≤ (s.request m).arg0 → (s.request m).arg0 ≤ 64 → s.host.committing = false →
      itemsOf (s.request m).payload = (l, none) → l.length = (s.request m).arg0 → (s.request m).payload.length = (s.request m).len →
      (∀ k st, firstBad (s.runs m) l = some (k, st) → st ≠ 0xD →
        exec (.paramWrite m) s = completed s m st k (((l[k]?).map (·.idx)).getD 0) [] (s.runs m)) ∧
      (firstBad (s.runs m) l = none → crossBad (s.runs m) l = true →
        ∀ k, ((upto l.length).find? fun k => crossBad (s.runs m) (l.take (k + 1))) = some k →
        exec (.paramWrite m) s = completed s m 8 k (((l[k]?).map (·.idx)).getD 0) [] (s.runs m)) ∧
      (firstBad (s.runs m) l = none → crossBad (s.runs m) l = false →
        (partnerPresent s.toBlock = false ∨ s.tw.role ≠ .active ∨ ∀ i ∈ l, isBankIdx i.idx = false) →
        exec (.paramWrite m) s = completed s m 0 0 0 []
          (forEach (mapIdx (fun k i => (k, i)) 0 l) (applyWrite m (lastBank l)) (s.runs m)))) ∧
    (∀ (b : Block) (last k : Nat) (i : PItem) (r : PRow) (x y : Nat), isScalar i.idx = true → paramRow i.idx = some (r, x, y) →
      (r.eff = .nextCycle → (applyWrite m last (k, i) b).par = { b.par with
        next := tput i.idx (heldItem i) b.par.next, nextAt := tput i.idx b.now b.par.nextAt
        older := match tfind b.par.next i.idx with
          | some w => if fabric (tget 0 b.par.nextAt i.idx) < fabric b.now then tput i.idx w b.par.older else b.par.older
          | none => b.par.older }) ∧
      (r.eff ≠ .nextCycle → parW (applyWrite m last (k, i) b) i.idx = heldItem i ∧
        (∀ j, j ≠ i.idx → parW (applyWrite m last (k, i) b) j = parW b j) ∧
        (applyWrite m last (k, i) b).par.next = b.par.next))

/-- The mailbox commands on cells and ports. A cell's change and a record take effect at the next cycle start (R36, R492), so
CELL_STATE and CELL_SERVICE complete later. PORT_DARK and the worn or unwatched changes are refused while the arm switches
(R38, R124). The status codes where the spec names none are the model's (log entry 7). -/
def Obligations.cell_and_port_commands_of_the_mailbox : Prop :=
  ∀ (s : State) (m g p : Nat),
    (∀ d, s.asked m 0x30 → s.carries m 0 → (s.request m).arg0 = g → g < 6144 → (cell s.toBlock g).st ≠ .none →
      stateOfCode (s.request m).arg1 = some d →
      (((d = .bypassed ∨ ((cell s.toBlock g).st = .bypassed ∨ (cell s.toBlock g).st = .faulted) ∧ switching s.toBlock (cellArm s.toBlock g) = false ∨
        ((cell s.toBlock g).st = .available ∨ (cell s.toBlock g).st = .reserve) ∧ (cell s.toBlock g).st ≠ d) →
       (d = .bypassed ∨ (cell s.toBlock g).tent.retired = false ∨ (cell s.toBlock g).tent.w < parN s.toBlock (0x90A0 + cellArm s.toBlock g)) →
       (d = .available ∨ (cell s.toBlock g).st ≠ .available ∨ switching s.toBlock (cellArm s.toBlock g) = false ∨
         minAvail s.toBlock (cellArm s.toBlock g) ≤ availAfter s.toBlock g) →
       exec (.cellState m) s = .next (ended s (addChange (.host g d m) (s.runs m)))) ∧
      (d ≠ .bypassed → (cell s.toBlock g).st = d ∨ ((cell s.toBlock g).st = .bypassed ∨ (cell s.toBlock g).st = .faulted) ∧
         switching s.toBlock (cellArm s.toBlock g) = true → exec (.cellState m) s = completed s m 6 0 g [] (s.runs m)) ∧
      (d = .reserve ∨ d = .bypassed → (cell s.toBlock g).st = .available → (d = .bypassed ∨ (cell s.toBlock g).tent.retired = false) →
         switching s.toBlock (cellArm s.toBlock g) = true → availAfter s.toBlock g < minAvail s.toBlock (cellArm s.toBlock g) →
         exec (.cellState m) s = completed s m 0x14 0 g [] (s.runs m)))) ∧
    (s.asked m 0x30 → s.carries m 0 → (s.request m).arg0 = g → 3 ≤ (s.request m).arg1 → exec (.cellState m) s = completed s m 6 0 g [] (s.runs m)) ∧
    (s.asked m 0x33 → (s.request m).arg0 = g → g < 6144 → (cell s.toBlock g).st ≠ .none → s.host.committing = false →
      (switching s.toBlock (cellArm s.toBlock g) = false ∨ (cell s.toBlock g).st = .bypassed ∨ (cell s.toBlock g).st = .faulted) →
      ((s.request m).arg1 = 1 → s.carries m 0 → exec (.cellRecordWrite m) s = completed s m 0 0 0 [] { s.runs m with
        tentNext := s.tentNext ++ [{ cell := g, val := freshRecord s.toBlock g, fresh := true }] }) ∧
      ((s.request m).arg1 = 0 → s.carries m 24 → exec (.cellRecordWrite m) s = completed s m 0 0 0 [] { s.runs m with
        tentNext := s.tentNext ++ [{ cell := g, val := { recordOf (s.request m).payload with
          ceil := min (recordOf (s.request m).payload).ceil (freshRecord s.toBlock g).ceil }, fresh := true }] })) ∧
    (s.asked m 0x34 → s.carries m 4 → (s.request m).arg0 = g → g < 6144 → (cell s.toBlock g).st ≠ .none → (s.request m).arg1 < 512 →
      servingPort s.toBlock g = some p → exec (.cellService m) s = .next (ended s (svcAdd p g (bitAt (s.request m).arg1 8)
        ((s.request m).arg1 % 256) (BitVec.ofNat 32 (le 4 (s.request m).payload)) m (s.runs m)))) ∧
    (s.asked m 0x35 → s.carries m 0 → (s.request m).arg0 = p → p < 128 → portUsed s.toBlock p = true →
      ((s.request m).arg1 ≤ 1 → switching s.toBlock (strArm s.toBlock p) = true →
        exec (.portDark m) s = completed s m 0x12 0 p [] (s.runs m)) ∧
      ((s.request m).arg1 = 1 → switching s.toBlock (strArm s.toBlock p) = false → ∃ b : Block,
        exec (.portDark m) s = completed s m 0 0 0 [] b ∧ (port b p).forced = true ∧ (port b p).st = .dark ∧ (port b p).txdis = true ∧
        b = modPort p (fun x => { x with forced := true }) (enterDark p (portDarkBreak p (s.runs m)))) ∧
      ((s.request m).arg1 = 0 → switching s.toBlock (strArm s.toBlock p) = false → (port s.toBlock p).forced = true →
        bitAt s.rst.pgFailed (p / 16) = false → bitAt s.model.pgStopped (p / 16) = false → exec (.portDark m) s =
          completed s m 0 0 0 [] (enterSeek p (modPort p (fun x => { x with forced := false }) (s.runs m)))) ∧
      ((s.request m).arg1 = 0 → switching s.toBlock (strArm s.toBlock p) = false → (port s.toBlock p).forced = false →
        exec (.portDark m) s = completed s m 0 0 0 [] (s.runs m))) ∧
    (s.asked m 0x36 → s.carries m 0 → (s.request m).arg0 = p →
      (128 ≤ p ∨ portRing s.toBlock p = false → exec (.ringRejoin m) s = completed s m 6 0 p [] (s.runs m)) ∧
      (p < 128 → portRing s.toBlock p = true →
        ((port s.toBlock p).brk = false → exec (.ringRejoin m) s = completed s m 0 0 0 [] (s.runs m)) ∧
        ((port s.toBlock p).brk = true → ringRepaired s.toBlock p = false → exec (.ringRejoin m) s = completed s m 0x1B 0 p [] (s.runs m)) ∧
        ((port s.toBlock p).brk = true → ringRepaired s.toBlock p = true → exec (.ringRejoin m) s = completed s m 0 0 0 []
          (if switching s.toBlock (strArm s.toBlock p) = true then
            modArm (strArm s.toBlock p) (fun x => { x with rejoin := insertNat p x.rejoin }) (s.runs m) else s.runs m))))

/-- The mailbox commands on tasks, channels and queues. A CANCEL of an insertion task of a switching arm is refused (R372); a
DMA_START of a channel that is not IDLE only counts (R384, BUSY); a DMA_ABORT that finds no running chain answers
ALREADY_COMPLETE (R390); QUEUE_POST needs hw_src 3 and room (R378, R641). BAD_ARG for a channel that firmware does not own is
the model's choice (log entry 7). -/
def Obligations.task_channel_and_queue_commands_of_the_mailbox : Prop :=
  ∀ (s : State) (m k : Nat),
    (s.asked m 0x40 → s.carries m 0 → (s.request m).arg0 = k →
      (k < imgTasks s.toBlock → (s.request m).arg1 = 1 → cancelRefused s.toBlock k = false →
        exec (.taskCtrl m) s = completed s m 0 0 0 [] (cancelTask k (s.runs m))) ∧
      (k < imgTasks s.toBlock → (s.request m).arg1 = 1 → cancelRefused s.toBlock k = true →
        exec (.taskCtrl m) s = completed s m 0x12 0 k [] (s.runs m)) ∧
      (k < imgTasks s.toBlock → (s.request m).arg1 = 2 → exec (.taskCtrl m) s = completed s m 0 0 0 [] (rearm false k (s.runs m))) ∧
      (k < imgTasks s.toBlock → (s.request m).arg1 = 3 → exec (.taskCtrl m) s = completed s m 0 0 0 [] (rearm true k (s.runs m))) ∧
      (imgTasks s.toBlock ≤ k ∨ (s.request m).arg1 = 0 ∨ 3 < (s.request m).arg1 →
        exec (.taskCtrl m) s = completed s m 6 0 k [] (s.runs m))) ∧
    (s.asked m 0x41 → s.carries m 8 → (s.request m).arg0 = k →
      (fwOwned s.toBlock k = true → (dma s.toBlock k).st = .idle → exec (.dmaStart m) s = completed s m 0 0 0 []
        (modDma k (fun x => { x with
            st := .running, outcome := 0, cause := 0, part := 0, residual := 0, faultAddr := 0, descAddr := le 8 (s.request m).payload,
            fetching := true, src := 0, dst := 0, count := 0, k := 0, ctrl := 0, next := 0 }) (s.runs m))) ∧
      (fwOwned s.toBlock k = true → (dma s.toBlock k).st ≠ .idle → exec (.dmaStart m) s = completed s m 0xD 0 k []
        (modDma k (fun x => { x with startsRefused := satInc 32 x.startsRefused }) (s.runs m))) ∧
      (fwOwned s.toBlock k = false → exec (.dmaStart m) s = completed s m 6 0 k [] (s.runs m))) ∧
    (s.asked m 0x42 → s.carries m 0 → (s.request m).arg0 = k →
      (fwOwned s.toBlock k = true → (dma s.toBlock k).st = .running → exec (.dmaAbort m) s = completed s m 0 0 0 []
        (modDma k (fun x => { x with
          st := .idle, outcome := 2, residual := if x.fetching then 0 else x.count - x.k, fetching := false,
          aborted := some (s.now, m) }) (s.runs m))) ∧
      (fwOwned s.toBlock k = true → (dma s.toBlock k).st ≠ .running → exec (.dmaAbort m) s = completed s m 1 0 0 [] (s.runs m)) ∧
      (fwOwned s.toBlock k = false → exec (.dmaAbort m) s = completed s m 6 0 k [] (s.runs m))) ∧
    (s.asked m 0x45 → s.carries m 32 → (s.request m).arg0 = k →
      (k < 64 → qSrc s.toBlock k = 3 → ∀ p b, p = ⟨3, m, (upto 8).map fun j => BitVec.ofNat 32 (leAt (s.request m).payload (4 * j) 4)⟩ →
        b = hwRetry k (s.runs m) →
        (queueFull b k = false → exec (.queuePost m) s = completed s m 0 0 0 [] (queueEnter k p b)) ∧
        (∀ y, queueFull b k = true → queueBehind b k 3 = some y →
          exec (.queuePost m) s = completed s m 0 0 0 [] (queueEnter k p (queueYield k y b))) ∧
        (queueFull b k = true → queueBehind b k 3 = none → exec (.queuePost m) s = completed s m 0xD 0 k []
          (queueStalls k (modQueue k (fun x => { x with refused := x.refused ++ [p] }) (queueFresh k b))))) ∧
      (k < 64 → qSrc s.toBlock k ≠ 3 → exec (.queuePost m) s = completed s m 0x1B 0 k [] (s.runs m)) ∧
      (64 ≤ k → exec (.queuePost m) s = completed s m 6 0 k [] (s.runs m)))

/-- CFG_OPEN, CFG_CLOSE, CFG_LOAD, CFG_READ, CFG_COMMIT and CFG_APPLY (R651 to R658). A commit is validated when it is accepted and
its set waits for the commit instant, which CFG_APPLY brings (log entry 8). -/
def Obligations.a_configuration_set_is_staged_checked_and_applied : Prop :=
  ∀ (s : State) (m : Nat),
    (s.asked m 0x20 → s.carries m 0 →
      (s.host.committing = false → (s.host.session = false ∨ s.host.sessionMbx = m ∨ (s.request m).arg0 % 2 = 1) →
        exec (.cfgOpen m) s = completed s m 0 0 0 [] { s.runs m with
          host := { (s.runs m).host with session := true, sessionMbx := m }
          mem := s.mem.filter fun c => !(decide (0x1800000 ≤ c.1 ∧ c.1 < 0x1800000 + 0x800000)) }) ∧
      (s.host.committing = true ∨ (s.host.session = true ∧ s.host.sessionMbx ≠ m ∧ (s.request m).arg0 % 2 = 0) →
        exec (.cfgOpen m) s = completed s m 0xD 0 0 [] (s.runs m))) ∧
    (s.asked m 0x22 → s.carries m 0 →
      (s.host.session = true → s.host.sessionMbx = m → s.host.committing = false → exec (.cfgClose m) s =
        completed s m 0 0 0 [] { s.runs m with host := { (s.runs m).host with session := false } }) ∧
      (s.host.session = true → s.host.sessionMbx = m → s.host.committing = true →
        exec (.cfgClose m) s = completed s m 0xD 0 0 [] (s.runs m)) ∧
      (s.host.session = false ∨ s.host.sessionMbx ≠ m → exec (.cfgClose m) s = completed s m 0xE 0 0 [] (s.runs m))) ∧
    (∀ c : CfgSet, s.host.committing = false → s.host.session = true → s.host.sessionMbx = m →
      (s.asked m 0x23 → s.carries m 0 → (s.request m).arg0 < 2 → (slotOf s.toBlock (s.request m).arg0).set = some c →
        exec (.cfgLoad m) s = completed s m 0 0 0 [] (deliver c (s.runs m))) ∧
      (s.asked m 0x25 → s.carries m 0 → s.host.setInForce = some c →
        exec (.cfgRead m) s = completed s m 0 0 0 [] (deliver c (s.runs m)))) ∧
    (s.host.committing = true → (s.asked m 0x23 → s.carries m 0 → exec (.cfgLoad m) s = completed s m 0xD 0 0 [] (s.runs m)) ∧
      (s.asked m 0x25 → s.carries m 0 → exec (.cfgRead m) s = completed s m 0xD 0 0 [] (s.runs m))) ∧
    (s.asked m 0x21 → s.carries m 0 →
      (s.host.session = false ∨ s.host.sessionMbx ≠ m → exec (.cfgCommit m) s = completed s m 0xE 0 0 [] (s.runs m)) ∧
      (s.host.session = true → s.host.sessionMbx = m → s.host.committing = false →
        exec (.cfgCommit m) s = match firstFail [checkFormat (s.runs m), checkCrc (s.runs m)] with
          | some f => completed s m 0xF (f.code + 256 * f.row) f.item [] (zeroPasswords (raise 1 { s.runs m with
              host := { (s.runs m).host with committing := false, waiting := none } }))
          | none =>
            if (!isActive s.toBlock && !sameButSafety (s.runs m) (stagedSet (s.runs m))) = true then
              completed s m 0xC 0 0 [] (zeroPasswords (s.runs m))
            else match validate (s.runs m) (stagedSet (s.runs m)) (some (secBytes (s.runs m) 5)) with
            | (some f, wrong) => completed s m 0xF (f.code + 256 * f.row) f.item []
                (rejected (if wrong then wrongPassword (s.runs m) else s.runs m))
            | (none, wrong) =>
              if (s.request m).arg0 % 2 = 1 then completed s m 0 0 0
                (commitRecord false false 0 0 0 (if wrong then wrongPassword (s.runs m) else s.runs m))
                (zeroPasswords (if wrong then wrongPassword (s.runs m) else s.runs m))
              else .next (ended s (zeroPasswords { (if wrong then wrongPassword (s.runs m) else s.runs m) with
                host := { (s.runs m).host with
                  committing := true, waiting := some (stagedSet (s.runs m)), waitMbx := m, waitState := s.seq.state,
                  waitSafe := safetyChanged (if wrong then wrongPassword (s.runs m) else s.runs m) (stagedSet (s.runs m))
                    (leAt (secBytes (s.runs m) 5) 9 1) } })))) ∧
    (∀ ok : Bool, s.live →
      (s.host.waiting = none → exec (.cfgApply ok) s = .next (ended s s.toBlock)) ∧
      (∀ c b0 b1, s.host.waiting = some c → b0 = atTime (nextStart s.toBlock).1 s.toBlock →
        b1 = raise evCfgCommitted (commitApply c s.host.waitSafe b0) →
        (s.host.waitMbx ≠ 8 → abortDue (mbx s.toBlock s.host.waitMbx).abortAt b0.now = true →
          exec (.cfgApply ok) s = .next (ended s (abortSettle s.host.waitMbx b0))) ∧
        (s.host.waitMbx ≠ 8 → abortDue (mbx s.toBlock s.host.waitMbx).abortAt b0.now = false →
          (∀ f, s.seq.state ≠ s.host.waitState → checkState b0 c s.host.waitSafe = some f →
            exec (.cfgApply ok) s = completed s s.host.waitMbx 0xF (f.code + 256 * f.row) f.item [] (rejected b0)) ∧
          (s.seq.state = s.host.waitState ∨ checkState b0 c s.host.waitSafe = none →
            exec (.cfgApply ok) s = .next (ended s { b1 with host := { b1.host with waiting := none, storing := some ⟨b1.now, nextIndex b1 (nextStart b1).1 (nextStart b1).2, appliedMask b0 c s.host.waitSafe, ok⟩ } }))) ∧
        (s.host.waitMbx = 8 → s.seq.state = s.host.waitState → exec (.cfgApply ok) s = .next (ended s (autoloadRole { b1 with host :=
          { b1.host with cfgSeq := (slotOf b1 b1.host.waitSlot).seq, committing := false, waiting := none } }))))) ∧
    (∀ (b : Block) (x : Storing) (c : CfgSet) (k : Nat), b.host.storing = some x → b.host.setInForce = some c →
      k = (if (slotOf b 0).seq ≤ (slotOf b 1).seq then 0 else 1) →
      (fabric b.now ≤ fabric x.at_ ∨ b.host.mpRestarting = true → storeSettle b = b) ∧
      (fabric x.at_ < fabric b.now → b.host.mpRestarting = false → ∃ d : Block,
        (b.host.waitMbx < 8 → storeSettle b = mbxDone b.host.waitMbx 0 0 0 (commitRecord true x.flashOk k x.mask x.index d) d) ∧
        (8 ≤ b.host.waitMbx → storeSettle b = d) ∧
        d.host.committing = false ∧ d.host.session = false ∧ d.host.storing = none ∧
        d.host.cfgSeq = max (slotOf b 0).seq (slotOf b 1).seq + 1 ∧
        (x.flashOk = true → d.ev = b.ev ∧
          d.host.slots = tput k { seq := max (slotOf b 0).seq (slotOf b 1).seq + 1, set := some { c with newPw := [] } } b.host.slots) ∧
        (x.flashOk = false → d.host.slots = b.host.slots ∧ d.ev.raised = b.ev.raised ++ [evCfgStoreFail]) ∧
        { d with host := b.host, ev := b.ev } = b))

/-- A mailbox acknowledgement is refused while MP_WD_LOST (R554). An MP restart completes running commands MP_RESTARTED and keeps
accepted ones (R640); DETAIL 1 for the commands whose effect the model cannot bound, and requests kept through a restart, are the
model's (log entry 7). -/
def Obligations.safety_twin_firmware_and_udp_commands : Prop :=
  ∀ (s : State) (m : Nat),
    (s.asked m 0x50 → s.carries m 0 →
      (s.spb.mpWdLost = true → exec (.spbAck m) s = completed s m 0x1B 0 0 [] (s.runs m)) ∧
      (s.spb.mpWdLost = false → ∀ st c i b, spbAck (s.runs m) = (st, c, i, b) → exec (.spbAck m) s =
        completed s m st (if st = 0 then 0 else c) i [] (modSpb (fun x => { x with ackBy := some (b.now, m) }) b))) ∧
    (s.asked m 0x60 → s.carries m 0 →
      (s.tw.role ≠ .solo → s.tw.role ≠ .active → exec (.relinquish m) s = completed s m 0xC 0 0 [] (s.runs m)) ∧
      (s.tw.role = .solo ∨ (s.tw.role = .active ∧ (partnerEligible s.toBlock = false ∨ s.seq.state = .energize ∨ s.seq.state = .discharge ∨
        s.tw.declAt.isSome = true ∨ s.tw.granted = true)) → exec (.relinquish m) s = completed s m 0x1B 0 0 [] (s.runs m)) ∧
      (s.tw.role = .active → partnerEligible s.toBlock = true → s.seq.state ≠ .energize → s.seq.state ≠ .discharge →
        s.tw.declAt = none → s.tw.granted = false → exec (.relinquish m) s = completed s m 0 0 0 [] (declare 5 (s.runs m)))) ∧
    (∀ ok v, s.asked m 0x72 → s.carries m 0 →
      (s.host.session = false ∨ s.host.sessionMbx ≠ m → exec (.fwUpdate m ok v) s = completed s m 0xE 0 0 [] (s.runs m)) ∧
      (s.host.session = true → s.host.sessionMbx = m → s.host.committing = true →
        exec (.fwUpdate m ok v) s = completed s m 0xD 0 0 [] (s.runs m)) ∧
      (s.host.session = true → s.host.sessionMbx = m → s.host.committing = false →
        exec (.fwUpdate m ok v) s = if ok then completed s m 0 0 0 [] { s.runs m with
          rst := { s.rst with prefer := 1 - s.host.fwSlot, versions := tput (1 - s.host.fwSlot) v s.rst.versions } }
          else completed s m 0x19 0 0 [] (s.runs m))) ∧
    (∀ (p : Nat) (addr : W32) (l : List W8), s.live → p < 2 →
      (parB s.toBlock 0xD000 = false → exec (.udpRequest p addr l) s = .next (ended s s.toBlock)) ∧
      (parB s.toBlock 0xD000 = true → (parN s.toBlock 0xD002 = 0 ∨ parN s.toBlock 0xD002 = p + 1) → parN s.toBlock (0xD008 + p) ≠ 0 →
        16 ≤ l.length → l.length ≤ 1456 → s.rst.phase = .up →
        addr.toNat &&& parN s.toBlock 0xD004 = parN s.toBlock 0xD003 &&& parN s.toBlock 0xD004 →
        (4 ≤ s.host.udpWait.length → exec (.udpRequest p addr l) s = .next (ended s (raise evUdpDrop s.toBlock))) ∧
        (s.host.udpWait = [] → s.host.fwReady = true → s.host.mpRestarting = false → udpTurn s.toBlock s.now = true →
          exec (.udpRequest p addr l) s = .next (ended s (udpRun (requestOf l) s.toBlock)) ∧
          (leAt l 0 2 ∉ udpOps → exec (.udpRequest p addr l) s = .next (ended s { s.toBlock with host := { s.host with
            udpReply := some ⟨leAt l 0 2, leAt l 2 2, 0x1A, 1, 0, 0, []⟩ } }))) ∧
        (s.host.udpWait.length < 4 → (s.host.udpWait ≠ [] ∨ s.host.fwReady = false ∨ s.host.mpRestarting = true ∨ udpTurn s.toBlock s.now = false) →
          exec (.udpRequest p addr l) s =
            .next (ended s { s.toBlock with host := { s.host with udpWait := s.host.udpWait ++ [(s.now, requestOf l)] } })))) ∧
    (∀ load, s.live → load ≤ 1000 → ∃ b : Block, exec (.mpLoad load) s = .next (ended s b) ∧ b.host.mpLoad = load ∧
      b.host.mpLoadMax = max load s.host.mpLoadMax ∧
      b.host.loadHigh = (if 900 < load then min (s.host.loadHigh + 1) 10 else 0) ∧
      b.host.loadLow = (if load < 800 then min (s.host.loadLow + 1) 10 else 0) ∧
      b.host.mpOverload = (if s.host.mpOverload then !decide (load < 800 ∧ 9 ≤ s.host.loadLow) else decide (900 < load ∧ 9 ≤ s.host.loadHigh)) ∧
      b.ev.raised = s.ev.raised ++ (if s.host.mpOverload = false ∧ 900 < load ∧ 9 ≤ s.host.loadHigh then [250] else []) ∧
      { b with host := s.host, ev := s.ev } = s.toBlock) ∧
    (s.live → s.rst.phase = .up → s.host.mpRestarting = false → ∃ b : Block, exec .mpRestart s = .next (ended s b) ∧
      b.host.mpRestarting = true ∧ b.host.fwReady = false ∧ b.host.mpRestarts = satInc 16 s.host.mpRestarts ∧
      (∀ k, k < 8 → (mbx s.toBlock k).mstate ≠ 2 → mbx b k = mbx s.toBlock k) ∧
      (∀ k, k < 8 → (mbx s.toBlock k).mstate = 2 → (mbx s.toBlock k).discard = false → (mbx b k).mstate = 3 ∧
        (abortDue (mbx s.toBlock k).abortAt s.now = false →
          (mbx b k).resp = ⟨(s.request k).opcode, (s.request k).tag, 3, (mbx s.toBlock k).cls, restartDetail s.toBlock k, 0, []⟩)) ∧
      251 ∈ b.ev.raised ∧ b.par = s.par ∧ b.cells = s.cells ∧ b.arms = s.arms ∧ b.seq = s.seq ∧ b.dam = s.dam ∧ b.spb = s.spb) ∧
    (s.live → (s.host.mpRestarting = true → ∃ b : Block, exec .mpRestartDone s = .next (ended s b) ∧
        b = bgResume (ptpResume { s.toBlock with host := { s.host with mpRestarting := false, fwReady := true } })) ∧
      (s.host.mpRestarting = false → exec .mpRestartDone s = .next (ended s s.toBlock)))

/-! ### The measurement units and the window comparators -/

/-- Chapter 11: REF_READY and its loss, VANA_BAD, the foreground calibration with its refusals and ends, and the rotation of the
spare slice every 2 ms. Everything outside the unit, the stored conversions and the events is as before. -/
def Obligations.adc_reference_and_calibration_commands : Prop :=
  ∀ (s : State) (u : Nat), s.live → u < 4 →
    (∀ t, t = max s.now ((adcUnit s.toBlock u).refFell + 4 * msU) →
      (adcUnit s.toBlock u).on = true → (adcUnit s.toBlock u).refReady = false → ∃ b : Block,
      exec (.refReady u) s = .next (ended s b) ∧ adcUnit b u = { adcUnit s.toBlock u with
        refReady := true, refAt := t, calDone := none,
        calState := if (adcUnit s.toBlock u).pend.isSome || (adcUnit s.toBlock u).conv.isSome then 1 else 2,
        calAt := t, calHeld := false, restarts := 0 } ∧ b.now = t ∧
      (∀ v, v ≠ u → adcUnit b v = adcUnit s.toBlock v) ∧ b.ev.raised = s.ev.raised ++ [96] ∧
      { b with adc := s.adc, ev := s.ev, now := s.now } = s.toBlock) ∧
    ((adcUnit s.toBlock u).on = false ∨ (adcUnit s.toBlock u).refReady = true → exec (.refReady u) s = .next (ended s s.toBlock)) ∧
    ((adcUnit s.toBlock u).refReady = true → ∃ b : Block, exec (.adcRefFault u) s = .next (ended s b) ∧
      ((adcUnit s.toBlock u).calState = 0 →
        b = raise 97 (modUnit u (fun x => { x with refReady := false, refFell := s.now }) s.toBlock)) ∧
      ((adcUnit s.toBlock u).calState ≠ 0 → adcUnit b u = { adcUnit s.toBlock u with
          refReady := false, refFell := s.now, calState := 0, calHeld := false, outcome := 2, cause := 3, calDone := none } ∧
        b.ev.raised = s.ev.raised ++ [97, 99]) ∧
      (∀ v, v ≠ u → adcUnit b v = adcUnit s.toBlock v) ∧ { b with adc := s.adc, ev := s.ev } = s.toBlock) ∧
    ((adcUnit s.toBlock u).refReady = false → exec (.adcRefFault u) s = .next (ended s s.toBlock)) ∧
    exec (.vanaBad u) s = .next (ended s (modUnit u (fun x => { x with vanaBad := true }) s.toBlock)) ∧
    exec (.vanaReturn u) s = .next (ended s (modUnit u (fun x => { x with vanaBad := false }) s.toBlock)) ∧
    (s.seq.state = .energize ∨ s.seq.state = .run ∨ s.seq.state = .discharge ∨ (adcUnit s.toBlock u).refReady = false ∨
      (adcUnit s.toBlock u).calState ≠ 0 → exec (.calStart u) s = .next (ended s s.toBlock)) ∧
    (s.seq.state ≠ .energize → s.seq.state ≠ .run → s.seq.state ≠ .discharge → (adcUnit s.toBlock u).refReady = true →
      (adcUnit s.toBlock u).calState = 0 → exec (.calStart u) s = .next (ended s (modUnit u (fun x => { x with
        calState := if x.pend.isSome || x.conv.isSome then 1 else 2, calAt := s.now, calHeld := false, restarts := 0 }) s.toBlock))) ∧
    ((adcUnit s.toBlock u).calState = 0 ∨ verifyEnds (adcUnit s.toBlock u) s.now = true →
      exec (.calAbort u) s = .next (ended s s.toBlock)) ∧
    ((adcUnit s.toBlock u).calState ≠ 0 → verifyEnds (adcUnit s.toBlock u) s.now = false → ∃ b : Block, exec (.calAbort u) s = .next (ended s b) ∧
      adcUnit b u = { adcUnit s.toBlock u with calState := 0, calHeld := false, outcome := 3, cause := 0, calDone := none } ∧
      (∀ v, v ≠ u → adcUnit b v = adcUnit s.toBlock v) ∧ b.ev.raised = s.ev.raised ++ [100] ∧
      { b with adc := s.adc, ev := s.ev } = s.toBlock) ∧
    (∀ pass : Bool, 2 ≤ (adcUnit s.toBlock u).calState → (adcUnit s.toBlock u).calHeld = false →
      ((adcUnit s.toBlock u).calState ≠ 7 → exec (.calStateEnd u pass) s = .next (ended s (modUnit u (fun x => { x with
        calState := x.calState + 1
        calAt := max s.now ((adcUnit s.toBlock u).calAt + calTime (adcUnit s.toBlock u).calState) })
          { s.toBlock with now := max s.now ((adcUnit s.toBlock u).calAt + calTime (adcUnit s.toBlock u).calState) }))) ∧
      ((adcUnit s.toBlock u).calState = 7 → ∃ b : Block, exec (.calStateEnd u pass) s = .next (ended s b) ∧
        adcUnit b u = { adcUnit s.toBlock u with
          calState := 0, calHeld := false, outcome := if pass then 1 else 2, cause := if pass then 0 else 1,
          calDone := if pass then some (max s.now ((adcUnit s.toBlock u).calAt + 8000)) else none } ∧
        b.ev.raised = s.ev.raised ++ [if pass then 98 else 99] ∧
        { b with adc := s.adc, ev := s.ev, now := s.now } = s.toBlock)) ∧
    (∀ (pass : Bool) skew, ((adcUnit s.toBlock u).calState < 2 ∨ (adcUnit s.toBlock u).calHeld = true →
        exec (.calStateEnd u pass) s = .next (ended s s.toBlock)) ∧
      (skew < 65536 → bgCalOn s.toBlock u = true → exec (.spareSliceRotation u skew) s = .next (ended s (modUnit u (fun x => { x with
        spare := (x.spare + 1) % 9, rotAt := max s.now ((adcUnit s.toBlock u).rotAt + 8000000), skewRes := skew })
          { s.toBlock with now := max s.now ((adcUnit s.toBlock u).rotAt + 8000000) }))) ∧
      (skew < 65536 → bgCalOn s.toBlock u = false → exec (.spareSliceRotation u skew) s = .next (ended s s.toBlock)))

/-- Chapter 11: what the arrival of a conversion, a stream sample, a trigger, a group's first slot and a comparator's crossing do.
The recorder sees the same sample (recRaw, recGap, recStream are the recorder's view of it). -/
def Obligations.conversions_streams_groups_and_comparators : Prop :=
  ∀ s : State, s.live →
    (∀ (u slot : Nat) (code : Int), u < 4 → (adcUnit s.toBlock u).on = true → stopped s.toBlock (26 + u) = false → s.cyc.started = true → s.cyc.t0 - s.cyc.lastLen ≤ slot →
      (slot + 20 * tcU s.toBlock - s.cyc.t0) % 20 = 0 →
      ((adcUnit s.toBlock u).conv = none → (adcUnit s.toBlock u).calState < 2 →
        (∀ c ∈ (ainVal s.toBlock (slotInput s.toBlock u slot)).convs, c.1 < slot) →
        exec (.adcConversion u slot code) s = .next (ended s (recRaw (slotInput s.toBlock u slot) slot code
          (modIn (slotInput s.toBlock u slot) (fun y => { y with
            convs := trimConvs (s.cyc.t0 - s.cyc.lastLen) y.convs ++ [(slot, code)] })
            { s.toBlock with now := max s.now (slot + 320) })))) ∧
      (∀ c, (adcUnit s.toBlock u).conv = some c → slot = c.slot + 20 * c.codes.length →
        (c.codes.length + 1 < c.inputs.length → exec (.adcConversion u slot code) s = .next (ended s
          (recGap (slotInput s.toBlock u slot) slot (modUnit u (fun x => { x with conv := some { c with codes := c.codes ++ [code] } })
            { s.toBlock with now := max s.now (slot + 320) })))) ∧
        (c.codes.length + 1 = c.inputs.length → exec (.adcConversion u slot code) s = .next (ended s
          (recGap (slotInput s.toBlock u slot) slot (injDone u { c with codes := c.codes ++ [code] }
            { s.toBlock with now := max s.now (slot + 320) })))))) ∧
    (∀ k i, k < 64 → i < s.cyc.n → i < 128 → inSeq s.toBlock k = true → stopped s.toBlock (26 + unitOf k) = false → s.cyc.started = true →
      ∃ b : Block, (∃ b', exec (.adcStreamSample k i) s = .next (ended s b') ∧ (b' = b ∨
          b' = recStream k i (streamLast b k) (s.cyc.t0 + 2000 * i) b)) ∧ b.now = max s.now (s.cyc.t0 + 2000 * i) ∧
        tget [] b.adc.stream k = ((tget [] s.adc.stream k).filter fun p => decide (s.cyc.t0 - s.cyc.lastLen ≤ p.1)) ++
          [(s.cyc.t0 + 2000 * i, if 2 ≤ (adcUnit s.toBlock (unitOf k)).calState then streamLast s.toBlock k
            else (instAt k (ainVal s.toBlock k) (s.cyc.t0 + 2000 * i)).1)] ∧
        (∀ j, j ≠ k → tget [] b.adc.stream j = tget [] s.adc.stream j) ∧ { b with adc := s.adc, now := s.now } = s.toBlock) ∧
    (∀ u, u < 4 → ((adcUnit s.toBlock u).pend = none → exec (.injGroupStart u) s = .next (ended s s.toBlock)) ∧
      (∀ p, (adcUnit s.toBlock u).pend = some p → exec (.injGroupStart u) s = .next (ended s (modUnit u (fun x => { x with
        pend := none, calHeld := calRunning x,
        conv := some ⟨p.slot, p.trig, injInputs s.toBlock u, s.cyc.index, calRunning x, []⟩ })
          { s.toBlock with now := max s.now p.slot })))) ∧
    (∀ u, u < 4 → (injTrig s.toBlock u ≠ 1 ∨ injInputs s.toBlock u = [] ∨ (adcUnit s.toBlock u).on = false →
        exec (.injGo u) s = .next (ended s s.toBlock)) ∧
      (injTrig s.toBlock u = 1 → injInputs s.toBlock u ≠ [] → (adcUnit s.toBlock u).on = true →
        ((adcUnit s.toBlock u).pend.isSome = true ∨ (adcUnit s.toBlock u).conv.isSome = true ∨ injHeld s.toBlock u = true ∨
          (adcUnit s.toBlock u).refReady = false → exec (.injGo u) s = .next (ended s
            (raise 102 (modUnit u (fun x => { x with injLost := satInc 16 x.injLost }) s.toBlock)))) ∧
        ((adcUnit s.toBlock u).pend = none → (adcUnit s.toBlock u).conv = none → injHeld s.toBlock u = false →
          (adcUnit s.toBlock u).refReady = true → exec (.injGo u) s = .next (ended s (modUnit u (fun x => { x with
            pend := some ⟨slotAfter s.toBlock (s.now + 40), 1, none⟩ }) s.toBlock))))) ∧
    (∀ j v, j < 16 → (cmpP s.toBlock j 0 = 0#32 → exec (.cmpInputCross j v) s = .next (ended s s.toBlock)) ∧
      (cmpP s.toBlock j 0 ≠ 0#32 → ∀ l1 l2 : Bool,
        l1 = levelHolds (tget {} s.adc.cmps j : CmpSt).l1.isSome (cmpThr s.toBlock j 2) (cmpThr s.toBlock j 3) (cmpHyst s.toBlock j) v →
        l2 = levelHolds (tget {} s.adc.cmps j : CmpSt).l2 (cmpThr s.toBlock j 4) (cmpThr s.toBlock j 5) (cmpHyst s.toBlock j) v →
        exec (.cmpInputCross j v) s = .next (ended s (cmpDrive j (setCmp j
          ⟨if l1 then ((tget {} s.adc.cmps j : CmpSt).l1 <|> some s.now) else none,
            l1 && ((tget {} s.adc.cmps j : CmpSt).l1Out || decide (cmpP s.toBlock j 7 = 0#32)), l2⟩ s.toBlock))))) ∧
    (∀ j t, j < 16 → (tget {} s.adc.cmps j : CmpSt).l1 = some t → (tget {} s.adc.cmps j : CmpSt).l1Out = false →
      cmpP s.toBlock j 0 ≠ 0#32 → exec (.cmpLevel1 j) s = .next (ended s (cmpDrive j (setCmp j
        { (tget {} s.adc.cmps j : CmpSt) with l1Out := true }
        { s.toBlock with now := max s.now (t + parDur s.toBlock (0x7407 + 16 * j) 4000) }))))

/-! ### Cycles, reports, windows and trips -/

/-- R48 and R65. The order of the work of one cycle start, and that CYC_START takes the next t0, are the model's (log entry 3). -/
def Obligations.cycle_starts_meet_the_rhythm : Prop :=
  (∀ n phase x : Nat, 1 ≤ n → x ≤ nextOn n phase x ∧ nextOn n phase x < x + 2000 * n ∧
    ((nextOn n phase x : Int) - 8 * phase) % (2000 * n) = 0) ∧
  (∀ b : Block, b.cyc.newRhythm = none → b.cyc.started = true →
    (beginCycle b).cyc.t0 = nextOn b.cyc.n b.cyc.phase (max b.now (b.cyc.t0 + 1)) ∧ (beginCycle b).now = max b.now (beginCycle b).cyc.t0 ∧
    (beginCycle b).cyc.n = b.cyc.n ∧ (beginCycle b).cyc.phase = b.cyc.phase ∧ (beginCycle b).cyc.started = true) ∧
  (∀ b : Block, isActive b = true → (latchSetpoints b).cyc.setWrites = b.cyc.setWrites.filter (fun w => !decide (fabric w.2.2 < fabric b.cyc.t0)) ∧
    (∀ k, (∀ w ∈ b.cyc.setWrites, w.1 = k → ¬ fabric w.2.2 < fabric b.cyc.t0) →
      tget 0#32 (latchSetpoints b).cyc.latched k = tget 0#32 b.cyc.latched k) ∧
    (∀ l r k v u, b.cyc.setWrites = l ++ (k, v, u) :: r → fabric u < fabric b.cyc.t0 →
      (∀ w ∈ r, w.1 = k → ¬ fabric w.2.2 < fabric b.cyc.t0) → tget 0#32 (latchSetpoints b).cyc.latched k = v)) ∧
  (∀ (s : State) (smp : List (Nat × F32 × Bool)), s.live →
    (s.rst.phase ≠ .up → exec (.cycStart smp) s = .next (ended s s.toBlock)) ∧
    (s.rst.phase = .up → ∀ b, b = beginCycle (keepCurrents s.toBlock) →
      ((b.pwr.state = .doze ∨ b.pwr.state = .off) → exec (.cycStart smp) s =
        .next (ended s (sendHb (pwrCycle { applyNext (latchSetpoints b) with time := { b.time with t0St := stNow b } })))) ∧
      (b.pwr.state ≠ .doze → b.pwr.state ≠ .off → ∀ q, q = lateDeadlines s.cyc.t0 (modTw (fun t => { t with quiet := false, waitImage := false }) b) →
        ∀ u, u = cellChanges (perCycle (tentTakesEffect (queueCeilings (rpcItems (bgCommit
            (applyNext (latchSetpoints (chargeAccumulate (sampleOf smp) s.cyc.t0 q.cyc.t0 q)))))))) →
        ∀ v, v = forEach (enabledArms u) deblockEffect u →
        ∀ c, c = tooShort (rejoinRings (portsReturn (dischargeCheck (roleUnreliable (if b.tw.quiet then handoverDeblocks v else v))))) →
        ∀ e, e = (if stopped c 5 = true then c else rampItems c.eng.ramp (enginesCycle (sampleOf smp) c)) →
        ∀ d, d = cycleFrames (twinCycle (recCycle (adcCycle
            (if (stopped e 5 || decide (e.pwr.state = .hold)) = true then e else governorCycle e)))) →
        exec (.cycStart smp) s = .next (ended s (raise evCycStart (pwrCycle { d with time := { d.time with t0St := stNow d } }))))))

/-- What arrives in a cycle: ADC_READY brings every input's mirror entry (R54, chapter 11), a report frame is taken only on a port
in use in DISCOVER, SERVE or MONITOR, the deadline turns every expected slot that has not arrived into a report error (R61), and
a ranking follows REP_DONE (R184). A rejoin ordered for a switching arm takes effect at its window start (R116). -/
def Obligations.reports_deadlines_and_ranking_of_an_arm : Prop :=
  ∀ s : State, s.live →
    (s.cyc.started = true → s.cyc.adcReady = false → ∃ b : Block, exec .adcReady s = .next (ended s b) ∧ b.cyc.adcReady = true ∧
      (∀ k, k < 64 → ainVal b k = if inSeq s.toBlock k then mirror s.toBlock k (ainVal s.toBlock k) else
        { ainVal s.toBlock k with valid := false, calIn := false, nConv := 0, extrap := false, clip := false, opened := false, test := false, cycle := s.cyc.index }) ∧
      (∀ k, 64 ≤ k → ainVal b k = ainVal s.toBlock k) ∧ b.adc.units = s.adc.units ∧ evAdcReady ∈ b.ev.raised ∧
      { b with adc := s.adc, ev := s.ev, cyc := s.cyc } = s.toBlock) ∧
    (s.cyc.started = false ∨ s.cyc.adcReady = true → exec .adcReady s = .next (ended s s.toBlock)) ∧
    (∀ (p : Nat) (l : List W8), p < 128 → s.tw.splitCnt = none → (isActive s.toBlock = true ∨ (port s.toBlock p).relayed = false) →
      (portUsed s.toBlock p = false ∨ ((port s.toBlock p).st ≠ .discover ∧ (port s.toBlock p).st ≠ .serve ∧ (port s.toBlock p).st ≠ .monitor) →
        exec (.reportFrame p l) s = .next (ended s s.toBlock)) ∧
      (portUsed s.toBlock p = true → (port s.toBlock p).st = .discover ∨ (port s.toBlock p).st = .serve ∨ (port s.toBlock p).st = .monitor →
        (leAt l 0 1 ≠ 0xFD → exec (.reportFrame p l) s =
          .next (ended s (modPort p (fun x => { x with frameCrcErr := satInc 16 x.frameCrcErr }) s.toBlock))) ∧
        (∀ b : Block, b = (if repForm l = true then repService p l (repEnd p (repSlots l) s.toBlock) else s.toBlock) →
          exec (.reportFrame p l) s = .next (ended s (reportCore p (cellAtHop b p) l b))))) ∧
    (∀ a, a < 12 →
      (∀ t l r, (arm s.toBlock a).lateDl = (t, l) :: r → armEnabled s.toBlock a = true → exec (.reportDeadline a) s =
        .next (ended s (repDoneLate a (forEach l reportErrorLate { s.toBlock with now := max s.now t })))) ∧
      ((armEnabled s.toBlock a = false ∨ (arm s.toBlock a).lateDl = [] ∧
          ((arm s.toBlock a).repDone = true ∨ s.tw.quiet = true ∨ tcU s.toBlock < deadlineU s.toBlock a)) →
        exec (.reportDeadline a) s = .next (ended s s.toBlock)) ∧
      ((arm s.toBlock a).lateDl = [] → armEnabled s.toBlock a = true → (arm s.toBlock a).repDone = false → s.tw.quiet = false → deadlineU s.toBlock a ≤ tcU s.toBlock →
        switching s.toBlock a = false → ∃ b : Block, exec (.reportDeadline a) s = .next (ended s b) ∧
        b.now = max s.now (s.cyc.t0 + deadlineU s.toBlock a) ∧ arm b a = { arm s.toBlock a with repDone := true, repDoneAt := b.now } ∧
        (∀ g, (g ∉ (armCells s.toBlock a).map (·.1) → cell b g = cell s.toBlock g) ∧
          (g ∈ (armCells s.toBlock a).map (·.1) → cell b g =
            if expected (cell s.toBlock g) && !(cell s.toBlock g).missed && !(cell s.toBlock g).seen then
              { cell s.toBlock g with missed := true, crcRun := if r781 s.toBlock then satInc 8 (cell s.toBlock g).crcRun else 0 }
            else cell s.toBlock g)) ∧
        b.ev.raised = s.ev.raised ++ [310 + a] ∧ { b with now := s.now, arms := s.arms, cells := s.cells, ev := s.ev } = s.toBlock)) ∧
    (∀ g, g < 6144 →
      (r781 s.toBlock = true → 3 ≤ (cell s.toBlock g).crcRun → inService (cell s.toBlock g) = true → isActive s.toBlock = true →
        exec (.reportCrcErrorLimit g) s = .next (ended s { s.toBlock with changes := s.changes ++ [.faulted g 3] })) ∧
      (r781 s.toBlock = false ∨ (cell s.toBlock g).crcRun < 3 ∨ inService (cell s.toBlock g) = false ∨ isActive s.toBlock = false →
        exec (.reportCrcErrorLimit g) s = .next (ended s s.toBlock))) ∧
    (∀ a, a < 12 →
      (armEnabled s.toBlock a = false ∨ (arm s.toBlock a).rankOwed = false ∧ ((arm s.toBlock a).repDone = false ∨ (arm s.toBlock a).rankDone = true) →
        exec (.rankDone a) s = .next (ended s s.toBlock)) ∧
      (armEnabled s.toBlock a = true → (arm s.toBlock a).rankOwed = false → (arm s.toBlock a).repDone = true → (arm s.toBlock a).rankDone = false →
        exec (.rankDone a) s = .next (ended s (recRank a false (closeBypass (raise (330 + a)
          (modArm a (fun x => { x with rankDone := true }) (rankArm a s.toBlock))))))) ∧
      (armEnabled s.toBlock a = true → (arm s.toBlock a).rankOwed = true →
        exec (.rankDone a) s = .next (ended s (recRank a true (closeBypass (raise (330 + a)
          (modArm a (fun x => { x with rankOwed := false }) (rankArm a s.toBlock))))))) ∧
      exec (.windowStart a) s = .next (ended s (modArm a (fun x => { x with rejoin := [] })
        (forEach (arm s.toBlock a).rejoin (fun p t => if ringRepaired t p then ringRejoin p t else t)
          { s.toBlock with now := max s.now (arm s.toBlock a).sPrev }))))

/-- Chapters 4 and 6: what the writes of an arm's sinks, its carriers and its frames do. The window itself is built by insertNlm,
insertOff, pscWindows and keepAlive from the rules of chapter 6. -/
def Obligations.insertions_carriers_and_command_frames : Prop :=
  ∀ (s : State) (a : Nat), s.live → a < 12 →
    (armEnabled s.toBlock a = false ∨ isActive s.toBlock = false ∨ parN s.toBlock (0x3000 + a) ≠ 0 →
      ∀ k x, k < 2 → exec (.armInsert a k x) s = .next (ended s s.toBlock)) ∧
    (armEnabled s.toBlock a = false ∨ isActive s.toBlock = false ∨ parN s.toBlock (0x3000 + a) ≠ 1 →
      (∀ p d, exec (.pscSink a p d) s = .next (ended s s.toBlock)) ∧ exec (.pscCommit a) s = .next (ended s s.toBlock)) ∧
    (armEnabled s.toBlock a = true → isActive s.toBlock = true → parN s.toBlock (0x3000 + a) = 0 →
      ∀ (k : Nat) (x n : F32) (b : Block), k < 2 → (n, b) = (if k = 0 then (x, s.toBlock)
          else if feq (arm s.toBlock a).vMean f32Zero then (f32Zero, modArm a (fun y => { y with refBad := satInc 8 y.refBad }) s.toBlock)
          else (fdiv x (arm s.toBlock a).vMean, s.toBlock)) →
        (isFinite32 n = false → exec (.armInsert a k x) s = .next (ended s (modArm a (fun y => { y with refBad := satInc 8 y.refBad }) b))) ∧
        (isFinite32 n = true → switching s.toBlock a = true → exec (.armInsert a k x) s = .next (ended s (insertNlm a n s.cyc.index s.cyc.t0 b))) ∧
        (isFinite32 n = true → switching s.toBlock a = false → exec (.armInsert a k x) s = .next (ended s (stampArm a (windowStart b a) s.cyc.index s.cyc.t0
          (insertOff a (windowStart b a) s.cyc.index b))))) ∧
    (armEnabled s.toBlock a = true → isActive s.toBlock = true → parN s.toBlock (0x3000 + a) = 1 →
      ∀ (w : Nat) (b : Block), w = windowStart b a →
        (∀ p d, b = (match d with | some d => holdDuty a d | none => id) ((match p with | some p => holdPeriod a p | none => id) s.toBlock) →
          exec (.pscSink a p d) s = .next (ended s (stampArm a w s.cyc.index s.cyc.t0 (pscWindows a w s.cyc.index
            (modArm a (fun x => { x with psc := pscDue false w x.psc }) b))))) ∧
        (b = s.toBlock → exec (.pscCommit a) s = .next (ended s (stampArm a w s.cyc.index s.cyc.t0 (pscWindows a w s.cyc.index
            (modArm a (fun x => { x with psc := pscDue true w x.psc }) b)))))) ∧
    (∀ (b : Block) (v : F32),
      (pscPeriodOk b v = false → holdPeriod a v b = modArm a (fun x => { x with refBad := satInc 8 x.refBad }) b) ∧
      (pscPeriodOk b v = true → (arm (holdPeriod a v b) a).psc = { (arm b a).psc with
        heldPeriod := some v, periodAt := if (arm b a).psc.heldPeriod.isSome then (arm b a).psc.periodAt else b.now }) ∧
      (isNaN32 v = true → holdDuty a v b = modArm a (fun x => { x with refBad := satInc 8 x.refBad }) b) ∧
      (isNaN32 v = false → (arm (holdDuty a v b) a).psc = { (arm b a).psc with
        heldDuty := some (pscDutySat b a v), dutyAt := if (arm b a).psc.heldDuty.isSome then (arm b a).psc.dutyAt else b.now })) ∧
    (∀ (h : PscSt) (p d : F32) (w t : Nat), h.heldPeriod = some p → h.heldDuty = some d → h.dueP = none → h.dueD = none →
      (∀ c, pscDue c w h = { h with dueP := some w, dueD := some w }) ∧
      (∀ x : ArmSt, x.psc = pscDue false w h →
        (w ≤ t → (pscTransfer t x).psc = { h with period := p, duty := d, heldPeriod := none, heldDuty := none, orphanP := false, orphanD := false }) ∧
        (t < w → pscTransfer t x = x))) ∧
    (∀ g, (parN s.toBlock (0x3000 + a) ≠ 1 ∨ switching s.toBlock a = false ∨ (g = none ∧ (arm s.toBlock a).psc.next = none) ∨
          (∃ k, g = some k ∧ (k ∉ (arm s.toBlock a).psc.set ∨ (cell s.toBlock k).carrier = none)) →
        exec (.carrierBoundary a g) s = .next (ended s s.toBlock)) ∧
      (parN s.toBlock (0x3000 + a) = 1 → switching s.toBlock a = true →
        (∀ n, g = none → (arm s.toBlock a).psc.next = some n →
          exec (.carrierBoundary a g) s = .next (ended s (armBoundaryAt a n { s.toBlock with now := max s.now n }))) ∧
        (∀ k c, g = some k → k ∈ (arm s.toBlock a).psc.set → (cell s.toBlock k).carrier = some c → exec (.carrierBoundary a g) s =
          .next (ended s (cellBoundaryAt a k c.fin { s.toBlock with now := max s.now c.fin }))))) ∧
    ((arm s.toBlock a).psc.next.isSome = true → (arm s.toBlock a).psc.heldPeriod.isSome = true → (arm s.toBlock a).psc.heldDuty = none →
      (arm s.toBlock a).psc.dueP = none → (arm s.toBlock a).psc.orphanP = false →
      exec (.pairOrphan a) s = .next (ended s (raise 20 (modArm a (fun x => { x with psc := { x.psc with orphanP := true } })
        { s.toBlock with now := max s.now ((arm s.toBlock a).psc.periodAt + 2 * pscPeriod (arm s.toBlock a)) })))) ∧
    ((arm s.toBlock a).psc.next.isSome = true → (arm s.toBlock a).psc.heldDuty.isSome = true → (arm s.toBlock a).psc.heldPeriod = none →
      (arm s.toBlock a).psc.dueD = none → (arm s.toBlock a).psc.orphanD = false →
      exec (.pairOrphan a) s = .next (ended s (raise 20 (modArm a (fun x => { x with psc := { x.psc with orphanD := true } })
        { s.toBlock with now := max s.now ((arm s.toBlock a).psc.dutyAt + 2 * pscPeriod (arm s.toBlock a)) })))) ∧
    ((arm s.toBlock a).psc.heldPeriod.isSome = (arm s.toBlock a).psc.heldDuty.isSome ∨ (arm s.toBlock a).psc.next = none →
      exec (.pairOrphan a) s = .next (ended s s.toBlock)) ∧
    (∀ p, p < 128 → ((port s.toBlock p).frames = [] → exec (.frameLaunch p) s = .next (ended s s.toBlock)) ∧
      (∀ f r, (port s.toBlock p).frames = f :: r →
        (stopped s.toBlock (6 + p / 16) = true → exec (.frameLaunch p) s = .next (ended s
          (let d := modPort p (fun x => { x with frames := r }) s.toBlock; if 12 ≤ f.arm then d else injWindow f.arm f.s d))) ∧
        (stopped s.toBlock (6 + p / 16) = false → ∀ b, b = launchedCells (modPort p (fun x => { x with frames := r, freeAt := f.endT, lastTx := f.bytes })
              { s.toBlock with now := max s.now f.launch }) p f →
          (12 ≤ f.arm → exec (.frameLaunch p) s = .next (ended s b)) ∧
          (f.arm < 12 → exec (.frameLaunch p) s = .next (ended s (injWindow f.arm f.s
            (schedEdges f (modArm f.arm (fun x => { x with lastCmd := b.now }) b)))))))) ∧
    (armEnabled s.toBlock a = true → isActive s.toBlock = true → (switching s.toBlock a = true ∨ s.pwr.state = .hold) → exec (.keepAlive a) s = .next (ended s
      (keepAlive a { s.toBlock with now := max s.now ((arm s.toBlock a).lastCmd + parDur s.toBlock 0x0013 4000) }))) ∧
    (switching s.toBlock a = false → s.pwr.state ≠ .hold → exec (.keepAlive a) s = .next (ended s s.toBlock))

/-- R244 to R251. `pinHeld i level` is the pin at a level that has persisted for the filter (its first clause says what that
is); `tripAct i` is the matrix action (its clauses say what it does). When a level came that the pin did not have is the model's
choice (log entry 15). -/
def Obligations.trip_inputs_blanking_and_latches : Prop :=
  (∀ (b : Block) (i : Nat), i < 32 →
      (tripHas b i 2 = false → tripHas b i 3 = false → tripHas b i 1 = false →
        tripAct i b = raise (800 + i) { b with trip := { b.trip with acted := setBit b.trip.acted i true } }) ∧
      (tripHas b i 2 = false → tripHas b i 3 = false → tripHas b i 1 = true → tripAct i b = raise 40 (raise (800 + i)
        { b with trip := { b.trip with latch := setBit b.trip.latch i true, acted := setBit b.trip.acted i true } })) ∧
      (tripHas b i 2 = true ∨ tripHas b i 3 = true →
        (tripAct i b).trip = { b.trip with
          latch := setBit b.trip.latch i true, acted := setBit b.trip.acted i true
          opened := if tripHas b i 3 then setBit b.trip.opened (parN b (0x3280 + i)) true else b.trip.opened } ∧
        (800 + i ∈ (tripAct i b).ev.raised ∧ 41 ∈ (tripAct i b).ev.raised ∧ (tripHas b i 1 = true → 40 ∈ (tripAct i b).ev.raised) ∧
          (tripHas b i 3 = true → 42 ∈ (tripAct i b).ev.raised ∧ (tripAct i b).seq.cmdLevel.testBit (parN b (0x3280 + i)) = false)) ∧
        (∀ a ∈ tripArms b i, armEnabled b a = true → (arm (tripAct i b) a).sw = false) ∧
        { tripAct i b with arms := b.arms, ports := b.ports, cells := b.cells, ev := b.ev, seq := b.seq, trip := b.trip } = b)) ∧
  ∀ s : State, s.live →
    (∀ i l, i < 16 → (pinHeld i l s.toBlock).now =
        (if bitAt s.trip.pins i = l then s.now else max s.now (tget 0 s.trip.pinAt i + parDur s.toBlock (0x3200 + i) 4000)) ∧
      pinHeld i l s.toBlock = { s.toBlock with
        now := (pinHeld i l s.toBlock).now
        trip := { s.trip with pins := setBit s.trip.pins i l, pinAt := tset 0 s.trip.pinAt i (pinHeld i l s.toBlock).now } }) ∧
    (∀ i b, i < 16 → b = pinHeld i (!parB s.toBlock (0x3220 + i)) s.toBlock →
      (bitAt s.trip.raw i = true → exec (.tripAssert i) s = .next (ended s b)) ∧
      (bitAt s.trip.raw i = false → ∀ c, c = raiseIf (tripWakes s.toBlock i) evWakeTrip { b with trip := { b.trip with raw := setBit b.trip.raw i true } } →
        (bitAt s.trip.blanked i = true ∨ matrixOn s.toBlock = false → exec (.tripAssert i) s = .next (ended s c)) ∧
        (bitAt s.trip.blanked i = false → matrixOn s.toBlock = true → exec (.tripAssert i) s = .next (ended s (tripAct i c))))) ∧
    (∀ i b, i < 16 → b = pinHeld i (parB s.toBlock (0x3220 + i)) s.toBlock → exec (.tripRelease i) s = .next (ended s { b with
      trip := { b.trip with raw := setBit s.trip.raw i false, acted := setBit s.trip.acted i false } })) ∧
    (∀ a, a < 12 → tget [] s.trip.sched a = [] → exec (.blankingStart a) s = .next (ended s s.toBlock)) ∧
    (∀ a e0 r e, a < 12 → tget [] s.trip.sched a = e0 :: r → e = r.foldl min e0 → ∃ b : Block, exec (.blankingStart a) s = .next (ended s b) ∧
      b.now = max s.now e ∧ tget [] b.trip.sched a = (e0 :: r).filter (fun t => decide (t ≠ e)) ∧
      (∀ i, i < 32 → parDur s.toBlock (0x3240 + i) 4000 ≠ 0 → bitAt (parN s.toBlock (0x3260 + i)) a = true → b.trip.blanked.testBit i = true ∧
        tget 0 b.trip.blankEnd i = max (tget 0 s.trip.blankEnd i) (e + parDur s.toBlock (0x3240 + i) 4000)) ∧
      (∀ i, 32 ≤ i ∨ parDur s.toBlock (0x3240 + i) 4000 = 0 ∨ bitAt (parN s.toBlock (0x3260 + i)) a = false →
        b.trip.blanked.testBit i = s.trip.blanked.testBit i ∧ tget 0 b.trip.blankEnd i = tget 0 s.trip.blankEnd i) ∧
      b.trip.raw = s.trip.raw ∧ b.trip.acted = s.trip.acted ∧ b.trip.latch = s.trip.latch ∧ { b with trip := s.trip, now := s.now } = s.toBlock) ∧
    (∀ i, i < 32 → (bitAt s.trip.blanked i = false → exec (.blankingEnd i) s = .next (ended s s.toBlock)) ∧
      (bitAt s.trip.blanked i = true → ∀ b, b = { s.toBlock with
          now := max s.now (tget 0 s.trip.blankEnd i)
          trip := { s.trip with blanked := setBit s.trip.blanked i false, blankEnd := tset 0 s.trip.blankEnd i 0 } } →
        (bitAt s.trip.raw i = true → bitAt s.trip.acted i = false → matrixOn s.toBlock = true → exec (.blankingEnd i) s = .next (ended s (tripAct i b))) ∧
        (bitAt s.trip.raw i = false ∨ bitAt s.trip.acted i = true ∨ matrixOn s.toBlock = false → exec (.blankingEnd i) s = .next (ended s b)))) ∧
    (∀ (m : W32) b, b = { s.toBlock with trip := { s.trip with latch := clearMask s.trip.latch m.toNat } } →
      exec (.tripLatchClear m) s = .next (ended s (reopenOutputs b)) ∧
      (reopenOutputs b).trip = { b.trip with opened := (reopenOutputs b).trip.opened } ∧
      (∀ k, (reopenOutputs b).trip.opened.testBit k = true ↔ k < 8 ∧ s.trip.opened.testBit k = true ∧
        ∃ i, i < 32 ∧ s.trip.latch.testBit i = true ∧ m.toNat.testBit i = false ∧ tripHas s.toBlock i 3 = true ∧ parN s.toBlock (0x3280 + i) = k) ∧
      { reopenOutputs b with trip := s.trip, seq := s.seq } = s.toBlock)

/-! ### The recorder -/

/-- Chapter 12: the states IDLE 0, ARMED 1, READY 2 and POST 3 of the recorder and what each command makes of them. SEQ from 0,
the limit on the pre rows and what STOP answers in IDLE are the model's choices (log entry 19). -/
def Obligations.recorder_commands_arm_stop_force_and_release : Prop :=
  (∀ (b : Nat) (m : Bool) (t : Block), ∀ e, e = armCheck t (recChans t) (recSize t) (recTrgs t) →
      (e.1 = 0 → ∃ c : RecCap, c.div = parN t 0x8001 ∧ c.capRows = capRowsOf (recChans t) (recSize t) ∧ c.rearm = parB t 0x8004 ∧ c.manual = m ∧
        c.rows = 0 ∧ c.preRows = (qfloor (qmul (qi c.capRows) (q32 (parW t 0x8002)))).toNat ∧
        c.postRows = min (parN t 0x8003) (c.capRows - c.preRows) ∧ c.clamped = decide (c.postRows < parN t 0x8003) ∧
        recTake b m t = { t with recd := { t.recd with
          bufs := tmod {} t.recd.bufs b (fun _ => { bstate := 1 }), buf := b, armErr := 0, errItem := 0, trg := 0, cap := some c, waiting := true,
          ended := false } }) ∧
      (e.1 ≠ 0 → recTake b m t = raise evRecArmErr { t with recd := { t.recd with rearmAt := none, armErr := e.1, errItem := e.2 } })) ∧
  ∀ s : State, s.live →
    (s.recd.st ≠ 0 ∨ s.recd.cap.isSome → exec .recArm s = .next (ended s s.toBlock)) ∧
    (s.recd.st = 0 → s.recd.cap = none → ∀ e, e = armCheck s.toBlock (recChans s.toBlock) (recSize s.toBlock) (recTrgs s.toBlock) →
      (∀ b, freeBuf s.toBlock 0 = some b →
        exec .recArm s = .next (ended s (recTake b true { s.toBlock with recd := { s.recd with rearmAt := none, fullWait := false } }))) ∧
      (freeBuf s.toBlock 0 = none → exec .recArm s = .next (ended s (raise evRecArmErr { s.toBlock with recd :=
        { s.recd with armErr := if e.1 = 0 then 6 else e.1, errItem := if e.1 = 0 then 0 else e.2 } })))) ∧
    (s.recd.cap = none → exec .recStop s = .next (ended s { s.toBlock with recd := { s.recd with rearmAt := none, fullWait := false, stopLate := s.recd.ended } }) ∧
      exec .recForce s = .next (ended s { s.toBlock with recd := { s.recd with ignPre := min (s.recd.ignPre + 1) 65535 } }) ∧
      exec .preRowsFilled s = .next (ended s s.toBlock) ∧ exec .recDone s = .next (ended s s.toBlock)) ∧
    (∀ c, s.recd.cap = some c →
      (s.recd.st < 3 → exec .recStop s = .next (ended s { s.toBlock with recd := { s.recd with
        rearmAt := none, fullWait := false, stopLate := false, bufs := tmod {} s.recd.bufs s.recd.buf (fun _ => {}), st := 0, cap := none, waiting := false } })) ∧
      (s.recd.st = 3 → endRow c ≤ c.rows → exec .recStop s = .next (ended s { s.toBlock with recd := { s.recd with
        rearmAt := none, fullWait := false, stopLate := true, cap := some { c with rearm := false } } })) ∧
      (3 ≤ s.recd.st → (s.recd.st = 3 → c.rows < endRow c) → exec .recStop s = .next (ended s { s.toBlock with recd := { s.recd with
        rearmAt := none, fullWait := false, stopLate := false
        cap := some { c with rearm := false, stopRow := some (min (endRow c) (c.rows + 1)), stopAt := s.now } } })) ∧
      (s.recd.waiting = true → exec .recForce s = .next (ended s { s.toBlock with recd := { s.recd with ignPre := min (s.recd.ignPre + 1) 65535 } })) ∧
      (s.recd.waiting = false → s.recd.st < 2 → exec .recForce s = .next (ended s { s.toBlock with recd := { s.recd with
        ignPre := min (s.recd.ignPre + 1) 65535, cap := some { c with ignPre := min (c.ignPre + 1) 4294967295 } } })) ∧
      (s.recd.waiting = false → ∀ f : RecLog, f = { time := rowStart c, cond := 255, evalAt := fabric s.now } →
        (s.recd.st = 2 → exec .recForce s = .next (ended s (raise evRecTriggered { s.toBlock with recd := { s.recd with
          st := 3, cap := some { (setPrimary f (addLog c f)) with trigAt := s.now } } }))) ∧
        (3 ≤ s.recd.st → exec .recForce s = .next (ended s { s.toBlock with recd := { s.recd with
          cap := some (if fabric c.trigAt = fabric s.now ∧ logLt f c.prim = true then setPrimary f (addLog c f) else addLog c f) } }))) ∧
      (s.recd.st = 1 → c.preRows ≤ c.rows → exec .preRowsFilled s = .next (ended s { s.toBlock with recd := { s.recd with st := 2 } })) ∧
      (s.recd.st ≠ 1 ∨ c.rows < c.preRows → exec .preRowsFilled s = .next (ended s s.toBlock)) ∧
      (s.recd.st ≠ 3 ∨ c.rows < endRow c → exec .recDone s = .next (ended s s.toBlock)) ∧
      (s.recd.st = 3 → endRow c ≤ c.rows → ∃ b : Block, exec .recDone s = .next (ended s b) ∧ b.now = max s.now (c.start + c.rows * rowLen c) ∧
        b.recd = { s.recd with
          st := 0, cap := none, ended := true, captures := min (s.recd.captures + 1) 65535, seq := (s.recd.seq + 1) % 2 ^ 32, sinceDone := 0,
          rearmAt := if c.rearm then some (b.now, c.div) else none, bufs := tmod {} s.recd.bufs s.recd.buf (fun _ =>
            { bstate := 2, clamped := c.clamped, aborted := c.stopRow.isSome, truncated := false, seq := s.recd.seq }) } ∧
        b.ev.raised = s.ev.raised ++ [evRecDone] ∧ { b with now := s.now, recd := s.recd, ev := s.ev, mem := s.mem } = s.toBlock)) ∧
    (∀ k, k < 8 → recBufs s.toBlock ≤ k ∨ (recBuf s.toBlock k).bstate < 2 → exec (.bufferRelease k) s = .next (ended s s.toBlock)) ∧
    (∀ k, k < 8 → k < recBufs s.toBlock → 2 ≤ (recBuf s.toBlock k).bstate → s.recd.fullWait = false → exec (.bufferRelease k) s =
      .next (ended s { s.toBlock with recd := { s.recd with bufs := tmod {} s.recd.bufs k (fun _ => {}) } })) ∧
    (∀ k, k < 8 → k < recBufs s.toBlock → 2 ≤ (recBuf s.toBlock k).bstate → s.recd.fullWait = true → exec (.bufferRelease k) s =
      .next (ended s (recTake k false { s.toBlock with recd := { s.recd with bufs := tmod {} s.recd.bufs k (fun _ => {}), fullWait := false } }))) ∧
    (s.recd.rearmAt = none ∨ s.recd.st ≠ 0 ∨ s.recd.cap.isSome ∨ s.recd.fullWait = true → exec .recRearm s = .next (ended s s.toBlock)) ∧
    (∀ t d, s.recd.rearmAt = some (t, d) → s.recd.st = 0 → s.recd.cap = none → s.recd.fullWait = false →
      (∀ b, freeBuf s.toBlock (s.recd.buf + 1) = some b → exec .recRearm s = .next (ended s (recTake b false { s.toBlock with now := max s.now (t + 1600) }))) ∧
      (freeBuf s.toBlock (s.recd.buf + 1) = none → exec .recRearm s =
        .next (ended s (raise evRecWait { s.toBlock with now := max s.now (t + 1600), recd := { s.recd with fullWait := true } }))))

/-! ### Tentering and the silicon -/

/-- Chapter 13. An update's values wait for the next cycle start (R474). The plan's loop measures, raises by one step and waits
1 ms (R495). The temperature of a plan is the command's operand. -/
def Obligations.tentering_updates_and_the_silicon_plan : Prop :=
  ∀ s : State, s.live →
    (∃ b : Block, exec .tentUpdate s = .next (ended s b) ∧
      b.tentNext = s.tentNext ++ (s.cells.filter fun x => x.2.st ≠ .none).map (fun x => { cell := x.1, val := tentUpdateCell s.toBlock x.1 x.2 }) ∧
      (∀ a, a < 12 → arm b a = { arm s.toBlock a with iSq := 0#64, iCyc := 0 }) ∧ { b with tentNext := s.tentNext, arms := s.arms } = s.toBlock) ∧
    (∀ g c, c.tent.w ≤ (tentUpdateCell s.toBlock g c).w ∧ (tentUpdateCell s.toBlock g c).ceil ≤ c.tent.ceil ∧
      (tentUpdateCell s.toBlock g c).retireDue = decide (parN s.toBlock (0x90A0 + cellArm s.toBlock g) ≤ (tentUpdateCell s.toBlock g c).w)) ∧
    (∀ paths srams tj, ∃ m : Block,
      (∀ k, (∀ w ∈ paths, w.1 ≠ k) ∨ 64 ≤ k → tget 0 m.si.slacks k = tget 0 s.si.slacks k) ∧
      (∀ l r k v, paths = l ++ (k, v) :: r → k < 64 → (∀ w ∈ r, w.1 ≠ k) → tget 0 m.si.slacks k = v) ∧
      (∀ k, (∀ w ∈ srams, w.1 ≠ k) ∨ 16 ≤ k → tget 0 m.si.margins k = tget 0 s.si.margins k) ∧
      (∀ l r k v, srams = l ++ (k, v) :: r → k < 16 → (∀ w ∈ r, w.1 ≠ k) → tget 0 m.si.margins k = v % 16) ∧
      { m with si := { m.si with slacks := s.si.slacks, margins := s.si.margins } } = s.toBlock ∧
      exec (.siMonitor paths srams tj) s = .next (ended s (
        if powered s.toBlock = true ∧ s.si.planning = false ∧ ∃ w ∈ paths, qlt (qi w.2) (qmul (q32 (parW s.toBlock 0x9100)) (qf 1 2)) = true then
          vddFollow (planLoop { m with si := { m.si with tenMin := false, tj := tj, raised := false, lowering := false } }) else m))) ∧
    (∀ tj, exec (.siPlan tj) s = .next (ended s (
        if powered s.toBlock = true ∧ s.si.planning = false ∧ s.host.mpOverload = false ∧ s.pwr.throttle < 2 then
          vddFollow (planLoop { countStress tj s.toBlock with si :=
            { (countStress tj s.toBlock).si with tenMin := true, tj := tj, raised := false, lowering := false } }) else s.toBlock))) ∧
    (∀ b : Block, qlt (qi (worstSlack b).1) (slackNeed b) = true → ¬ (b.si.vddSet = siVmax b ∧ (b.si.bias = 1 ∨ siFwd b = false)) →
      ∀ f, f = (decide (siVfb b ≤ b.si.vddSet) && decide (b.si.bias = 0) && siFwd b) →
      planLoop b = { b with si := { b.si with
        bias := if f then 1 else b.si.bias, vddSet := if f then b.si.vddSet else min (b.si.vddSet + 5000) (siVmax b),
        steps := b.si.steps ++ [f], raised := true, planning := true, stepAt := b.now + 4000000 } }) ∧
    (∀ b : Block, qlt (qi (worstSlack b).1) (slackNeed b) = false ∨ (b.si.vddSet = siVmax b ∧ (b.si.bias = 1 ∨ siFwd b = false)) →
      (∀ f, b.si.raised = false → b.si.tenMin = true → qle (qadd (slackNeed b) (qi 10)) (qi (worstSlack b).1) = true → b.si.steps.getLast? = some f →
        planLoop b = { b with si := { b.si with
          bias := if f then 0 else b.si.bias, vddSet := if f then b.si.vddSet else b.si.vddSet - 5000, lowering := true, planning := true
          stepAt := b.now + 4000000 } }) ∧
      (b.si.raised = true ∨ b.si.tenMin = false ∨ qle (qadd (slackNeed b) (qi 10)) (qi (worstSlack b).1) = false ∨ b.si.steps = [] →
        planLoop b = planEnd b)) ∧
    (∀ b : Block, (planEnd b).si.planning = false ∧ (planEnd b).si.sramAssist = (b.si.sramAssist || decide ((worstMargin b).1 < parN b 0x9105)) ∧
      (planEnd b).si.slackLow = qlt (qi (worstSlack b).1) (slackNeed b) ∧ (planEnd b).si.plans = min (b.si.plans + 1) 65535 ∧
      (planEnd b).si.vddSet = b.si.vddSet ∧ (planEnd b).si.bias = b.si.bias) ∧
    (∀ paths, (s.si.planning = false → exec (.planStep paths) s = .next (ended s s.toBlock)) ∧
      (s.si.planning = true → ∃ m : Block, m.now = max s.now s.si.stepAt ∧
        (∀ l r k v, paths = l ++ (k, v) :: r → k < 64 → (∀ w ∈ r, w.1 ≠ k) → tget 0 m.si.slacks k = v) ∧
        { m with now := s.now, si := { m.si with slacks := s.si.slacks } } = s.toBlock ∧
        (s.si.lowering = false → exec (.planStep paths) s = .next (ended s (vddFollow (planLoop m)))) ∧
        (s.si.lowering = true → qlt (qi (worstSlack m).1) (slackNeed m) = false →
          exec (.planStep paths) s = .next (ended s (vddFollow (planEnd { m with si := { m.si with steps := m.si.steps.dropLast } })))) ∧
        (∀ f, s.si.lowering = true → qlt (qi (worstSlack m).1) (slackNeed m) = true → s.si.steps.getLast? = some f →
          exec (.planStep paths) s = .next (ended s (vddFollow (planEnd { m with si := { m.si with
            bias := if f then 1 else m.si.bias, vddSet := if f then m.si.vddSet else m.si.vddSet + 5000 } })))) ∧
        (s.si.lowering = true → qlt (qi (worstSlack m).1) (slackNeed m) = true → s.si.steps = [] →
          exec (.planStep paths) s = .next (ended s (vddFollow (planEnd m)))))) ∧
    exec .siHistoryWrite s = .next (ended s { s.toBlock with si := { s.si with
      mirrorTEq := s.si.tEq, mirrorVdd := s.si.vddSet, mirrorBias := s.si.bias, mirrorSteps := s.si.steps, mirrorHist := s.si.hist,
      flashTEq := s.si.tEq, flashVdd := s.si.vddSet, flashBias := s.si.bias, flashSteps := s.si.steps, flashHist := s.si.hist } })

/-! ### Power states, the arbiter and the supply -/

/-- R698. No other request is being carried out and the state asked for is not the one in force (R697 answers those). -/
def Obligations.power_requests_in_conflict_are_refused : Prop :=
  ∀ s : State, s.live → s.rst.phase = .up → s.pwr.phase = .steady → s.pwr.toRun = false →
    ∀ t, t = ended s { s.toBlock with pwr := { s.pwr with result := 2 } } →
    (s.pwr.state ≠ .hold → (∃ a, a < 12 ∧ switching s.toBlock a = true) ∨ s.seq.state = .energize ∨ s.seq.state = .discharge →
      exec .pwrReqHold s = .next t) ∧
    ((s.seq.state ≠ .await ∧ s.seq.state ≠ .ready) ∨ s.host.committing = true ∨ s.tw.role = .active →
      (s.pwr.state ≠ .doze → exec .pwrReqDoze s = .next t) ∧ (s.pwr.state ≠ .off → exec .pwrReqOff s = .next t))

/-- Chapter 19. HOLD and the return to RUN take effect at a cycle start (R701, statement of the cycle start). Which domain refuses
what, that a wait counts from the step's begin, and what is kept over OFF, are the model's choices (log entry 10). -/
def Obligations.power_requests_and_the_entry_steps : Prop :=
  (∀ b : Block, ∃ v : PwrSt, (powerOff b).pwr = { v with state := b.pwr.target } ∧ v.vdd = uvOf (parW b 0xF005) ∧ v.phase = .steady ∧ v.step = 0 ∧
    v.domOn = 1 ∧ v.domStopped = 0 ∧ v.retained = (if b.pwr.target = .off then 0 else retainMask b) ∧ v.entries = min (b.pwr.entries + 1) 65535 ∧ v.woken = none ∧
    (powerOff b).si = (if b.pwr.target = .off then (siHistoryWriteStep b).si else b.si) ∧ (powerOff b).now = b.now) ∧
  ∀ s : State, s.live →
    (∀ (c : Instr) (d : PowerState), (c, d) ∈ [(Instr.pwrReqRun, PowerState.run), (.pwrReqHold, .hold), (.pwrReqDoze, .doze), (.pwrReqOff, .off)] →
      (s.rst.phase ≠ .up → exec c s = .next (ended s s.toBlock)) ∧
      (s.rst.phase = .up → s.pwr.phase ≠ .steady ∨ s.pwr.toRun = true → exec c s = .next (ended s { s.toBlock with pwr := { s.pwr with result := 5 } })) ∧
      (s.rst.phase = .up → s.pwr.phase = .steady → s.pwr.toRun = false →
        (s.pwr.state = d → exec c s = .next (ended s { s.toBlock with pwr := { s.pwr with result := 1 } })) ∧
        (s.pwr.state ≠ d → pwrBadState s.toBlock d = true → exec c s = .next (ended s { s.toBlock with pwr := { s.pwr with result := 2 } })) ∧
        (s.pwr.state ≠ d → pwrBadState s.toBlock d = false →
          (s.pwr.state = .run ∨ s.pwr.state = .hold → d ≠ .run → exec c s = .next (ended s { s.toBlock with pwr := { s.pwr with
            result := 0, refuseDom := 31, phase := .entering, target := d, step := 1, stepAt := s.now, reqT0 := none, woken := none,
            suppressed := true, domStopped := 0 } })) ∧
          (s.pwr.state = .hold → d = .run → exec c s = .next (ended s { s.toBlock with pwr := { s.pwr with result := 0, refuseDom := 31, toRun := true } })) ∧
          (s.pwr.state = .doze → d = .off → exec c s = .next (ended s (powerOff { s.toBlock with pwr := { s.pwr with
            result := 0, refuseDom := 31, target := .off } }))) ∧
          (s.pwr.state = .doze ∨ s.pwr.state = .off → d = .run ∨ d = .hold → exec c s =
            .next (ended s (driveVdd (if s.si.vddSet = 0 then 800000 else s.si.vddSet) { s.toBlock with pwr := { s.pwr with
              result := 0, refuseDom := 31, phase := .waking, wakeCause := 0, wakeFrom := s.pwr.state, wakeTo := d, wakeAt := s.now } })))))) ∧
    (∀ bar4, (s.pwr.phase ≠ .entering → exec (.pwrEntryStep bar4) s = .next (ended s s.toBlock)) ∧
      (s.pwr.phase = .entering → s.pwr.step = 7 → exec (.pwrEntryStep bar4) s = .next (ended s (match s.pwr.woken with
        | some k => driveVdd (if (powerOff s.toBlock).si.vddSet = 0 then 800000 else (powerOff s.toBlock).si.vddSet) { powerOff s.toBlock with
            pwr := { (powerOff s.toBlock).pwr with
              phase := .waking, wakeCause := k, wakeFrom := s.pwr.target, wakeTo := .run, wakeAt := s.now } }
        | none => powerOff s.toBlock))) ∧
      (s.pwr.phase = .entering → s.pwr.step ≠ 7 →
        ∀ ab : Option Nat → Block → Block, ab = (fun r b => raise evPwrRefused { b with pwr := { b.pwr with
            phase := .steady, step := 0, domStopped := 0, woken := none, refusals := min (b.pwr.refusals + 1) 65535,
            result := if r.isSome then 3 else 4, refuseDom := r.getD 31 } }) →
        (∀ d, pwrRefuser s.toBlock s.pwr.step bar4 = some (d, false) → exec (.pwrEntryStep bar4) s = .next (ended s (ab (some d) s.toBlock))) ∧
        (∀ d u, pwrRefuser s.toBlock s.pwr.step bar4 = some (d, true) → (if s.pwr.step = 1 then s.pwr.reqT0 else some s.pwr.stepAt) = some u →
          exec (.pwrEntryStep bar4) s = .next (ended s (ab (some d) { s.toBlock with
            now := max s.now (u + parDur s.toBlock 0xF004 4000000) }))) ∧
        ((∃ d, pwrRefuser s.toBlock s.pwr.step bar4 = some (d, true)) → s.pwr.step = 1 → s.pwr.reqT0 = none →
          exec (.pwrEntryStep bar4) s = .next (ended s s.toBlock)) ∧
        (pwrRefuser s.toBlock s.pwr.step bar4 = none → s.pwr.target = .hold → exec (.pwrEntryStep bar4) s = .next (ended s s.toBlock)) ∧
        (pwrRefuser s.toBlock s.pwr.step bar4 = none → s.pwr.target ≠ .hold → ∃ b : Block,
          b = { (if s.pwr.step = 4 then forEach (s.ports.map (·.1)) (fun p => modPort p fun y => { y with frames := [] }) s.toBlock else s.toBlock) with pwr := { s.pwr with
            domStopped := s.pwr.domStopped ||| maskOf (stepDomains s.toBlock s.pwr.step),
            step := s.pwr.step + 1, stepAt := s.now } } ∧
          exec (.pwrEntryStep bar4) s = .next (ended s (if s.pwr.woken.isSome then ab none b else b))))) ∧
    (∀ k, k < 6 → exec (.pwrWake k) s = .next (ended s (
      if decide (1 ≤ k ∧ k ≤ 5) && bitAt (parN s.toBlock 0xF003) (k - 1) then
        match s.pwr.phase with
        | .entering => if s.pwr.target = .hold then s.toBlock else { s.toBlock with pwr := { s.pwr with woken := s.pwr.woken <|> some k } }
        | .steady => if s.pwr.state = .run ∨ s.pwr.state = .hold then s.toBlock else
          driveVdd (if s.si.vddSet = 0 then 800000 else s.si.vddSet) { s.toBlock with pwr := { s.pwr with
            phase := .waking, wakeCause := k, wakeFrom := s.pwr.state, wakeTo := .run, wakeAt := s.now } }
        | _ => s.toBlock
      else s.toBlock)))

/-- Chapter 19. That PWR_OVER clears when P_est falls to B or below level 8, and that the power fields hold what the command
brings (the estimate is its operand), are the model's choices (log entry 10). -/
def Obligations.wake_estimates_and_the_regulator : Prop :=
  ∀ s : State, s.live →
    (∀ f, s.pwr.phase ≠ .waking → exec (.wakeComplete f) s = .next (ended s s.toBlock)) ∧
    (∀ f : BitVec 13, s.pwr.phase = .waking → ∀ bad, bad = f.toNat &&& s.pwr.retained → ∀ lost, lost = clearMask 8191 (clearMask s.pwr.retained bad) →
      ∀ b, b = raiseIf (bad ≠ 0) evRetFail { s.toBlock with
        mem := s.mem.filter (fun c => !(match bankOfAddr c.1 with | some k => bitAt lost k | none => false)),
        pwr := { s.pwr with retFail := s.pwr.retFail ||| bad, retained := 0 } } →
      (∀ a k, bankOfAddr a = some k → bitAt lost k = true → memRead b.mem a = 0#8) ∧
      (∀ a, (∀ k, bankOfAddr a = some k → bitAt lost k = false) → memRead b.mem a = memRead s.mem a) ∧
      ∀ c, c = loseQueues lost (if bits bad 4 8 ≠ 0 then recBankFail (bits bad 4 8) b else b) →
      ∀ d, d = (if c.pwr.wakeFrom = .off then dropSet c else if lost &&& 0x1007 ≠ 0 then reapplySet (bitAt lost 12) c else c) →
      ∀ e : Block, e = pwrSetState d.pwr.wakeTo { d with
        adc := { d.adc with units := (upto 4).map fun u => (u, { adcUnit d u with on := true, rotAt := d.now, refFell := d.now }) },
        pwr := { d.pwr with phase := .steady, domOn := usedDomains d, suppressed := true } } →
      ∀ g, g = forEach ports128 (fun p t => if portUsed t p && (port t p).st = .dark && !(port t p).forced && !bitAt t.rst.pgFailed (p / 16)
        then enterSeek p t else t) e →
      exec (.wakeComplete f) s = .next (ended s (tripAfresh (
        if g.tw.role = .offline ∧ parB g 0xC000 then setRole .wait { g with tw := { g.tw with waitAt := g.now } } else g)))) ∧
    (∀ est doms, ∀ p, p = min est 65535 → ∀ B, B = centiW (parW s.toBlock 0xF000) → ∀ M, M = centiW (parW s.toBlock 0xF001) →
      ∃ (dom : Tab Nat) (t' : Nat) (b : Block), exec (.powerEstimate est doms) s = .next (ended s b) ∧
      (∀ d, (∀ w ∈ doms, w.1 ≠ d) ∨ 30 ≤ d → tget 0 dom d = 0) ∧
      (∀ l r d v, doms = l ++ (d, v) :: r → d < 30 → (∀ w ∈ r, w.1 ≠ d) → tget 0 dom d = min v 65535) ∧
      b.pwr.pEst = p ∧ b.pwr.pMax = max p s.pwr.pMax ∧ b.pwr.domP = dom ∧ b.pwr.throttle = t' ∧
      (∀ d, d < 30 → (bitAt b.pwr.overCeil d = true ↔ qlt (centiW (parW s.toBlock (0xF140 + d))) (qi (tget 0 dom d : Nat)) = true)) ∧
      ((qlt (qsub B M) (qi p) = true ∨ b.pwr.overCeil ≠ 0) → t' = min 8 (s.pwr.throttle + 1) ∧ b.pwr.lowCnt = 0) ∧
      (qlt (qsub B M) (qi p) = false → b.pwr.overCeil = 0 → qlt (qi p) (qsub B (qmul (qi 2) M)) = true →
        ((upto 30).all fun d => qlt (qi (tget 0 dom d : Nat)) (centiW (parW s.toBlock (0xF140 + d)))) = true →
        (10 ≤ s.pwr.lowCnt + 1 → t' = s.pwr.throttle - 1 ∧ b.pwr.lowCnt = 0) ∧ (s.pwr.lowCnt + 1 < 10 → t' = s.pwr.throttle ∧ b.pwr.lowCnt = s.pwr.lowCnt + 1)) ∧
      (qlt (qsub B M) (qi p) = false → b.pwr.overCeil = 0 → qlt (qi p) (qsub B (qmul (qi 2) M)) = false → t' = s.pwr.throttle ∧ b.pwr.lowCnt = 0) ∧
      b.pwr.overFrom = (if qlt B (qi p) && t' = 8 then s.pwr.overFrom <|> some s.now else none) ∧
      (b.ev.raised = if s.pwr.throttle = 0 ∧ t' ≠ 0 then s.ev.raised ++ [evPwrThrottle] else s.ev.raised) ∧
      { b with pwr := s.pwr, ev := s.ev } = s.toBlock) ∧
    exec .pwrOver s = .next (ended s (match s.pwr.overFrom with
      | some t => if s.pwr.excess then s.toBlock else raise evPwrThrottle { s.toBlock with now := max s.now (t + 4000000), pwr := { s.pwr with excess := true } }
      | none => s.toBlock)) ∧
    (∃ b : Block, exec .pllLock s = .next (ended s b) ∧ b.now = s.now ∧ b.rst.cause = 3 ∧ b.rst.warmResets = min (s.rst.warmResets + 1) 65535 ∧
      b.time = timeKept s.time ∧ b.host.setInForce = none ∧ b.mem = [] ∧ b.cells = [] ∧ b.seq = {} ∧ b.host.slots = s.host.slots) ∧
    (∀ ack, s.pwr.vrWait = none → exec (.vrRetry ack) s = .next (ended s s.toBlock)) ∧
    (∀ v, s.pwr.vrWait = some v →
      exec (.vrRetry true) s = .next (ended s { s.toBlock with pwr := { s.pwr with vrWait := none, vrTries := 0, vrAcked := v } }) ∧
      (s.pwr.vrTries + 1 < 3 → exec (.vrRetry false) s = .next (ended s { s.toBlock with pwr := { s.pwr with
        vrTries := s.pwr.vrTries + 1, vrAcked := s.pwr.vrPrev } })) ∧
      (3 ≤ s.pwr.vrTries + 1 → exec (.vrRetry false) s = .next (ended s { s.toBlock with pwr := { s.pwr with
        vrTries := 0, vrWait := none, vrFault := true, vrAcked := s.pwr.vrPrev } })))

/-! ### Ports and their cells -/

/-- Chapter 3. `enterDiscover`, `takeRelay` and `faultCell` are the shared operations of the port states and of a cell's fault; what
enterDiscover does to the port is stated first. A command whose condition does not hold changes nothing (log entry 1). -/
def Obligations.training_locks_and_losses_of_a_port : Prop :=
  (∀ (p : Nat) (b : Block),
      port (noSegment p b) p = { port b p with seg := [], reversed := false, frames := [], alignOk := false } ∧
      (∀ q, q ≠ p → port (noSegment p b) q = port b q) ∧
      (noSegment p b).ev.raised = b.ev.raised ++ (if (port b p).alignOk then [evAlignLost p] else []) ∧
      { noSegment p b with ports := b.ports, ev := b.ev } = b ∧
      port (enterDiscover p b) p = { port (noSegment p b) p with st := .discover, discAt := b.now, svc := [], setTx := trainSet 0 false } ∧
      (∀ q, q ≠ p → port (enterDiscover p b) q = port b q) ∧ { enterDiscover p b with ports := b.ports, cells := b.cells, ev := b.ev } = b) ∧
  ∀ (s : State) (p : Nat), s.live → p < 128 → ∀ x, x = port s.toBlock p →
    (∀ n, n < 64 →
      (portUsed s.toBlock p = false ∨ (x.st ≠ .discover ∧ x.st ≠ .serve ∧ x.st ≠ .monitor ∧ (x.st ≠ .seek ∨ x.training = false)) →
        exec (.train p n) s = .next (ended s s.toBlock)) ∧
      (portUsed s.toBlock p = true → (x.st = .discover ∨ x.st = .serve ∨ x.st = .monitor ∨ (x.st = .seek ∧ x.training = true)) →
        ∀ b, b = raiseIf (x.cellsFound ≠ n) (evCellsChanged p) (modPort p (fun y => { y with cellsFound := n }) s.toBlock) →
        (strCells s.toBlock p < n → exec (.train p n) s = .next (ended s (raise (evLinkLost p)
          (modPort p (fun y => { y with st := .fail, failCause := 2, failLost := false }) (noSegment p b))))) ∧
        (n ≤ strCells s.toBlock p → x.st = .seek → exec (.train p n) s = .next (ended s b)) ∧
        (n ≤ strCells s.toBlock p → x.st ≠ .seek →
          ∀ d, d = forEach (if x.brk then [] else ((upto n).filter fun h => decide (x.cellsFound ≤ h)).map (cellAtHop b p)) (fun g => modCal p g fun _ => {}) b →
          ∀ c, c = (if portTopo d p = 0 ∧ x.st ≠ .discover ∧ x.seg.length < n then setSeg p ((upto n).map (cellAtHop d p)) d else d) →
          exec (.train p n) s = .next (ended s (forEach ((upto n).map (cellAtHop c p)) (startCal p) c))))) ∧
    (x.st ≠ .seek ∨ x.training = true ∨ x.txdis = true → exec (.seekSettle p) s = .next (ended s s.toBlock)) ∧
    (x.st = .seek → x.training = false → x.txdis = false → ∃ b : Block,
      b = { modPort p (fun y => { y with training := true, setTx := trainSet 0 false }) s.toBlock with now := max s.now (x.seekAt + 8000000) } ∧
      exec (.seekSettle p) s = .next (ended s (if x.lock then enterDiscover p b else b))) ∧
    (x.st = .dark ∨ x.lock = true → exec (.upstreamLock p) s = .next (ended s s.toBlock)) ∧
    (x.st ≠ .dark → x.lock = false → ∃ b : Block, b = modPort p (fun y => { y with lock := true, lostAt := none }) s.toBlock ∧
      exec (.upstreamLock p) s = .next (ended s (if x.st = .seek ∧ x.training = true then enterDiscover p b else b))) ∧
    (∀ v, (x.st = .dark → exec (.upstreamLockLost p v) s = .next (ended s s.toBlock)) ∧
      (x.st ≠ .dark → ∀ l, l = recentViol x s.now v →
        (x.lock = false ∨ (v ≠ 0 ∧ sumNat (l.map (·.2)) < parN s.toBlock 0x1106) → exec (.upstreamLockLost p v) s = .next (ended s (
          if v = 0 then s.toBlock else modPort p (fun y => { y with viol := l, codeErr := min (x.codeErr + v) 4294967295 }) s.toBlock))) ∧
        (x.lock = true → v = 0 ∨ parN s.toBlock 0x1106 ≤ sumNat (l.map (·.2)) → ∃ b : Block, exec (.upstreamLockLost p v) s = .next (ended s b) ∧
          port b p = { x with
            lock := false, lostAt := some s.now, lockLoss := min (x.lockLoss + 1) 65535, viol := []
            codeErr := if v = 0 then x.codeErr else min (x.codeErr + v) 4294967295
            failLost := x.failLost || decide (x.st = .fail), st := if x.st = .discover then .seek else x.st
            training := if x.st = .discover then true else x.training, frames := if x.st = .discover then [] else x.frames } ∧
          (∀ q, q ≠ p → port b q = port s.toBlock q) ∧ { b with ports := s.ports } = s.toBlock))) ∧
    (x.lostAt = none ∨ portRing s.toBlock p = false ∨ (x.st ≠ .serve ∧ x.st ≠ .monitor) ∨ x.lock = true ∨ x.brk = true →
      exec (.ringBreak p) s = .next (ended s s.toBlock)) ∧
    (∀ t, x.lostAt = some t → portRing s.toBlock p = true → x.st = .serve ∨ x.st = .monitor → x.lock = false → x.brk = false → ∃ b : Block,
      b = forEach (strCellList s.toBlock p) (fun g => modCell g fun c => { c with absent := 0 })
        (raise (evRingBreak p) (setBreak p { s.toBlock with now := max s.now (t + parDur s.toBlock 0x1101 4000) })) ∧
      (ringMate s.toBlock p = none → exec (.ringBreak p) s = .next (ended s (takeRelay p b))) ∧
      (∀ q, ringMate s.toBlock p = some q → ∀ c, c = setBreak q b → ∀ far, far = (if (port c p).st = .monitor then p else q) →
        exec (.ringBreak p) s = .next (ended s (if parB s.toBlock 0x1103 = true ∧ (port c far).st = .monitor then
          markFrom far c.now (modPort far (fun y => { serveReversed y with seg := (upto (strCells c far)).map (cellAtHop c far) }) c)
          else c)))) ∧
    (∀ chain : Bool, chain = (decide (portTopo s.toBlock p = 0) || (ringMate s.toBlock p).isSome && !parB s.toBlock 0x1103) →
      (x.lostAt = none ∨ portUsed s.toBlock p = false ∨ x.st ≠ .serve ∨ chain = false ∨ x.lock = true → exec (.linkLoss p) s = .next (ended s s.toBlock)) ∧
      (∀ t, x.lostAt = some t → portUsed s.toBlock p = true → x.st = .serve → chain = true → x.lock = false → ∃ b : Block,
        b = enterFail p 1 { s.toBlock with now := max s.now (t + parDur s.toBlock 0x1101 4000) } ∧
        exec (.linkLoss p) s = .next (ended s (if r781 s.toBlock then
          forEach (if portTopo s.toBlock p = 0 then strCellList s.toBlock p else x.seg) (fun g => faultCell g 6) b else b))) ∧
      exec (.reportEndShort p) s = .next (ended s (
        if portUsed s.toBlock p = true ∧ chain = true ∧ 2 ≤ x.endShort ∧ r781 s.toBlock = true then
          forEach ((upto (strCells s.toBlock p)).filter (fun h => x.endHop < h)) (fun h => faultCell (cellAtHop s.toBlock p h) 6) s.toBlock
        else s.toBlock))) ∧
    (∀ g, g < 6144 → exec (.segmentAbsent g) s = .next (ended s (
      if portRing s.toBlock (g / 48) = true ∧ asChain s.toBlock (g / 48) = false ∧ (port s.toBlock (g / 48)).brk = true ∧
          2 ≤ (cell s.toBlock g).absent ∧ r781 s.toBlock = true then
        (if inService (cell s.toBlock g) = true ∧ isActive s.toBlock = true then { s.toBlock with changes := s.changes ++ [.faulted g 6] } else s.toBlock)
      else s.toBlock)))

/-- Chapters 2, 3 and 10. `svcAdd` queues a register access of the service slot, `blockArm` is the shared block of an arm with its
cause (5 BYPASS_UNCONF, 4 PG_FAULT). That a bypass request ends with its report is the model's reading (log entry 9). -/
def Obligations.echoes_marks_limits_and_unconfirmed_bypasses : Prop :=
  ∀ (s : State), s.live →
    (∀ p hop rtt, p < 128 → hop < 48 → ∀ g, g = cellAtHop s.toBlock p hop → ∀ k, k = calOf s.toBlock p (cell s.toBlock g) →
      ∀ x, x = port s.toBlock p → ∀ left : Prop, (left ↔ stopped s.toBlock (6 + p / 16) = false ∧ portUsed s.toBlock p = true ∧
          hop < strCells s.toBlock p ∧ metFrame x 40 (s.now - rtt) = false ∧
          ((x.st = .discover ∧ x.echoCnt < 8) ∨ ((x.st = .serve ∨ x.st = .monitor) ∧ x.echoCnt = 0 ∧ hop = echoTarget s.toBlock p))) →
      (¬ left → exec (.echo p hop rtt) s = .next (ended s s.toBlock)) ∧
      (left → k.consts = none → exec (.echo p hop rtt) s = .next (ended s (modPort p (echoSent hop) s.toBlock))) ∧
      (∀ w, left → k.consts = some w →
        ∀ m, m = modCal p g (fun y => { y with
            samples := lastN 64 (y.samples ++ [(rtt : Int) * 250 - uPs w + asymSum (modPort p (echoSent hop) s.toBlock) p hop]),
            echoes := min 16 (y.echoes + 1) }) (modPort p (echoSent hop) s.toBlock) →
        ∀ j, j = calOf m p (cell m g) → ∀ n : Nat, n = (lastSamples m j).length →
        ((j.echoes ≠ 16 ∨ j.dly.isSome ∨ j.dlyWait.isSome ∨ j.bad = true) →
          exec (.echo p hop rtt) s = .next (ended s (alignUpdate p (dFarUpdate p (correctDelay p g m))))) ∧
        (j.echoes = 16 → j.dly = none → j.dlyWait = none → j.bad = false →
          (sumInt (lastSamples m j) ≤ 32000000 * (n : Int) → exec (.echo p hop rtt) s = .next (ended s (alignUpdate p (dFarUpdate p
            (svcAdd p g true (if portSideB m p then 4 else 3) (BitVec.ofNat 32 (estUnits m j)) 8
              (modCal p g (fun y => { y with dlyWait := some (estUnits m j) }) m)))))) ∧
          (32000000 * (n : Int) < sumInt (lastSamples m j) → ¬ (hop = 0 ∧ (port s.toBlock p).st = .discover) →
            exec (.echo p hop rtt) s = .next (ended s (alignUpdate p (dFarUpdate p (markBad p g m))))) ∧
          (32000000 * (n : Int) < sumInt (lastSamples m j) → hop = 0 → (port s.toBlock p).st = .discover →
            exec (.echo p hop rtt) s = .next (ended s (alignUpdate p (dFarUpdate p (enterFail p 3
              (forEach ((upto (port s.toBlock p).cellsFound).map (cellAtHop m p)) (markBad p) m))))))))) ∧
    (∀ p, p < 128 → ∀ x, x = port s.toBlock p →
      (portUsed s.toBlock p = false ∨ stopped s.toBlock (6 + p / 16) = true ∨ (x.st ≠ .discover ∧ x.st ≠ .serve ∧ x.st ≠ .monitor) →
        exec (.timeMark p) s = .next (ended s s.toBlock)) ∧
      (portUsed s.toBlock p = true → stopped s.toBlock (6 + p / 16) = false → x.st = .discover ∨ x.st = .serve ∨ x.st = .monitor →
        ∀ t, t = gapAt x 120 (if x.markDue = true ∨ x.st = .discover ∨ x.markAt = 0 then s.now
          else max s.now (x.markAt + parDur s.toBlock 0x1102 4000000)) →
        ∃ m : Block, m = sendMark p t { s.toBlock with now := max s.now t } ∧
        port m p = { x with
          markAt := t, markNC := s.cyc.n, markLT := t % 2 ^ 30, markDue := false, markPH := markPhase s.toBlock t,
          setTx := markSet t (markPhase s.toBlock t) s.cyc.n } ∧
        exec (.timeMark p) s = .next (ended s (alignUpdate p (forEach (
          if x.st = .discover then (upto x.cellsFound).map (cellAtHop m p)
          else if portRing m p then (upto (strCells m p)).map (cellAtHop m p) else x.seg) (applyMark p) m)))) ∧
      (portUsed s.toBlock p = false ∨ x.st ≠ .discover ∨ r781 s.toBlock = false →
        exec (.discoverLimit p) s = .next (ended s s.toBlock)) ∧
      (portUsed s.toBlock p = true → x.st = .discover → r781 s.toBlock = true → exec (.discoverLimit p) s =
        .next (ended s { s.toBlock with now := max s.now (x.discAt + 4000000000) }))) ∧
    (∀ g, g < 6144 → ∀ a, a = cellArm s.toBlock g →
      ((cell s.toBlock g).bypReq = none → exec (.bypassUnconf g) s = .next (ended s s.toBlock) ∧ exec (.retUnconf g) s = .next (ended s s.toBlock)) ∧
      (∀ t, (cell s.toBlock g).bypReq = some t → ∀ n, n = max s.now (t + parDur s.toBlock (0x1040 + a) 4000000) →
        ((cell s.toBlock g).bypRet = false → exec (.retUnconf g) s = .next (ended s s.toBlock) ∧
          exec (.bypassUnconf g) s = .next (ended s (blockArm a 5 (modCell g (fun c => { c with bypReq := none }) { s.toBlock with now := n })))) ∧
        ((cell s.toBlock g).bypRet = true → exec (.bypassUnconf g) s = .next (ended s s.toBlock) ∧ ∃ b : Block, exec (.retUnconf g) s = .next (ended s b) ∧
          b.now = n ∧ cell b g = { cell s.toBlock g with bypReq := none, bypRet := false, tent := { (cell s.toBlock g).tent with retUnconf := true } } ∧
          (∀ j, j ≠ g → cell b j = cell s.toBlock j) ∧ arm b a = { arm s.toBlock a with retUnconf := true } ∧ (∀ j, j ≠ a → arm b j = arm s.toBlock j) ∧
          b.ev.raised = s.ev.raised ++ [230] ∧ { b with now := s.now, cells := s.cells, arms := s.arms, ev := s.ev } = s.toBlock))) ∧
    exec (.memUncorr 8) s = .next (ended s (raise evMemUncorr s.toBlock)) ∧
    (∀ pg, pg < 8 → ∃ b : Block, b = { s.toBlock with model := { s.model with pgStopped := setBit s.model.pgStopped pg true } } ∧
      exec (.memUncorr pg) s = .next (ended s (forEach (groupArms b pg) (fun a => blockArm a 4) (raise evPgStopped (raise evMemUncorr b)))))

/-! ### The Safe Pulse Block -/

/-- Chapter 15. `spbSettle` takes the state that latched causes and inputs give (Table 15-2). The reaction time it measures is a free
value (log entry 4). That input faults lead to DEMAND is the model's reading (log entry 21). -/
def Obligations.the_safe_pulse_block_and_its_inputs : Prop :=
  (∀ b : Block, b.spb.st ≠ .startup →
    (spbSettle b).spb.st = (if b.spb.st = .killed then .killed else if b.spb.latched ≠ 0 then .safe else if siDemand b ≠ 0 then .demand else .normal) ∧
    (spbSettle b).spb.soCmd = soOf b (spbSettle b).spb.st ∧
    { (spbSettle b).spb with
      st := b.spb.st, soCmd := b.spb.soCmd, soAt := b.spb.soAt, demandCnt := b.spb.demandCnt, reactLast := b.spb.reactLast,
      reactMax := b.spb.reactMax, lastBlock := b.spb.lastBlock } = b.spb ∧
    ((spbSettle b).spb.st ≠ b.spb.st → (spbSettle b).spb.st ≠ .normal → (spbSettle b).spb.lastBlock = b.now ∧
      ∀ a, a < 12 → armEnabled b a = true → (arm (spbSettle b) a).sw = false) ∧
    ((spbSettle b).spb.st ≠ b.spb.st → (spbSettle b).spb.st = .demand ∨ (spbSettle b).spb.st = .safe →
      (spbSettle b).spb.demandCnt = min (b.spb.demandCnt + 1) 65535)) ∧
  (∀ (b : Block) (k : Nat), siEnabled b k = true →
    (siDemandNow b k = true → bitAt (siEval k b).spb.siDem k = true ∧
      (bitAt b.spb.siDem k = false → (siEval k b).spb.cause = 1 ∧ (siEval k b).spb.causeItem = k ∧ (siEval k b).spb.newAt = fabric b.now + 1)) ∧
    (siDemandNow b k = false → siConsistent b k = true → siAuto b k = true → bitAt (siEval k b).spb.siDem k = false) ∧
    (siDemandNow b k = false → siAuto b k = false → (siEval k b).spb.siDem = b.spb.siDem)) ∧
  ∀ s : State, s.live →
    (∀ k B c, k < 8 → ∀ i, i = 2 * k + (if B then 1 else 0) →
      (s.spb.st = .killed ∨ c = contactClosed s.toBlock k B → exec (.siChange k B c) s = .next (ended s s.toBlock)) ∧
      (s.spb.st ≠ .killed → c ≠ contactClosed s.toBlock k B → ∀ b : Block, b = { s.toBlock with
          now := match tfind s.spb.contactAt i with | some t => max s.now (t + parDur s.toBlock (0xB018 + k) 4000) | none => s.now } →
        (inWindow b B = true → exec (.siChange k B c) s = .next (ended s b)) ∧
        (inWindow b B = false → exec (.siChange k B c) s = .next (ended s (spbSettle (siEval k { b with spb := { s.spb with
          siContact := setBit s.spb.siContact i c, contactAt := tput i b.now s.spb.contactAt } })))))) ∧
    (∀ B, ∀ i, i = (if B then 1 else 0) → ∀ n, n = (match tfind s.spb.pulseAt i with
        | some t => max s.now (t + 200000000)
        | none => match tfind s.spb.pulseAt (1 - i) with | some t => max s.now (t + 100000000) | none => s.now) →
      exec (.testPulse B) s = .next (ended s { s.toBlock with
        now := n, spb := { s.spb with pulseAt := tput i n s.spb.pulseAt, window := setBit s.spb.window i true } }) ∧
      ∀ o : BitVec 8, (bitAt s.spb.window i = false ∨ s.spb.st = .killed → exec (.testWindowEnd B o) s = .next (ended s s.toBlock)) ∧
        (bitAt s.spb.window i = true → s.spb.st ≠ .killed → exec (.testWindowEnd B o) s = .next (ended s (spbSettle (forEach
          ((upto 8).filter fun k => siEnabled s.toBlock k && contactClosed s.toBlock k B && !bitAt o.toNat k)
          (fun k t => inputFault k 3 { t with spb := { t.spb with tpFail := setBit t.spb.tpFail (2 * k + i) true } })
          { s.toBlock with now := max s.now (tget 0 s.spb.pulseAt i + 8000), spb := { s.spb with window := setBit s.spb.window i false } }))))) ∧
    (∀ k, k < 8 → (tfind s.spb.disc k = none ∨ siEnabled s.toBlock k = false ∨ s.spb.st = .killed → exec (.discrepancy k) s = .next (ended s s.toBlock)) ∧
      (∀ t, tfind s.spb.disc k = some t → siEnabled s.toBlock k = true → s.spb.st ≠ .killed → exec (.discrepancy k) s =
        .next (ended s (spbSettle (inputFault k 2 { s.toBlock with now := max s.now (t + parDur s.toBlock (0xB010 + k) 4000000) }))))) ∧
    (s.spb.st = .normal → exec .blockRepeat s = .next (ended s s.toBlock)) ∧
    (s.spb.st ≠ .normal → ∃ b : Block, exec .blockRepeat s = .next (ended s b) ∧
      b.spb = { s.spb with lastBlock := if s.spb.st = .killed then s.now else max s.now (s.spb.lastBlock + parDur s.toBlock 0xB061 4000) } ∧
      (∀ p ∈ s.ports.map (·.1), (s.ports.map (·.1)).Nodup → (port b p).blockSets =
        if (port s.toBlock p).st = .dark then (port s.toBlock p).blockSets else ((port s.toBlock p).blockSets + 4) % 2 ^ 32))

/-- Chapter 15, Table 15-4. `spbKill` is the shutdown path; `spbSettle` the state that follows (stated before). The challenge published
is a free value (log entry 4). -/
def Obligations.diagnostics_of_the_safe_pulse_block : Prop :=
  ∀ s : State, s.live →
    (∀ j v, j < 4 → ∀ b : Block, b = { s.toBlock with spb := { s.spb with soRb := setBit s.spb.soRb j v } } →
      (v = bitAt s.spb.soCmd j ∨ s.spb.st = .killed ∨ s.spb.st = .startup → exec (.soReadback j v) s = .next (ended s b)) ∧
      (v ≠ bitAt s.spb.soCmd j → s.spb.st ≠ .killed → s.spb.st ≠ .startup → exec (.soReadback j v) s = .next (ended s (spbSettle (spbLatch 4 j
        { b with now := max s.now (tget 0 s.spb.soAt j + 4000000), spb := { b.spb with soFault := setBit s.spb.soFault j true } }))))) ∧
    (∀ j c, j < 8 → ∀ v, v = (c != parB s.toBlock (0xB048 + j)) → ∀ n, n = (match tfind s.spb.fbAt j with
        | some t => max s.now (t + 4000000) | none => s.now) →
      exec (.fbChange j c) s = .next (ended s (if v = bitAt s.spb.fbState j then s.toBlock else { s.toBlock with
        now := n, spb := { s.spb with fbState := setBit s.spb.fbState j v, fbAt := tput j n s.spb.fbAt } }))) ∧
    (∀ j, j < 8 →
      (parB s.toBlock (0xB038 + j) = false ∨ fbDiffers s.toBlock j = false ∨ s.spb.st = .killed ∨ s.spb.st = .startup →
        exec (.feedback j) s = .next (ended s s.toBlock)) ∧
      (parB s.toBlock (0xB038 + j) = true → fbDiffers s.toBlock j = true → s.spb.st ≠ .killed → s.spb.st ≠ .startup →
        exec (.feedback j) s = .next (ended s (spbSettle (spbLatch 5 j { s.toBlock with
          now := max s.now (max (tget 0 s.spb.soAt (parN s.toBlock (0xB040 + j))) (tget 0 s.spb.fbAt j) + parDur s.toBlock (0xB058 + j) 4000000),
          spb := { s.spb with fbFault := setBit s.spb.fbFault j true } }))))) ∧
    (s.spb.st = .killed → ∀ u, exec .clock s = .next (ended s s.toBlock) ∧ exec .configCrc s = .next (ended s s.toBlock) ∧
      exec (.memory u) s = .next (ended s s.toBlock) ∧ exec .spbChallenge s = .next (ended s s.toBlock)) ∧
    (s.spb.st ≠ .killed →
      (∃ b : Block, exec .clock s = .next (ended s b) ∧ b.spb.st = .killed ∧ b.spb.soCmd = 0 ∧ bitAt b.spb.latched 6 = true ∧ b.spb.cause = 6 ∧
        evSpbDiagFault ∈ b.ev.raised ∧ ∀ a, a < 12 → armEnabled s.toBlock a = true → (arm b a).sw = false) ∧
      exec .configCrc s = .next (ended s (spbSettle (spbLatch 7 0 s.toBlock))) ∧
      exec (.memory true) s = .next (ended s (spbSettle (spbLatch 8 0 s.toBlock))) ∧
      exec (.memory false) s = .next (ended s { s.toBlock with spb := { s.spb with eccCorr := min (s.spb.eccCorr + 1) 65535 } }) ∧
      ∀ bad, bad = (if s.spb.challenge.isNone ∨ s.spb.returned = true then 0 else min 3 (s.spb.badReturns + 1)) →
        ∃ b : Block, exec .spbChallenge s = .next (ended s b) ∧
          b.now = (if s.spb.challenge.isNone then s.now else max s.now (s.spb.challengeAt + 40000000)) ∧ b.free = s.free + 1 ∧
          b.spb = { s.spb with
            challenge := some (BitVec.ofNat 16 (Config.freeWord s.free).toNat), returned := false, badReturns := bad, challengeAt := b.now,
            mpWdLost := s.spb.mpWdLost || decide (bad = 3) } ∧
          b.ev.raised = s.ev.raised ++ (if bad = 3 ∧ s.spb.mpWdLost = false then [evSpbWd] else []) ∧
          { b with now := s.now, free := s.free, spb := s.spb, ev := s.ev } = s.toBlock) ∧
    (∀ v c, s.spb.challenge = some c →
      (v = ~~~c → exec (.challengeReturn (some v)) s = .next (ended s { s.toBlock with spb :=
        { s.spb with mpBad := 0, returned := true, badReturns := 0, mpWdLost := false } })) ∧
      (v ≠ ~~~c → exec (.challengeReturn (some v)) s = .next (ended s { s.toBlock with spb := { s.spb with mpBad := 0 } }))) ∧
    (∀ v, s.spb.challenge = none → exec (.challengeReturn (some v)) s = .next (ended s { s.toBlock with spb := { s.spb with mpBad := 0 } })) ∧
    (s.spb.mpBad < 2 → exec (.challengeReturn none) s = .next (ended s { s.toBlock with spb := { s.spb with mpBad := s.spb.mpBad + 1 } })) ∧
    (2 ≤ s.spb.mpBad → exec (.challengeReturn none) s = .next (ended s (spbKill 12 { s.toBlock with spb := { s.spb with mpBad := 3 } }))) ∧
    (∀ f p m t, (s.spb.st ≠ .startup → exec (.spbStartupDone f p m t) s = .next (ended s s.toBlock)) ∧
      (s.spb.st = .startup → ∃ b : Block, exec (.spbStartupDone f p m t) s = .next (ended s b) ∧ b.spb.st = .safe ∧ b.spb.soCmd = 0 ∧
        (s.spb.flash.isSome = true ∧ (p = true ∨ m = true) → bitAt b.spb.latched 9 = true) ∧
        (s.spb.flash = none ∨ (p = false ∧ m = false) → bitAt b.spb.latched 10 = true) ∧
        b.rst.mirrorUsed = (s.rst.mirrorUsed || (s.spb.flash.isSome && p != m)))) ∧
    exec .passwordLockoutEnd s = .next (ended s (if s.spb.pwLock = true then
      { s.toBlock with now := max s.now s.spb.pwLockEnd, spb := { s.spb with pwLock := false, pwTries := 0 } } else s.toBlock))

/-! ### Governor, injections, repetitive controllers, Fantails and ramps -/

/-- Chapters 7 and 8. `govRun` is the procedure of R266 with its injection, `rpcRead` the read rd(z) of R311. The binary32 operations
round each step; sine, arctangent and their kind are within the bounds of the spec (log entry 4). That START is refused while running is the model's reading (log
entry 17). -/
def Obligations.governor_calls_injections_and_repetitive_controllers : Prop :=
  ∀ s : State, s.live →
    (∀ e err, e < 8 → err < 3 → ((engineOf s.toBlock e).queue = [] → exec (.govCall e err) s = .next (ended s s.toBlock)) ∧
      (∀ r t, (engineOf s.toBlock e).queue = r :: t →
        ∀ b : Block, b = modEngine e (fun x => match x.stalled with
            | [] => { x with queue := x.queue.drop 1 } | w :: u => { x with queue := x.queue.drop 1 ++ [w], stalled := u }) s.toBlock →
        ∀ (o : GovOut) (c : Block), (o, c) = govRun r err b →
        (err ≠ 0 → o.status = 4) ∧
        (¬ ((core c r.core).task = some r.task ∧ (core c r.core).wait = .gov) → exec (.govCall e err) s = .next (ended s c)) ∧
        ((core c r.core).task = some r.task → (core c r.core).wait = .gov → ∀ d, d = modCore r.core (fun x => { x with wait := .none }) c →
          (o.status ≠ 4 → exec (.govCall e err) s =
            .next (ended s (finishBlock r.core r.task (blkWrite r.blk { outs := [some o.y, some (BitVec.ofInt 32 o.sat), some (BitVec.ofInt 32 o.status)] } d)))) ∧
          (o.status = 4 → exec (.govCall e err) s =
            .next (ended s (blockFault r.core r.task r.blk 2 (blkWrite r.blk { outs := [none, none, some (BitVec.ofInt 32 o.status)] } d))))))) ∧
    (∀ e, e < 8 →
      exec (.injStart e) s = .next (ended s (if injStartOk s.toBlock e then modEngine e (fun x => { x with startAt := some s.now }) s.toBlock else s.toBlock)) ∧
      (injStartOk s.toBlock e = true → injBusy (engineOf s.toBlock e) = false) ∧
      (injAbortLate s.toBlock e = true ↔ (engineOf s.toBlock e).st = .done ∨ (injBusy (engineOf s.toBlock e) = true ∧
        ∃ d, injEnd s.toBlock e = some d ∧ fabric ((engineOf s.toBlock e).t0Start + (qceil d).toNat) ≤ fabric s.now)) ∧
      exec (.injAbort e) s = .next (ended s (if injAbortLate s.toBlock e = false ∧ (injBusy (engineOf s.toBlock e) = true ∨ (engineOf s.toBlock e).startAt.isSome = true) then
        modEngine e (fun x => { x with abortAt := some s.now }) s.toBlock else s.toBlock)) ∧
      (injEnd s.toBlock e = none ∨ injBusy (engineOf s.toBlock e) = false → exec (.govInjDone e) s = .next (ended s s.toBlock)) ∧
      (∀ d a, injEnd s.toBlock e = some d → (engineOf s.toBlock e).abortAt = some a →
        fabric a < fabric ((engineOf s.toBlock e).t0Start + (qceil d).toNat) → exec (.govInjDone e) s = .next (ended s s.toBlock)) ∧
      (∀ d, injEnd s.toBlock e = some d → injBusy (engineOf s.toBlock e) = true →
        (∀ a, (engineOf s.toBlock e).abortAt = some a → fabric ((engineOf s.toBlock e).t0Start + (qceil d).toNat) ≤ fabric a) → ∀ n, n = max s.now ((engineOf s.toBlock e).t0Start + (qceil d).toNat) →
        exec (.govInjDone e) s = .next (ended s (raise evGovInjDone (modEngine e (fun x => { x with
          st := .done, doneAt := n, abortAt := none, resultValid := if injMode s.toBlock e = 3 then true else x.resultValid,
          gain := if injMode s.toBlock e = 3 then d2f (ddiv (hypotD x.ir x.qr) (hypotD x.iu x.qu)) else x.gain,
          phase := if injMode s.toBlock e = 3 then injPhase x.ir x.qr x.iu x.qu else x.phase }) { s.toBlock with now := n }))))) ∧
    (∀ r e fz reset, r < 16 → ∀ x, x = rpc s.toBlock r →
      (∀ y, x.last = some (s.cyc.t0, y) → exec (.rpcCall r e fz reset) s = .next (ended s (modRpc r (fun x => { x with multi := true }) s.toBlock))) ∧
      ((∀ y, x.last ≠ some (s.cyc.t0, y)) → ∃ b : Block, exec (.rpcCall r e fz reset) s = .next (ended s b) ∧
        (∀ j, j ≠ r → rpc b j = rpc s.toBlock j) ∧ { b with eng := s.eng, ev := s.ev } = s.toBlock ∧ b.eng.fant = s.eng.fant ∧ b.eng.ramp = s.eng.ramp ∧
        ∀ ft, ft = fant s.toBlock (rpcW s.toBlock r 0).toNat → ∀ m, m = (rpcW s.toBlock r 1).toNat → ∀ mem, mem = (if reset then [] else x.mem) →
        ∀ p, p = r64 (.fin false (ft.angle * m) (-32)) →
        ∀ y, y = rpcRead m mem (dadd p (dmul (dmul (dmul (f2d (rpcW s.toBlock r 4)) (f2d ft.freq)) (tcD s.toBlock)) (r64 (fvOfInt m 0)))) →
        ∀ out, out = fmin (fmax y (fneg (rpcW s.toBlock r 5))) (rpcW s.toBlock r 5) →
        (rpc b r).last = some (s.cyc.t0, out) ∧ (rpc b r).outLim = !feq out y ∧ (rpc b r).multi = x.multi ∧
        ((rpc b r).frozen = true ↔ fz = true ∨ (rpcW s.toBlock r 6 ≠ 0#32 ∧ ft.locked = false) ∨ isFinite32 e = false) ∧
        ((rpc b r).frozen = true → (rpc b r).mem = mem) ∧
        (∀ j, j = (fvFloor (v64 p) % ((max 1 m : Nat) : Int)).toNat →
          (rpc b r).wrote = some (j, tget f32Zero (rpc b r).mem j, tget f32Zero (rpc b r).mem ((j + 1) % max 1 m), reset)) ∧
        ((rpc b r).frozen = false → ∀ k, k = fvFloor (v64 p) → ∀ j, j = (k % ((max 1 m : Nat) : Int)).toNat → ∀ w, w = d2f (dsub p (r64 (fvOfInt k 0))) →
          ∀ dv, dv = fsub (fadd (fmul (rpcW s.toBlock r 3) (rpcRead m mem p)) (fmul (rpcW s.toBlock r 2) e)) (rpcRead m mem p) →
          ∀ a, a = fadd (tget f32Zero mem j) (fmul (fsub f32One w) dv) →
          (∀ i, i ≠ j → i ≠ (j + 1) % max 1 m → tget f32Zero (rpc b r).mem i = tget f32Zero mem i) ∧
          (j ≠ (j + 1) % max 1 m → tget f32Zero (rpc b r).mem j = a ∧
            tget f32Zero (rpc b r).mem ((j + 1) % max 1 m) = fadd (tget f32Zero mem ((j + 1) % max 1 m)) (fmul w dv)))))

/-- Chapter 8. `followStep` is the procedure of R297. STOP, FLUSH and SET wait in the channel for the next t0. A stream step takes the
latest stream samples (log entry 17). -/
def Obligations.fantails_gears_and_ramp_commands : Prop :=
  (∀ (i : Nat) (xa xb xc : F32) (h : F32) (hd : F64) (t : Nat) (b : Block), (followStep i xa xb xc false h hd t b).1 = (fant b i).th ∧
    (fant (followStep i xa xb xc false h hd t b).2 i).f = (fant b i).f ∧ (fant (followStep i xa xb xc false h hd t b).2 i).integ = (fant b i).integ ∧
    (fant (followStep i xa xb xc false h hd t b).2 i).ampLow = true ∧ (fant (followStep i xa xb xc false h hd t b).2 i).locked = false ∧
    (fant (followStep i xa xb xc false h hd t b).2 i).th = advance (fant b i).th (fant b i).f hd) ∧
  ∀ s : State, s.live →
    (∀ i v, i < 4 → exec (.ftDroop i v) s = .next (ended s (if isFinite32 v = true then
      modFant i (fun x => { x with droops := x.droops ++ [(s.now, v)] }) s.toBlock else s.toBlock))) ∧
    (∀ i, i < 4 → ∀ k : Nat → Nat, k = (fun n => (ftW s.toBlock i n).toNat) →
      (ftMode s.toBlock i = 1 → (fant s.toBlock i).form = false → k 5 = 1 →
        ((fant s.toBlock i).tookT0 = true ∧ s.now = s.cyc.t0 → exec (.ftStreamStep i) s = .next (ended s (modFant i (fun x => { x with tookT0 := false }) s.toBlock))) ∧
        (¬ ((fant s.toBlock i).tookT0 = true ∧ s.now = s.cyc.t0) → ∀ th c, (th, c) = followStep i
            (streamLast s.toBlock (k 2)) (streamLast s.toBlock (k 3)) (streamLast s.toBlock (k 4))
            ((ainVal s.toBlock (k 2)).valid && (ainVal s.toBlock (k 3)).valid && (ainVal s.toBlock (k 4)).valid) 0x350637BD#32 0x3EA0C6F7A0B5ED8D#64 s.now s.toBlock →
          ∀ d, d = modFant i (fun x => { x with outAt := some (c.now, th), tookT0 := false }) c →
          exec (.ftStreamStep i) s = .next (ended s (if d.cyc.started = true ∧ d.now = d.cyc.t0 then
            rpcSparse (forEach (upto 4) gearFreq (modFant i (fun x => { x with freq := x.f }) d)) else d)))) ∧
      (ftMode s.toBlock i ≠ 1 ∨ (fant s.toBlock i).form = true ∨ k 5 ≠ 1 → exec (.ftStreamStep i) s = .next (ended s s.toBlock)) ∧
      ((fant s.toBlock i).lockFrom = none ∨ ftMode s.toBlock i ≠ 1 ∨ (fant s.toBlock i).form = true → exec (.ftLock i) s = .next (ended s s.toBlock)) ∧
      (∀ a, (fant s.toBlock i).lockFrom = some a → ftMode s.toBlock i = 1 → (fant s.toBlock i).form = false →
        ∀ b : Block, b = { s.toBlock with now := max s.now (a + parDur s.toBlock (0x5000 + 64 * i + 0xE) 4000000) } →
        exec (.ftLock i) s = .next (ended s (if (fant s.toBlock i).locked = true then b else raise evFtLock (modFant i (fun x => { x with locked := true }) b)))) ∧
      ((fant s.toBlock i).armed = none → exec (.gearArm i) s = .next (ended s (modFant i (fun x => { x with armed := some s.now }) s.toBlock))) ∧
      ((fant s.toBlock i).armed.isSome = true → exec (.gearArm i) s = .next (ended s s.toBlock)) ∧
      ((fant s.toBlock i).armed = none ∨ landsNow s.toBlock i = true → exec (.gearCancel i) s = .next (ended s s.toBlock)) ∧
      ((fant s.toBlock i).armed.isSome = true → landsNow s.toBlock i = false →
        exec (.gearCancel i) s = .next (ended s (modFant i (fun x => { x with armed := none }) s.toBlock)))) ∧
    (∀ c xt vc, c < 32 → ∀ (post : Instr) (o : Nat), (post = .rampMove c xt vc ∧ o = 0) ∨ (∃ core, core < 16 ∧ post = .rampPost c core xt vc ∧ o = 1 + core) →
      (isFinite32 xt = false ∨ isFinite32 vc = false ∨ flt f32Zero vc = false → exec post s = .next (ended s s.toBlock)) ∧
      (isFinite32 xt = true → isFinite32 vc = true → flt f32Zero vc = true →
        (8 ≤ (ramp s.toBlock c).queue.length + (ramp s.toBlock c).posted.length →
          ((∀ m ∈ (ramp s.toBlock c).posted, fabric m.1 = fabric s.now → m.2.1 ≤ o) → exec post s =
            .next (ended s (raise evRmpFull (modRamp c (fun x => { x with fullSeen := true }) s.toBlock)))) ∧
          ((∃ m ∈ (ramp s.toBlock c).posted, fabric m.1 = fabric s.now ∧ o < m.2.1) →
            ∃ p ∈ (ramp s.toBlock c).posted, fabric p.1 = fabric s.now ∧ o < p.2.1 ∧
              (∀ m ∈ (ramp s.toBlock c).posted, fabric m.1 = fabric s.now → m.2.1 ≤ p.2.1) ∧
              ∃ b : Block, exec post s = .next (ended s b) ∧ (ramp b c).posted = (ramp s.toBlock c).posted.erase p ++ [(s.now, o, ⟨xt, vc⟩)] ∧
                (ramp b c).fullSeen = true ∧ b.ev.raised = s.ev.raised ++ [evRmpFull] ∧ { b with eng := { b.eng with ramp := s.eng.ramp }, ev := s.ev } = s.toBlock)) ∧
        ((ramp s.toBlock c).queue.length + (ramp s.toBlock c).posted.length < 8 → exec post s =
          .next (ended s (modRamp c (fun x => { x with posted := x.posted ++ [(s.now, o, ⟨xt, vc⟩)] }) s.toBlock))))) ∧
    (∀ c, c < 32 → ∀ hn, hn = ((ramp s.toBlock c).posted.filter fun m => fabric m.1 = fabric s.now && m.2.1 = 0).length →
      exec (.rampStop c) s = .next (ended s (if (ramp s.toBlock c).queue = [] ∧ (ramp s.toBlock c).posted = [] then s.toBlock else
        modRamp c (fun x => { x with cmds := x.cmds ++ [(s.now, hn, .stop)] }) s.toBlock)) ∧
      exec (.rampFlush c) s = .next (ended s (modRamp c (fun x => { x with cmds := x.cmds ++ [(s.now, hn, .flush)] }) s.toBlock)) ∧
      ∀ v, exec (.rampSet c v) s = .next (ended s (if (ramp s.toBlock c).queue = [] ∧ (ramp s.toBlock c).posted = [] then
        modRamp c (fun x => { x with cmds := x.cmds ++ [(s.now, hn, .set v)] }) s.toBlock else s.toBlock)))

/-! ### The converter sequence and the station contacts -/

/-- Chapter 14. `deblockRefusal` is the first reason of Table 14-7 against an arm, 0 for none; `hostBlock` blocks the arms that switch or
wait; `openBreakers` and `enterDown` lead to DISCHARGE. The order of the checks where the spec gives none, and ABORT's answer in
CHARGED, RUN and BLOCKED, are the model's (log entry 15). -/
def Obligations.the_host_commands_of_the_sequence : Prop :=
  (∀ k b, (seqResult k b).seq = { b.seq with cmdResult := k, refuseArm := if k = 8 then b.seq.refuseArm else 255 } ∧
    (seqResult k b).ev.raised = b.ev.raised ++ (if 2 ≤ k then [evSeqRefused] else []) ∧ ∀ x, { seqResult k b with seq := b.seq, ev := x } = { b with ev := x }) ∧
  ∀ s : State, s.live →
    (∀ r, r = (if s.seq.state ≠ .ready ∨ s.pwr.state ≠ .run ∨ s.rst.debugOpen = true then 2 else if isActive s.toBlock = false then 3
        else if scClosed s.toBlock (mainAux s.toBlock) = true ∨ scUnrel s.toBlock (mainAux s.toBlock) = true ∨ scClosed s.toBlock (bypassAux s.toBlock) = true ∨
          scUnrel s.toBlock (bypassAux s.toBlock) = true then 4
        else if permitOk s.toBlock = false then 5 else if spbDemands s.toBlock = true then 6 else if globalTripLatched s.toBlock = true then 7 else 0) →
      (r ≠ 0 → exec .energize s = .next (ended s (seqResult r s.toBlock))) ∧
      (r = 0 → ∃ b : Block, exec .energize s = .next (ended s b) ∧ b.seq.state = .energize ∧ b.seq.step = 1 ∧ b.seq.stepAt = s.now ∧ b.seq.cmdResult = 0 ∧
        b.seq.mainConfirmed = none ∧ b.seq.bypassConfirmed = none ∧ b.seq.discoveryEnded = false ∧ b.seq.tripMain = false ∧
        bitAt b.seq.cmdLevel (cmdMain s.toBlock) = !bitAt s.trip.opened (cmdMain s.toBlock) ∧ (∀ a, a < 12 → arm b a = { arm s.toBlock a with blockCause := 0 }) ∧
        evSeqState ∈ b.ev.raised ∧ { b with seq := s.seq, arms := s.arms, ev := s.ev, cells := s.cells } = s.toBlock)) ∧
    (isActive s.toBlock = false → ∀ a, a < 16 → ∀ c ∈ [Instr.abort, .deblock, .block, .discharge, .faultReset, .deblockArm a, .blockArm a],
      exec c s = .next (ended s (seqResult 3 s.toBlock))) ∧
    (isActive s.toBlock = true →
      (∀ k, stepFails s.toBlock = some k → s.seq.state = .energize →
        exec .abort s = .next (ended s (seqFault k (stepItem s.toBlock k) (seqResult 2 s.toBlock)))) ∧
      (stepFails s.toBlock = none → s.seq.state = .energize → s.seq.step = 3 → closesNow s.toBlock (bypassAux s.toBlock) = true →
        exec .abort s = .next (ended s (seqResult 1 s.toBlock))) ∧
      (∀ b : Block, b = { openBreakers s.toBlock with seq := { (openBreakers s.toBlock).seq with step := 0, stepAt := s.now } } → s.seq.state = .energize →
        stepFails s.toBlock = none → s.seq.step ≠ 3 ∨ closesNow s.toBlock (bypassAux s.toBlock) = false → exec .abort s = .next (ended s (seqResult 0 (if charged b then enterDown .discharge b else setConv .ready (portsToDiscovery b))))) ∧
      (s.seq.state = .charged ∨ s.seq.state = .run ∨ s.seq.state = .blocked → exec .abort s = .next (ended s (seqResult 1 s.toBlock))) ∧
      (s.seq.state = .await ∨ s.seq.state = .ready ∨ s.seq.state = .discharge ∨ s.seq.state = .fault → exec .abort s = .next (ended s (seqResult 2 s.toBlock))) ∧
      (deblockState s.toBlock = (decide (s.pwr.state = .run) && energised s.toBlock)) ∧
      (energised s.toBlock = true ↔ s.seq.state = .charged ∨ s.seq.state = .run ∨ s.seq.state = .blocked) ∧
      (deblockState s.toBlock = false → ∀ a, a < 16 → ∀ c ∈ [Instr.deblock, .deblockArm a], exec c s = .next (ended s (seqResult 2 s.toBlock))) ∧
      (energised s.toBlock = false → ∀ a, a < 16 → ∀ c ∈ [Instr.block, .discharge, .blockArm a], exec c s = .next (ended s (seqResult 2 s.toBlock))) ∧
      (deblockState s.toBlock = true →
        (∀ l, l = (enabledArms s.toBlock).filter (fun a => !switching s.toBlock a) → ∃ b : Block, exec .deblock s = .next (ended s b) ∧
          ((∀ a ∈ l, deblockRefusal s.toBlock a = 0) → b.seq.cmdResult = 0 ∧
            ∀ a ∈ l, arm b a = { arm s.toBlock a with deblockRefuse := 0, deblockWait := some true }) ∧
          (∀ f, l.find? (fun a => deblockRefusal s.toBlock a ≠ 0) = some f → b.seq.cmdResult = 8 ∧ b.seq.refuseArm = f ∧
            ∀ a ∈ l, arm b a = { arm s.toBlock a with deblockRefuse := deblockRefusal s.toBlock a }) ∧ (∀ a, a ∉ l → arm b a = arm s.toBlock a)) ∧
        (∀ a, a < 16 → ∀ b : Block, b = (if a < 12 then modArm a (fun x => { x with deblockRefuse := deblockRefusal s.toBlock a }) s.toBlock else s.toBlock) →
          (deblockRefusal s.toBlock a ≠ 0 → exec (.deblockArm a) s = .next (ended s (seqResult 8 { b with seq := { b.seq with refuseArm := a } }))) ∧
          (deblockRefusal s.toBlock a = 0 → switching s.toBlock a = true → exec (.deblockArm a) s = .next (ended s (seqResult 0 b))) ∧
          (deblockRefusal s.toBlock a = 0 → switching s.toBlock a = false → exec (.deblockArm a) s =
            .next (ended s (seqResult 0 (modArm a (fun x => { x with deblockWait := some false }) b)))))) ∧
      (energised s.toBlock = true →
        (∃ b : Block, exec .block s = .next (ended s b) ∧ b = hostBlock (enabledArms s.toBlock) (seqResult 0 s.toBlock) ∧
          ∀ a, a < 12 → armEnabled s.toBlock a = true → (arm b a).sw = false) ∧
        exec .discharge s = .next (ended s (enterDown .discharge (openBreakers (
          if s.seq.state = .run then hostBlock (enabledArms s.toBlock) (seqResult 0 s.toBlock) else seqResult 0 s.toBlock)))) ∧
        (∀ a, a < 16 →
          (armEnabled s.toBlock a = true → ∃ c : Block, exec (.blockArm a) s = .next (ended s c) ∧ c = hostBlock [a] (seqResult 0 s.toBlock) ∧ (arm c a).sw = false) ∧
          (armEnabled s.toBlock a = false → exec (.blockArm a) s = .next (ended s (seqResult 8 { (if a < 12 then modArm a (fun x => { x with deblockRefuse := 10 }) s.toBlock else s.toBlock) with
            seq := { s.seq with refuseArm := a } }))))) ∧
      (s.seq.state ≠ .fault → exec .faultReset s = .next (ended s (seqResult 2 s.toBlock))) ∧
      (s.seq.state = .fault → ∀ k, k = (if cellsDischarged s.toBlock = false then 9 else if breakersOpen s.toBlock = false then 4 else 0) →
        (k ≠ 0 → exec .faultReset s = .next (ended s (seqResult k s.toBlock))) ∧
        (k = 0 → ∃ b : Block, { b with seq := { b.seq with scUnrel := s.seq.scUnrel } } = s.toBlock ∧
          (∀ c, c < 16 → (bitAt b.seq.scUnrel c = true ↔ bitAt s.seq.scUnrel c = true ∧ rawStable s.toBlock c = false)) ∧
          (((onesBelow b.seq.scUnrel 16).any (isRole b)) = true → exec .faultReset s = .next (ended s (seqResult 10 b))) ∧
          (((onesBelow b.seq.scUnrel 16).any (isRole b)) = false → exec .faultReset s =
            .next (ended s (seqResult 0 (setConv .ready { b with seq := { b.seq with faultCause := 0, faultItem := 0 } })))))))

/-- R530 and Table 14-6. The lower code of one fabric cycle is kept; codes 1 to 4 and 11 move also from DISCHARGE and FAULT. A timeout whose
step is no longer under way changes nothing (log entry 1). What the block may change when it goes down is named: the sequence, the
arms, ports, cells and events. -/
def Obligations.a_fault_takes_the_converter_down : Prop :=
  (∀ cause item (b : Block), (isActive b = false → seqFault cause item b = b) ∧ (isActive b = true → ∀ f, f = seqFault cause item b →
    f.seq.faultLast = cause ∧
    (b.seq.faultCause = 0 ∨ (fabric b.seq.faultAt = fabric b.now ∧ cause < b.seq.faultCause) → f.seq.faultCause = cause ∧ f.seq.faultItem = item) ∧
    (b.seq.faultCause ≠ 0 ∧ (fabric b.seq.faultAt = fabric b.now → b.seq.faultCause ≤ cause) → f.seq.faultCause = b.seq.faultCause ∧ f.seq.faultItem = b.seq.faultItem) ∧
    (4 < cause ∧ cause ≠ 11 ∧ (b.seq.state = .fault ∨ (b.seq.state = .discharge ∧
        ¬ ((b.seq.faultCause = 0 ∨ (fabric b.seq.faultAt = fabric b.now ∧ cause < b.seq.faultCause)) ∧ fabric b.seq.stepAt = fabric b.now))) →
      f.seq.state = b.seq.state ∧ { f with seq := b.seq } = raise evSeqFault b) ∧
    (cause ≤ 4 ∨ cause = 11 ∨ (b.seq.state ≠ .fault ∧ (b.seq.state = .discharge →
        (b.seq.faultCause = 0 ∨ (fabric b.seq.faultAt = fabric b.now ∧ cause < b.seq.faultCause)) ∧ fabric b.seq.stepAt = fabric b.now)) →
      f.seq.state = (if cause ≤ 4 ∨ cause = 11 then .fault else if b.seq.state ≠ .ready ∧ charged b = true then .discharge else .fault) ∧ f.seq.step = 0 ∧
      (∀ a, a < 12 → armEnabled b a = true → (arm f a).sw = false) ∧ bitAt f.seq.cmdLevel (cmdMain b) = false ∧
      (scClosed b (mainAux b) = false → bitAt f.seq.cmdLevel (cmdBypass b) = false) ∧
      { f with seq := b.seq, arms := b.arms, ports := b.ports, cells := b.cells, ev := b.ev } = b))) ∧
  ∀ s : State, s.live →
    (isActive s.toBlock = false → ∀ y, ∀ c ∈ [Instr.mainConfirmTimeout, .bypassConfirmTimeout, .chargeTimeout, .dischargeTimeout, .breakerStuck y, .discoveryEnd, .bypassOpen],
      exec c s = .next (ended s s.toBlock)) ∧
    (isActive s.toBlock = true →
      (s.seq.state = .energize → s.seq.step = 1 → exec .mainConfirmTimeout s = .next (ended s (seqFault 5 (mainAux s.toBlock) (atTime (s.seq.stepAt + breakerTime s.toBlock) s.toBlock)))) ∧
      (s.seq.state ≠ .energize ∨ s.seq.step ≠ 1 → exec .mainConfirmTimeout s = .next (ended s s.toBlock)) ∧
      (s.seq.state = .energize → s.seq.step = 3 → exec .bypassConfirmTimeout s = .next (ended s (seqFault 6 (bypassAux s.toBlock) (atTime (s.seq.stepAt + breakerTime s.toBlock) s.toBlock)))) ∧
      (s.seq.state ≠ .energize ∨ s.seq.step ≠ 3 → exec .bypassConfirmTimeout s = .next (ended s s.toBlock)) ∧
      (∀ t, s.seq.mainConfirmed = some t → s.seq.state = .energize → s.seq.step = 2 →
        exec .chargeTimeout s = .next (ended s (seqFault 10 0 (atTime (t + parDur s.toBlock 0xA032 sU) s.toBlock)))) ∧
      (s.seq.mainConfirmed = none ∨ s.seq.state ≠ .energize ∨ s.seq.step ≠ 2 → exec .chargeTimeout s = .next (ended s s.toBlock)) ∧
      (s.seq.state = .discharge → exec .dischargeTimeout s = .next (ended s (seqFault 11 0 (atTime (s.seq.stepAt + parDur s.toBlock 0xA034 sU) s.toBlock)))) ∧
      (s.seq.state ≠ .discharge → exec .dischargeTimeout s = .next (ended s s.toBlock)) ∧
      (∀ y c on off k, c = (if y = true then bypassAux s.toBlock else mainAux s.toBlock) → on = (if y = true then bypassOn s.toBlock else mainOn s.toBlock) →
        off = (if y = true then s.seq.bypassOffAt else s.seq.mainOffAt).getD 0 → k = (if y = true then 1 else 0) →
        (s.seq.state ≠ .await → on = false → scClosed s.toBlock c = true → bitAt s.seq.stuck k = false → ∀ b, b = atTime (off + breakerTime s.toBlock) s.toBlock →
          exec (.breakerStuck y) s = .next (ended s (seqFault 4 c { b with seq := { b.seq with stuck := setBit b.seq.stuck k true } }))) ∧
        (s.seq.state = .await ∨ on = true ∨ scClosed s.toBlock c = false ∨ bitAt s.seq.stuck k = true → exec (.breakerStuck y) s = .next (ended s s.toBlock))) ∧
      (∀ t, s.seq.mainConfirmed = some t → s.seq.state = .energize → s.seq.discoveryEnded = false →
        ∀ b, b = (if discoveryComplete s.toBlock = true then s.toBlock else atTime (t + parDur s.toBlock 0xA031 sU) s.toBlock) →
        ∀ d, d = forEach ((upto 128).filter (portUsed (forEach (b.cells.map (·.1)) discoveryFault b))) discoveryPort (forEach (b.cells.map (·.1)) discoveryFault b) →
          exec .discoveryEnd s = .next (ended s (closeBypass { d with seq := { d.seq with discoveryEnded := true, checkCells := true } }))) ∧
      (s.seq.mainConfirmed = none ∨ s.seq.state ≠ .energize ∨ s.seq.discoveryEnded = true → exec .discoveryEnd s = .next (ended s s.toBlock)) ∧
      (∀ t, s.seq.opening = some t → ∃ b : Block, exec .bypassOpen s = .next (ended s b) ∧
        b.now = (if scClosed s.toBlock (mainAux s.toBlock) = true then max s.now (t + breakerTime s.toBlock) else s.now) ∧
        b.seq.opening = none ∧ bitAt b.seq.cmdLevel (cmdBypass s.toBlock) = false ∧ { b with seq := s.seq, now := s.now } = s.toBlock) ∧
      (s.seq.opening = none → exec .bypassOpen s = .next (ended s s.toBlock)))

/-- R507 to R511. `contactActs` is what a new debounced level means for the sequence: its confirmations are written out. An edge of the
acknowledge contact acknowledges the Safe Pulse Block (R554). -/
def Obligations.the_station_contacts_and_outputs : Prop :=
  (∀ c k (b : Block), ∀ u, u = raise evContactUnreliable { b with seq := { b.seq with
      scUnrel := setBit b.seq.scUnrel c true, contacts := tmod {} b.seq.contacts c fun x => { x with unrel := k } } } →
    ((c = mainAux b ∨ c = bypassAux b) ∧ b.seq.state ≠ .await ∧ b.seq.state ≠ .fault → contactUnreliable c k b = seqFault k c u) ∧
    ((c ≠ mainAux b ∧ c ≠ bypassAux b) ∨ b.seq.state = .await ∨ b.seq.state = .fault → contactUnreliable c k b = u)) ∧
  (∀ c (b : Block),
    (isActive b = true → c = mainAux b → scClosed b c = true → b.seq.state = .energize → b.seq.step = 1 →
      contactActs c b = { b with seq := { b.seq with step := 2, stepAt := b.now, mainConfirmed := some b.now } }) ∧
    (isActive b = false ∨ (c ≠ mainAux b ∧ c ≠ bypassAux b ∧ b.seq.state ≠ .discharge) → contactActs c b = b)) ∧
  ∀ s : State, s.live → ∀ c, c < 16 → ∀ x, x = tget {} s.seq.contacts c →
    (∀ v closed, closed = (v != parB s.toBlock (0xA010 + c)) →
      (closed ≠ bitAt s.seq.scRaw c → exec (.scRawChange c v) s = .next (ended s { s.toBlock with seq := { s.seq with
        scRaw := setBit s.seq.scRaw c closed,
        contacts := tmod {} s.seq.contacts c fun x => { x with rawAt := s.now, moving := true, unsettledFrom := x.unsettledFrom <|> some s.now } } })) ∧
      (closed = bitAt s.seq.scRaw c → exec (.scRawChange c v) s = .next (ended s s.toBlock))) ∧
    (x.moving = false → exec (.contactDebounce c) s = .next (ended s s.toBlock)) ∧
    (x.moving = true → ∀ b, b = atTime (x.rawAt + parDur s.toBlock (0xA000 + c) msU) s.toBlock →
      (bitAt s.seq.scRaw c = scClosed s.toBlock c → exec (.contactDebounce c) s = .next (ended s { b with seq := { b.seq with
        contacts := tmod {} b.seq.contacts c fun x => { x with moving := false, unsettledFrom := none } } })) ∧
      (bitAt s.seq.scRaw c ≠ scClosed s.toBlock c → ∀ l, l = (x.changes.filter fun t => decide (b.now < t + sU)) ++ [b.now] →
        ∀ d, d = contactActs c (raise evContactChange { b with seq := { b.seq with
          scState := setBit b.seq.scState c (bitAt s.seq.scRaw c),
          contacts := tmod {} b.seq.contacts c fun x => { x with moving := false, unsettledFrom := none, changes := l } } }) →
        ∀ e, e = (if 4 ≤ l.length ∧ scUnrel d c = false then contactUnreliable c 1 d else d) →
        exec (.contactDebounce c) s = .next (ended s (
          if parN e 0xB060 = c ∧ scClosed s.toBlock c = false ∧ scClosed e c = true ∧ scUnrel e c = false then (spbAck e).2.2.2 else e)))) ∧
    (x.unsettledFrom = none → exec (.contactUnsettled c) s = .next (ended s s.toBlock)) ∧
    (∀ t, x.unsettledFrom = some t → ∀ b, b = atTime (t + sU) s.toBlock → ∀ d, d = { b with seq := { b.seq with
        contacts := tmod {} b.seq.contacts c fun x => { x with unsettledFrom := none } } } →
      exec (.contactUnsettled c) s = .next (ended s (if scUnrel s.toBlock c = true then d else contactUnreliable c 2 d))) ∧
    (∀ m, ∃ b : Block, exec (.scUnrelClr m) s = .next (ended s b) ∧ { b with seq := { b.seq with scUnrel := s.seq.scUnrel } } = s.toBlock ∧
      (bitAt b.seq.scUnrel c = true ↔ bitAt s.seq.scUnrel c = true ∧
        ¬ (bitAt m.toNat c = true ∧ isRole s.toBlock c = false ∧ rawStable s.toBlock c = true))) ∧
    (∀ v, ∃ b : Block, exec (.cmdHost v) s = .next (ended s b) ∧ b.seq.cmdHost = v.toNat % 256 ∧
      { b with seq := { b.seq with cmdHost := s.seq.cmdHost, cmdLevel := s.seq.cmdLevel } } = s.toBlock ∧
      (isActive s.toBlock = false → b.seq.cmdLevel = s.seq.cmdLevel) ∧
      (isActive s.toBlock = true → ∀ k, bitAt b.seq.cmdLevel k =
        if k < 8 ∧ k ≠ cmdMain s.toBlock ∧ k ≠ cmdBypass s.toBlock then bitAt (v.toNat % 256) k && !bitAt s.trip.opened k else bitAt s.seq.cmdLevel k))

/-! ### Station time and PTP -/

/-- R684 to R687. `fromMaster` and `peerMsg` say which messages count; `stFine` is station time in units of 2^-16 ns. The offset is
receive time less origin, path delay and half the asymmetry (log entry 22); the instant of a rate change is a free value
(log entry 4), so the statement names the field it comes from. -/
def Obligations.a_measurement_feeds_the_servo : Prop :=
  (∀ (o : Int) (b : Block), ∀ f, f = ptpServo o b →
    f.time.offset = o ∧ { f with time := b.time, ev := b.ev, free := b.free } = b ∧
    (b.time.holdover = true → parN b 0xE015 ≤ b.time.qual + 1 →
      f = { b with time := { b.time with offset := o, holdAge := holdAge b, holdover := false, qual := 0, state := .slave, fI := r64 (fvOfInt b.time.rate 0) } }) ∧
    (b.time.holdover = true → b.time.qual + 1 < parN b 0xE015 → f = { b with time := { b.time with offset := o, qual := b.time.qual + 1 } }) ∧
    (b.time.holdover = false → f.time.state = .slave ∧ f.time.rate = b.time.rate ∧
      (b.time.everLocked = false ∧ offAbove o (parW b 0xE010) 1000 = true → f.time.base = stAt b.time b.now * 2 ^ 32 - o * 2 ^ 16 ∧ f.time.fB = b.now ∧ f.time.timeValid = true ∧
        f.time.stepSeq = (b.time.stepSeq + 1) % 2 ^ 16 ∧ f.time.rateNew = none) ∧
      (b.time.everLocked = true ∨ offAbove o (parW b 0xE010) 1000 = false → f.time.base = b.time.base ∧ f.time.fB = b.time.fB ∧ f.time.stepSeq = b.time.stepSeq ∧
        ∃ r, f.time.rateNew = some (r, b.now + 1 + Config.rateLead b.free) ∧ -549755814 ≤ r ∧ r ≤ 549755814))) ∧
  (∀ (t1 : Int) rx (b : Block),
    (b.time.pathKnown = true → syncMeasured t1 rx b = ptpServo (stFine b rx - t1 - b.time.meanPath - asymHalf b b.time.activePort) { b with time := { b.time with lastSync := some (t1, rx, false) } }) ∧
    (b.time.pathKnown = false → syncMeasured t1 rx b = { b with time := { b.time with lastSync := some (t1, rx, true) } })) ∧
  (∀ (d : Int) (b : Block), ∀ p, p = { b with time := { b.time with meanPath := d, pathKnown := true } } →
    (∀ t1 rx, b.time.lastSync = some (t1, rx, true) → pathMeasured d b = syncMeasured t1 rx p) ∧
    ((∀ t1 rx, b.time.lastSync ≠ some (t1, rx, true)) → pathMeasured d b = p)) ∧
  ∀ s : State, s.live → ∀ m : PtpMsg,
    (∀ b, b = (if ptpRuns s.toBlock = true then ptpBegin s.toBlock else s.toBlock) →
      (fromMaster b m = false → exec (.sync m) s = .next (ended s b)) ∧
      (fromMaster b m = true → ∀ u, u = { b with time := { b.time with syncRx := satInc 16 b.time.syncRx } } →
        (m.twoStep = true → exec (.sync m) s = .next (ended s { u with time := { u.time with sync := some (m.seq, b.now, m.corr) } })) ∧
        (m.twoStep = false → exec (.sync m) s = .next (ended s (syncMeasured (m.stamp * 2 ^ 16 + m.corr) b.now u))))) ∧
    (∀ q rx c, s.time.sync = some (q, rx, c) → fromMaster s.toBlock m = true → m.seq = q →
      exec (.followUp m) s = .next (ended s (syncMeasured (m.stamp * 2 ^ 16 + m.corr + c) rx { s.toBlock with time := { s.time with sync := none } }))) ∧
    (s.time.sync = none ∨ fromMaster s.toBlock m = false ∨ (∀ q rx c, s.time.sync = some (q, rx, c) → m.seq ≠ q) → exec (.followUp m) s = .next (ended s s.toBlock)) ∧
    (ptpRuns s.toBlock = true → s.time.state = .master → ptpP2P s.toBlock = false → m.port = s.time.activePort → m.domain = parN s.toBlock 0xE003 →
      exec (.delayReq m) s = .next (ended s (ptpSend .delayResp { port := m.port, seq := m.seq, dest := (m.src, m.srcPort), stamp := stAt s.time s.now, tag := ptpTag s.toBlock } s.toBlock))) ∧
    (ptpRuns s.toBlock = false ∨ s.time.state ≠ .master ∨ ptpP2P s.toBlock = true ∨ m.port ≠ s.time.activePort ∨ m.domain ≠ parN s.toBlock 0xE003 → exec (.delayReq m) s = .next (ended s s.toBlock)) ∧
    (peerMsg s.toBlock m = true → ∀ x : PtpTx, x = { port := m.port, seq := m.seq, dest := (m.src, m.srcPort), stamp := stAt s.time s.now, tag := ptpTag s.toBlock } →
      exec (.pdelayReq m) s = .next (ended s (ptpSend .pdelayRespFollowUp x (ptpSend .pdelayResp x s.toBlock)))) ∧
    (peerMsg s.toBlock m = false → ∀ c ∈ [Instr.pdelayReq m, .pdelayResp m, .pdelayRespFollowUp m], exec c s = .next (ended s s.toBlock)) ∧
    (∀ q tx t1 rx w, s.time.delayReq = some (q, tx) → s.time.lastSync = some (t1, rx, w) →
      (fromMaster s.toBlock m = true → ptpP2P s.toBlock = false → m.seq = q → exec (.delayResp m) s = .next (ended s
        (pathMeasured (((stFine s.toBlock rx - t1) + (m.stamp * 2 ^ 16 - m.corr - stFine s.toBlock tx)) / 2) { s.toBlock with time := { s.time with delayReq := none } }))) ∧
      (fromMaster s.toBlock m = false ∨ ptpP2P s.toBlock = true ∨ m.seq ≠ q → exec (.delayResp m) s = .next (ended s s.toBlock))) ∧
    (s.time.delayReq = none ∨ s.time.lastSync = none → exec (.delayResp m) s = .next (ended s s.toBlock)) ∧
    (∀ q tx, s.time.pdelayReq = some (q, tx) →
      (peerMsg s.toBlock m = true → m.seq = q →
        (m.twoStep = true → exec (.pdelayResp m) s = .next (ended s { s.toBlock with time := { s.time with pdelay := some (q, m.stamp * 2 ^ 16 - m.corr, s.now) } })) ∧
        (m.twoStep = false → exec (.pdelayResp m) s = .next (ended s
          (pathMeasured ((stFine s.toBlock s.now - stFine s.toBlock tx - m.corr) / 2) { s.toBlock with time := { s.time with pdelayReq := none } })))) ∧
      (m.seq ≠ q → exec (.pdelayResp m) s = .next (ended s s.toBlock)) ∧
      (∀ k (t2 : Int) rx, s.time.pdelay = some (k, t2, rx) →
        (peerMsg s.toBlock m = true → m.seq = k → exec (.pdelayRespFollowUp m) s = .next (ended s
          (pathMeasured (((stFine s.toBlock rx - stFine s.toBlock tx) - (m.stamp * 2 ^ 16 + m.corr - t2)) / 2) { s.toBlock with time := { s.time with pdelay := none, pdelayReq := none } }))) ∧
        (m.seq ≠ k → exec (.pdelayRespFollowUp m) s = .next (ended s s.toBlock)))) ∧
    (s.time.pdelayReq = none → ∀ c ∈ [Instr.pdelayResp m, .pdelayRespFollowUp m], exec c s = .next (ended s s.toBlock)) ∧
    (s.time.pdelay = none → exec (.pdelayRespFollowUp m) s = .next (ended s s.toBlock)) ∧
    (∀ c ∈ [Instr.signaling m, .management m], exec c s = .next (ended s s.toBlock))

/-- R683, R686 and R688. `ptpDecide` compares announced data sets as IEEE 1588 does (log entry 22). A loss during an MP restart is
kept for its end. In holdover the rate stays. -/
def Obligations.announces_masters_and_intervals : Prop :=
  (∀ p t (b : Block), (p ≠ b.time.activePort → loseMaster p t b = b) ∧
    (p = b.time.activePort →
      ∀ u, u = { b with time := { b.time with
        foreign := tset [] b.time.foreign p ((tget [] b.time.foreign p).filter fun y => b.time.master ≠ some (y.ann.src, y.ann.srcPort)) } } →
      (p = ptpPrimary u ∧ ptpBackup u = true ∧ (bestForeign u (1 - p)).isSome = true → loseMaster p t b = ptpMovePort (1 - p) u) ∧
      (p ≠ ptpPrimary u ∨ ptpBackup u = false ∨ bestForeign u (1 - p) = none →
        ∀ h, h = { u with time := { u.time with master := none, sync := none, lastSync := none, primaryLost := u.time.primaryLost || p = ptpPrimary u } } →
        (∀ a, ptpChoice h = some a → loseMaster p t b = selectMaster a h) ∧
        (ptpChoice h = none → ∀ d, d = (if b.time.master.isSome = true then enterHoldover t h else h) →
          loseMaster p t b = if ptpMode d = 1 then ptpToMaster d else if b.time.master.isSome = true then { d with time := { d.time with state := .listening } } else d)))) ∧
  (∀ b : Block, ptpMode b = 1 → ∀ a, bestForeign b b.time.activePort = some a →
    (keyLt (annKey a) (ownKey b) = true → ptpDecide b = selectMaster a b) ∧
    (keyLt (annKey a) (ownKey b) = false → ptpDecide b = ptpToMaster (if b.time.master.isSome = true then enterHoldover b.now b else b))) ∧
  (∀ t (b : Block), (b.time.holdover = true → enterHoldover t b = { b with time := { b.time with qual := 0 } }) ∧
    (b.time.holdover = false → ∀ d, d = enterHoldover t b → d.time.holdover = true ∧ d.time.holdFrom = t ∧ d.time.rate = b.time.rate ∧ d.time.base = b.time.base ∧ d.time.fB = b.time.fB ∧
      d.time.stepSeq = b.time.stepSeq ∧ d.time.ptpLocked = false ∧ d.time.rateNew = none ∧ d.ev.raised = b.ev.raised ++ [evPtpHoldover] ∧ { d with time := b.time, ev := b.ev } = b)) ∧
  ∀ s : State, s.live →
    (∀ a : PtpAnn, (ptpRuns s.toBlock = false ∨ 2 ≤ a.port → exec (.announce a) s = .next (ended s s.toBlock)) ∧
      (ptpRuns s.toBlock = true → a.port < 2 → ∀ b, b = ptpBegin s.toBlock →
        ∀ u, u = { b with time := { b.time with annRx := satInc 16 b.time.annRx, linkDown := setBit b.time.linkDown a.port false } } →
        (a.domain ≠ parN u 0xE003 ∨ ptpMode u = 3 ∨ (a.port ≠ ptpPrimary u ∧ ptpBackup u = false) → exec (.announce a) s = .next (ended s u)) ∧
        (a.domain = parN u 0xE003 → ptpMode u ≠ 3 → (a.port = ptpPrimary u ∨ ptpBackup u = true) →
          ∀ x, x = (match (foreignOf u a.port).find? (fun x => x.ann.src = a.src && x.ann.srcPort = a.srcPort) with
            | some y => if u.now ≤ y.last + announceOutU u then { y with ann := a, last := u.now, count := y.count + 1 } else { ann := a, last := u.now, runFrom := u.now, count := 1 }
            | none => ({ ann := a, last := u.now, runFrom := u.now, count := 1 } : PtpForeign)) →
          ∀ d, d = { u with time := { u.time with foreign := tset [] u.time.foreign a.port (lastN 5 ((foreignOf u a.port).filter (fun x => !(x.ann.src = a.src && x.ann.srcPort = a.srcPort)) ++ [x])) } } →
          exec (.announce a) s = .next (ended s (if a.port ≠ d.time.activePort ∧ foreignOk d x = true ∧
              (a.port = ptpPrimary d ∧ x.runFrom + 16 * announceU d ≤ d.now ∨ a.port ≠ ptpPrimary d ∧ d.time.primaryLost = true) then
            ptpMovePort a.port d else ptpDecide d))))) ∧
    (∀ p, p < 2 → (ptpMode s.toBlock = 0 ∨ s.time.state = .disabled ∨ p ≠ s.time.activePort → exec (.announceTimeout p) s = .next (ended s s.toBlock)) ∧
      (ptpMode s.toBlock ≠ 0 → s.time.state ≠ .disabled → p = s.time.activePort → ∀ t, t = announceEnd s.toBlock →
        (s.host.mpRestarting = true → ∀ b, b = atTime t s.toBlock → exec (.announceTimeout p) s = .next (ended s { b with time := { b.time with timeout := some (p, t) } })) ∧
        (s.host.mpRestarting = false → s.rst.phase = .up → exec (.announceTimeout p) s = .next (ended s (loseMaster p t (atTime t (ptpBegin s.toBlock))))))) ∧
    (∀ p, p < 2 → ∀ b, b = { s.toBlock with time := { s.time with linkDown := setBit s.time.linkDown p true, foreign := tset [] s.time.foreign p [] } } →
      (ptpRuns s.toBlock = true → exec (.ethLinkLoss p) s = .next (ended s (loseMaster p s.now b))) ∧
      (ptpRuns s.toBlock = false → s.host.mpRestarting = true ∧ p = s.time.activePort ∧ s.time.timeout = none →
        exec (.ethLinkLoss p) s = .next (ended s { b with time := { b.time with timeout := some (p, s.now) } })) ∧
      (ptpRuns s.toBlock = false → s.host.mpRestarting = false ∨ p ≠ s.time.activePort ∨ s.time.timeout ≠ none → exec (.ethLinkLoss p) s = .next (ended s b))) ∧
    (∀ k, ∀ b, b = (if ptpRuns s.toBlock = true then ptpBegin s.toBlock else s.toBlock) →
      (ptpRuns b = false ∨ ptpSends b k = false → exec (.ptpTxInterval k) s = .next (ended s b)) ∧
      (ptpRuns b = true → ptpSends b k = true →
        ∀ at_, (tfind b.time.txAt (ptpKindNo k) = none ∧ at_ = b.now ∨
          ∃ t, tfind b.time.txAt (ptpKindNo k) = some t ∧ at_ = max b.now (t + pow2Sec (sext 8 (parN b (if k = .announce then 0xE009 else if k = .sync then 0xE008 else 0xE00B))))) →
        ∀ u, u = { b with now := at_, time := { b.time with txAt := tput (ptpKindNo k) at_ b.time.txAt } } →
        ∀ n, n = tget 0 b.time.txSeq (ptpKindNo k) →
        ∀ x : PtpTx, x = {
          port := b.time.activePort, seq := n, stamp := stAt b.time at_, tag := (if ptpP2P b = true then some (parN b 0xE00C, parN b 0xE00D) else none),
          dataSet := (if k = .announce then [parN b 0xE006, 248, 0xFE, Config.clockVar, parN b 0xE007, Config.clockId, 0, Config.clockId, 0] else []) } →
        ∃ d : Block, exec (.ptpTxInterval k) s = .next (ended s d) ∧
        d.time.txSeq = tset 0 b.time.txSeq (ptpKindNo k) ((n + 1) % 2 ^ 16) ∧ tget ({} : PtpTx) d.time.sent (ptpKindNo k) = x ∧
        (k = .sync → tget ({} : PtpTx) d.time.sent (ptpKindNo .followUp) = x) ∧
        d.time.delayReq = (if k = .delayReq then some (n, at_) else b.time.delayReq) ∧
        d.time.pdelayReq = (if k = .pdelayReq then some (n, at_) else b.time.pdelayReq) ∧
        { d with time := { d.time with txSeq := b.time.txSeq, sent := b.time.sent, delayReq := b.time.delayReq, pdelayReq := b.time.pdelayReq } } = u))

/-- R675. B is held with 32 fraction bits (R674), so ST(F_c), a whole number of ns, appears times 2^32. Which instant after now is
chosen is a free value (log entry 4): the statement says that it lies in the future. -/
def Obligations.a_rate_change_does_not_step_the_time : Prop :=
  (∀ (o : Int) (b : Block), (ptpServo o b).time.rate = b.time.rate ∧
    ((ptpServo o b).time.rateNew = b.time.rateNew ∨ (ptpServo o b).time.rateNew = none ∨ ∃ r fc, (ptpServo o b).time.rateNew = some (r, fc) ∧ b.now < fc)) ∧
  ∀ s : State, s.live →
    (s.time.rateNew = none → exec .rateChange s = .next (ended s s.toBlock)) ∧
    (∀ r fc, s.time.rateNew = some (r, fc) → ∃ b : Block, exec .rateChange s = .next (ended s b) ∧ b.now = max s.now fc ∧
      b.time.base = stAt s.time fc * 2 ^ 32 ∧ b.time.fB = fc ∧ b.time.rate = r ∧ b.time.rateNew = none ∧ b.time.rateWas = some (s.time.rate, fc) ∧ stAt b.time fc = stAt s.time fc ∧
      { b with time := { b.time with base := s.time.base, fB := s.time.fB, rate := s.time.rate, rateNew := s.time.rateNew, rateWas := s.time.rateWas }, now := s.now } = s.toBlock)

/-! ### The twin pair -/

/-- R582 to R588. Link states 0, 1, 2 are DOWN, HALF, FULL; times are in units of 250 ps, so 200 ns is 800 and 0.5 us is 2000. That an
offline unit follows time words, and the order of its steps, are the model's (log entry 13). -/
def Obligations.the_twin_link_and_its_clock : Prop :=
  (∀ l (b : Block), (b.tw.link = l → setLink l b = b) ∧ (b.tw.link ≠ l → ∀ d, d = setLink l b → d.tw.link = l ∧ evTwinLink ∈ d.ev.raised ∧ (l = 0 → d.tw.partnerAbsent = true) ∧
    (l ≠ 0 → d.tw.partnerAbsent = b.tw.partnerAbsent) ∧ d.tw.role = b.tw.role ∧
      (isActive b = true → d.ports = b.ports) ∧ { d with tw := b.tw, ev := b.ev, ports := b.ports } = b)) ∧
  (∀ b : Block, linkUpdate b = setLink (if 800 < b.tw.dTw ∨ halfLocked b.tw.lanes = false then 0 else if b.tw.lanes = 0xFFFF ∧ b.tw.link = 2 then 2 else 1) b) ∧
  (∀ b : Block, (b.tw.partnerAbsent = true → setAbsent b = b) ∧ (b.tw.partnerAbsent = false → setAbsent b = raise evTwinPartner { b with tw := { b.tw with partnerAbsent := true } })) ∧
  (∀ r (b : Block), (b.tw.role = r → setRole r b = b) ∧ (b.tw.role ≠ r → setRole r b = raise evTwinRole { b with tw := { b.tw with role := r } })) ∧
  ∀ s : State, s.live →
    (s.tw.role = .solo → ∀ lane, lane < 16 → ∀ rt, rt < 131072 → ∀ c ∈ [Instr.twinLaneLoss lane, .twinLaneLock lane, .dTw rt, .linkFullReturn, .heartbeatMissing],
      exec c s = .next (ended s s.toBlock)) ∧
    (s.tw.role ≠ .solo →
      (∀ lane, lane < 16 →
        exec (.twinLaneLoss lane) s = .next (ended s (linkUpdate { s.toBlock with tw := { s.tw with lanes := setBit s.tw.lanes lane false, allAt := none } })) ∧
        ∀ l, l = setBit s.tw.lanes lane true → exec (.twinLaneLock lane) s = .next (ended s (linkUpdate { s.toBlock with tw := { s.tw with
          lanes := l, allAt := if l = 0xFFFF then s.tw.allAt <|> some s.now else s.tw.allAt } }))) ∧
      (∀ rt, rt < 131072 → ∀ l, l = lastN 16 (s.tw.trips ++ [rt]) →
        exec (.dTw rt) s = .next (ended s (linkUpdate { s.toBlock with tw := { s.tw with trips := l, dTw := divRne (sumNat l) (2 * l.length) } }))) ∧
      (∀ t, s.tw.allAt = some t → s.tw.lanes = 0xFFFF → s.tw.link = 1 → s.tw.dTw ≤ 800 → exec .linkFullReturn s = .next (ended s (setLink 2 (atTime (t + 100 * msU) s.toBlock)))) ∧
      (s.tw.allAt = none ∨ s.tw.lanes ≠ 0xFFFF ∨ s.tw.link ≠ 1 ∨ 800 < s.tw.dTw → exec .linkFullReturn s = .next (ended s s.toBlock)) ∧
      (s.tw.role ≠ .wait → s.tw.hbRx = false → ∀ b, b = atTime (s.cyc.t0 + s.tw.dTw + 2000) s.toBlock →
        ∀ d, d = { b with tw := { b.tw with hbMiss := satInc 16 b.tw.hbMiss, missRun := b.tw.missRun + 1, hbRx := true } } →
          exec .heartbeatMissing s = .next (ended s (if 2 ≤ d.tw.missRun then setAbsent d else d))) ∧
      (s.tw.role = .wait ∨ s.tw.hbRx = true → exec .heartbeatMissing s = .next (ended s s.toBlock))) ∧
    (s.tw.role = .wait → exec .waitTimeout s = .next (ended s (setRole .active (setAbsent (atTime (s.tw.waitAt + 2 * sU) s.toBlock))))) ∧
    (s.tw.role ≠ .wait → exec .waitTimeout s = .next (ended s s.toBlock)) ∧
    (∀ frc (idx : W32) (err : Int),
      (s.tw.role = .solo ∨ s.tw.role = .active ∨ s.tw.link = 0 → exec (.timeWord frc idx err) s = .next (ended s s.toBlock)) ∧
      (s.tw.role = .wait ∨ s.tw.role = .sync ∨ s.tw.role = .standby ∨ s.tw.role = .offline → s.tw.link ≠ 0 →
        (s.tw.loaded = false → ∀ d, d = (frc + s.tw.dTw : Nat) - (s.now : Int) → ∃ b : Block, exec (.timeWord frc idx err) s = .next (ended s b) ∧
          b.now = frc + s.tw.dTw ∧ b.cyc.t0 = ((s.cyc.t0 : Int) + d).toNat ∧ b.time.fB = s.time.fB + d ∧ b.tw.loaded = true ∧ b.tw.adopt = some idx.toNat ∧ b.tw.sinceTrim = 0 ∧
          { b with now := s.now, cyc := s.cyc, tw := s.tw, time := s.time } = s.toBlock) ∧
        (s.tw.loaded = true → ∀ trim d run, trim = decide (187 < err.natAbs ∧ 8 ≤ s.tw.sinceTrim + 1) → d = (if trim = false then 0 else if 0 < err then -1 else 1 : Int) →
          run = (if err.natAbs ≤ 400 then min 16 (s.tw.lockRun + 1) else 0) →
          exec (.timeWord frc idx err) s = .next (ended s (syncDone (shiftFrc d { s.toBlock with tw := { s.tw with
            frcErr := err + 250 * d, sinceTrim := if trim = true then 0 else min 8 (s.tw.sinceTrim + 1), lockRun := run, frcLock := decide (16 ≤ run),
            adopt := s.tw.adopt.map fun _ => idx.toNat } }))))))

/-- R584, R592, R596, R597, R604, R607, R609. Role codes in the heartbeat: 1 WAIT, 2 ACTIVE, 3 SYNC, 4 STANDBY, 5 OFFLINE. Which heartbeats count as on time
from a partner not yet in step, and what an image with another configuration does, are the model's (log entry 13). -/
def Obligations.the_twin_roles_and_images : Prop :=
  ∀ s : State, s.live →
    (∀ l : List W8, ∀ w, w = leAt l 0 4 → ∀ role, role = bits w 16 3 →
      (s.tw.role = .solo ∨ s.tw.link = 0 ∨ l.length ≠ 10 ∨ crc16 0 (l.take 8) ≠ leAt l 8 2 → exec (.heartbeatRx l) s = .next (ended s s.toBlock)) ∧
      (s.tw.role ≠ .solo → s.tw.link ≠ 0 → l.length = 10 → crc16 0 (l.take 8) = leAt l 8 2 →
        (bitAt w 19 = s.tw.unitB → ∀ b, b = { s.toBlock with tw := { s.tw with idConflict := true } } →
          (s.tw.role = .active → exec (.heartbeatRx l) s = .next (ended s b)) ∧
          (s.tw.role ≠ .active → exec (.heartbeatRx l) s = .next (ended s (setRole .offline { b with tw := { b.tw with offCause := 3 } })))) ∧
        (bitAt w 19 ≠ s.tw.unitB → ∀ onTime, onTime = decide (s.tw.role = .wait ∨ (s.tw.loaded = false ∧ s.tw.role = .sync) ∨ role = 1 ∨ role = 3 ∨
            (bits w 0 16 = s.cyc.index % 2 ^ 16 ∧ s.now ≤ s.cyc.t0 + s.tw.dTw + 2000)) →
          ∀ u, u = { s.tw with declRx := if bitAt w 20 = true then s.tw.declRx <|> some (bits w 21 3, s.now) else s.tw.declRx } →
          (onTime = false → exec (.heartbeatRx l) s = .next (ended s { s.toBlock with tw := u })) ∧
          (onTime = true → ∀ same, same = (s.host.setInForce.isSome && leAt l 4 4 = s.host.cfgId) → ∀ b, b = { s.toBlock with tw := { u with
            hbRx := true, missRun := 0, partnerAbsent := false,
            partnerRole := role, cfgMatch := same && (isActive s.toBlock || s.tw.cfgMatch), partnerRevert := bitAt w 24, grantRx := s.tw.grantRx || bitAt w 25,
            sent2 := if bitAt w 26 = true then [] else s.tw.sent2, declRx := if bitAt w 20 = true then u.declRx else none } } →
          (s.tw.role = .wait → (role = 2 ∨ s.tw.unitB = true → exec (.heartbeatRx l) s = .next (ended s (enterSync b))) ∧
            (role ≠ 2 → s.tw.unitB = false → exec (.heartbeatRx l) s = .next (ended s (setRole .active b)))) ∧
          (s.tw.role = .active → exec (.heartbeatRx l) s = .next (ended s (if role = 2 then { b with tw := { b.tw with yieldDue := yields b } } else b))) ∧
          (s.tw.role = .offline → exec (.heartbeatRx l) s = .next (ended s (if s.tw.offCause = 2 ∧ role = 2 then enterSync { b with tw := { b.tw with offCause := 0 } } else b))) ∧
          (s.tw.role = .standby → exec (.heartbeatRx l) s = .next (ended s (if same = true then b else enterSync b))) ∧
          (s.tw.role = .sync → exec (.heartbeatRx l) s = .next (ended s (if same = true then syncDone b else { b with tw := { b.tw with bgDone := 0 } }))))))) ∧
    (∀ (i : Image) bad, ∀ takes, takes = decide (s.tw.role = .sync ∨ s.tw.role = .standby ∨ (s.tw.role = .active ∧ s.tw.waitImage = true ∧ i.handover = true)) →
      (takes = false → exec (.imageRx i bad) s = .next (ended s (if s.tw.role = .active then { s.toBlock with tw := { s.tw with peerConv := some i.seq.state } } else s.toBlock))) ∧
      (takes = true → bad = true → exec (.imageRx i bad) s = .next (ended s (raise evTwinImgErr { s.toBlock with tw := { s.tw with imgErr := satInc 16 s.tw.imgErr, imgOk := false } }))) ∧
      (takes = true → bad = false → i.cfgCrc ≠ s.host.cfgId → exec (.imageRx i bad) s = .next (ended s { s.toBlock with tw := { s.tw with imgOk := true } })) ∧
      (takes = true → bad = false → i.cfgCrc = s.host.cfgId → ∀ b, b = applyImage i s.toBlock → b.tw.imgOk = true ∧ b.tw.imgSet = some i.setpoints ∧
        exec (.imageRx i bad) s = .next (ended s (if b.tw.role = .active then
          quietFrames { b with tw := { b.tw with waitImage := false }, cyc := { b.cyc with setpoints := i.setpoints } } else b)))) ∧
    (s.tw.role ≠ .sync → ∀ r, exec (.backgroundRecord r) s = .next (ended s s.toBlock)) ∧
    (s.tw.role = .sync → s.host.mpRestarting = true → ∀ r, exec (.backgroundRecord r) s = .next (ended s { s.toBlock with tw := { s.tw with bgHold := s.tw.bgHold ++ [r] } })) ∧
    (s.tw.role = .sync → s.host.mpRestarting = false →
      (∀ c t, exec (.backgroundRecord (.config c t)) s = .next (ended s { s.toBlock with tw := { s.tw with bgSet := some (c, t) } })) ∧
      (∀ g st t, ∃ b : Block, exec (.backgroundRecord (.cell g st t)) s = .next (ended s b) ∧
        cell b g = (if (cell s.toBlock g).st = .none then cell s.toBlock g else { cell s.toBlock g with st := st, tent := t }) ∧
        (∀ h, h ≠ g → cell b h = cell s.toBlock h) ∧ { b with cells := s.cells } = s.toBlock) ∧
      (∀ l x, ∃ b : Block, exec (.backgroundRecord (.loop l x)) s = .next (ended s b) ∧ tget {} b.gov.loops l = x ∧ (∀ k, k ≠ l → tget {} b.gov.loops k = tget {} s.gov.loops k) ∧
        { b with gov := { b.gov with loops := s.gov.loops } } = s.toBlock) ∧
      (∀ r x, ∃ b : Block, exec (.backgroundRecord (.rpc r x)) s = .next (ended s b) ∧ tget {} b.eng.rpc r = x ∧ (∀ k, k ≠ r → tget {} b.eng.rpc k = tget {} s.eng.rpc k) ∧
        { b with eng := { b.eng with rpc := s.eng.rpc } } = s.toBlock) ∧
      (∀ c x v q, ∃ b : Block, exec (.backgroundRecord (.ramp c x v q)) s = .next (ended s b) ∧ tget {} b.eng.ramp c = { tget {} s.eng.ramp c with x := x, v := v, queue := q } ∧
        (∀ k, k ≠ c → tget {} b.eng.ramp k = tget {} s.eng.ramp k) ∧ { b with eng := { b.eng with ramp := s.eng.ramp } } = s.toBlock) ∧
      (∀ k, (k < 2 ∨ 5 < k → exec (.backgroundRecord (.done k)) s = .next (ended s s.toBlock)) ∧
        (2 ≤ k → k ≤ 5 → exec (.backgroundRecord (.done k)) s = .next (ended s (syncDone { s.toBlock with tw := { s.tw with bgDone := setBit s.tw.bgDone (k - 1) true } }))))) ∧
    (s.tw.role = .active → s.tw.waitImage = true → ∀ b, b = atTime (s.cyc.t0 + s.tw.dTw + (if s.tw.link = 1 then 14000 else 8000)) s.toBlock →
      exec .handoverImageDeadline s = .next (ended s (quietFrames { b with tw := { b.tw with waitImage := false } }))) ∧
    (s.tw.role ≠ .active ∨ s.tw.waitImage = false → exec .handoverImageDeadline s = .next (ended s s.toBlock)) ∧
    (∀ n, s.tw.splitCnt = some n → s.tw.role = .active → 2 ≤ n → s.tw.sawReport = false → s.ports.any (fun p => p.2.lock) = true →
      ∀ b, b = portsMonitor (atTime (if n = 2 then s.cyc.t0 + tcU s.toBlock else s.now) s.toBlock) →
      exec .split s = .next (ended s (raise evTwinSplit (setRole .offline { b with tw := { b.tw with offCause := 2, splitCnt := none, guard := false } })))) ∧
    (s.tw.splitCnt = none ∨ s.tw.role ≠ .active ∨ (∀ n, s.tw.splitCnt = some n → n < 2) ∨ s.tw.sawReport = true ∨ s.ports.any (fun p => p.2.lock) = false →
      exec .split s = .next (ended s s.toBlock)) ∧
    (∀ t, s.tw.revertFrom = some t → revertConds s.toBlock = true → ∀ b, b = atTime (t + parDur s.toBlock 0xC001 sU) s.toBlock →
      exec .revertHoldoff s = .next (ended s { b with tw := { b.tw with revertReq := true } })) ∧
    (s.tw.revertFrom = none ∨ revertConds s.toBlock = false → exec .revertHoldoff s = .next (ended s s.toBlock)) ∧
    (exec .txdisGuard s = .next (ended s { s.toBlock with tw := { s.tw with guard := s.tw.guard || decide (s.tw.role = .active) } })) ∧
    (s.tw.role = .offline → s.tw.offCause = 1 → causeExists s.toBlock = false → exec .twinClear s = .next (ended s (enterSync { s.toBlock with tw := { s.tw with offCause := 0 } }))) ∧
    (s.tw.role ≠ .offline ∨ s.tw.offCause ≠ 1 ∨ causeExists s.toBlock = true → exec .twinClear s = .next (ended s s.toBlock))

/-- R613 to R615. `relayRestore` is the frame with its slot CRCs and trailer restored; `reportCore` is the report processing of chapter 5.
Keeping the record until its launch is the model's (log entry 13). -/
def Obligations.relay_records_and_the_peer : Prop :=
  ∀ s : State, s.live →
    (∀ l : List W8, ∀ w, w = leAt l 0 8 →
      (isActive s.toBlock = false → bitAt w 7 = false → 16 ≤ l.length → exec (.relayRecordRx l) s = .next (ended s { s.toBlock with
        tw := { s.tw with relayFrames := s.tw.relayFrames ++ [(bits w 0 7, bits w 8 30, relayRestore l)] } })) ∧
      (isActive s.toBlock = true ∨ bitAt w 7 = true ∨ l.length < 16 → exec (.relayRecordRx l) s = .next (ended s s.toBlock))) ∧
    (∀ p, p < 128 →
      (∀ q lt l, s.tw.relayFrames.find? (fun x => x.1 = p) = some (q, lt, l) → ∃ b : Block, exec (.relayLaunch p) s = .next (ended s b) ∧
        b.now = max s.now (launchInstant s.now lt) ∧ b.tw.relayFrames = s.tw.relayFrames.erase (q, lt, l) ∧
        port b p = { port s.toBlock p with lastTx := l, freeAt := b.now + 10 * l.length } ∧ (∀ j, j ≠ p → port b j = port s.toBlock j) ∧
        { b with now := s.now, ports := s.ports, tw := { b.tw with relayFrames := s.tw.relayFrames } } = s.toBlock) ∧
      (s.tw.relayFrames.find? (fun x => x.1 = p) = none → exec (.relayLaunch p) s = .next (ended s s.toBlock))) ∧
    (∀ (l : List W8) (reply : Option (Nat × Nat × W32)),
      (isActive s.toBlock = false → (reply = none → exec (.relayReportRx l reply) s = .next (ended s s.toBlock)) ∧
        (∀ g st d, reply = some (g, st, d) →
          ((port s.toBlock (g / 48)).svc.find? (fun r => r.cell = g && r.sent) = none → exec (.relayReportRx l reply) s = .next (ended s s.toBlock)) ∧
          (∀ r, (port s.toBlock (g / 48)).svc.find? (fun r => r.cell = g && r.sent) = some r →
            exec (.relayReportRx l reply) s = .next (ended s (svcReply (g / 48) r st d s.toBlock))))) ∧
      (isActive s.toBlock = true → ∀ p, p = bits (leAt l 0 8) 0 7 → ∀ b, b = (if bitAt (leAt l 0 8) 7 = true ∧ p ∈ s.tw.relays then
          reportCore p (farCell s.toBlock p) (l.drop 8) (noteReport s.toBlock) else s.toBlock) →
        (reply = none → exec (.relayReportRx l reply) s = .next (ended s b)) ∧
        (∀ g st d, reply = some (g, st, d) →
          (b.tw.svcOut.find? (fun r => r.cell = g) = none → exec (.relayReportRx l reply) s = .next (ended s b)) ∧
          (∀ r, b.tw.svcOut.find? (fun r => r.cell = g) = some r → exec (.relayReportRx l reply) s = .next (ended s
            (mbxDone r.mbx (if st = 0 then 0 else 0x17) st g (if st = 0 then leBytes 4 d.toNat else []) { b with tw := { b.tw with svcOut := b.tw.svcOut.erase r } })))))) ∧
    (∀ l : List (Nat × Bool × Bool × Nat),
      (s.tw.role = .solo → exec (.relayPortStatus l) s = .next (ended s s.toBlock)) ∧
      (s.tw.role ≠ .solo → exec (.relayPortStatus l) s = .next (ended s (forEach l (fun (p, lk, br, d) t => peerStatus p lk br d t) s.toBlock)))) ∧
    (∀ p lk br d (b : Block), ∀ was, was = (tget ({} : PeerPort) b.tw.peer p).brk → ∀ t : Block, t = { b with tw := { b.tw with peer := tset {} b.tw.peer p { lock := lk, brk := br, dFar := d } } } →
      ∀ breaks rejoins : Prop, (breaks ↔ br = true ∧ was = false ∧ (port b p).brk = false ∧ ((port b p).st = .serve ∨ (port b p).st = .monitor)) →
      (rejoins ↔ isActive b = false ∧ was = true ∧ br = false ∧ (port b p).brk = true ∧ (port b p).lock = true ∧ lk = true) →
      (portUsed b p = false ∨ portTopo b p ≠ 2 ∨ (¬ breaks ∧ ¬ rejoins) → peerStatus p lk br d b = t) ∧
      (portUsed b p = true → portTopo b p = 2 → breaks → peerStatus p lk br d b = ringBreaks p t) ∧
      (portUsed b p = true → portTopo b p = 2 → rejoins → peerStatus p lk br d b = ringRejoin p t))

/-! ### Single rules of the manual -/

/-- R124; the request is the mailbox command PORT_DARK with ARG1 = 1. -/
def Obligations.a_port_is_forced_dark_only_while_its_arm_does_not_switch : Prop :=
  ∀ (s : State) (m p : Nat), s.asked m 0x35 → s.carries m 0 → (s.request m).arg0 = p → (s.request m).arg1 = 1 → p < 128 → portUsed s.toBlock p = true →
    (switching s.toBlock (strArm s.toBlock p) = true → exec (.portDark m) s = completed s m 0x12 0 p [] (s.runs m)) ∧
    (switching s.toBlock (strArm s.toBlock p) = false → ∃ b : Block, exec (.portDark m) s = completed s m 0 0 0 [] b ∧
      (port b p).st = .dark ∧ (port b p).forced = true)

/-- R421, for every trigger of the group of a unit that is on: of the host, of an event, of a trip input or of a window. -/
def Obligations.a_lost_trigger_counts_and_is_reported : Prop :=
  (∀ (u t : Nat) (win : Option Nat) (b : Block), (injInputs b u).length ≠ 0 → (adcUnit b u).on = true →
    (adcUnit b u).pend.isSome = true ∨ (adcUnit b u).conv.isSome = true ∨ injHeld b u = true ∨ (adcUnit b u).refReady = false →
    adcUnit (injTrigger u t win b) u = { adcUnit b u with injLost := min ((adcUnit b u).injLost + 1) 65535 } ∧
    (∀ v, v ≠ u → adcUnit (injTrigger u t win b) v = adcUnit b v) ∧
    (injTrigger u t win b).ev.raised = b.ev.raised ++ [evAdcInjLost] ∧ { injTrigger u t win b with adc := b.adc, ev := b.ev } = b) ∧
  (∀ (s : State) (u : Nat), s.live → u < 4 → injTrig s.toBlock u = 1 →
    exec (.injGo u) s = .next (ended s (injTrigger u (s.now + 40) none s.toBlock)))

/-! ### Tasks, queues and DMA -/

/-- R373 to R377. An entry is 32 bytes at `qSlot`, the place of a queue's storage counted from its head. `queuePut` lets a post in, or
where the queue is full only by a later rank of the same fabric cycle in that one's place (`queueBehind`, R374); `queuePost` first
lets in the entry a hardware source holds. `refusedEnter` lets in a host post refused earlier in the fabric cycle of a take. A signal's
value before this fabric cycle is `sigBefore` (R328). Order within a fabric cycle: log entries 14 and 30. -/
def Obligations.queues_events_taps_and_readbacks : Prop :=
  (∀ q (p : QPost) (b : Block), ∀ d, d = queueEnter q p b →
    (queue d q).fill = (queue b q).fill + 1 ∧ (queue d q).fillMax = max (queue b q).fillMax ((queue b q).fill + 1) ∧ (∀ j, j ≠ q → queue d j = queue b j) ∧
    ((queue b q).accAt ≠ fabric b.now + 1 ∨ (queue b q).entered = [] →
      (entryBytes p.w).length = 32 ∧ (∀ k (h : k < (entryBytes p.w).length), memRead d.mem (qSlot b q (queue b q).fill + k) = (entryBytes p.w)[k]) ∧
      ∀ a, (a < qSlot b q (queue b q).fill ∨ qSlot b q (queue b q).fill + 32 ≤ a) → memRead d.mem a = memRead b.mem a) ∧
    d.ev.raised = b.ev.raised ++ [evQueuePost q] ∧ { d with dam := { d.dam with queues := b.dam.queues }, mem := b.mem, ev := b.ev } = b) ∧
  (∀ q (p : QPost) (b : Block), (queueFull b q = false → queuePut q p b = (true, queueEnter q p b)) ∧
    (queueFull b q = true → queueBehind b q p.rank = none → queuePut q p b = (false, b)) ∧
    (∀ y, queueFull b q = true → queueBehind b q p.rank = some y → queuePut q p b = (true, queueEnter q p (queueYield q y b)) ∧ p.rank < y.rank ∧
      (queue b q).accAt = fabric b.now + 1 ∧ (queue b q).entered.getLast? = some y)) ∧
  ∀ s : State, s.live →
    (∀ n, 160 ≤ n → n < 224 →
      (tget 0 s.dam.posted n = fabric s.now + 1 → exec (.eventPost n) s = .next (ended s s.toBlock)) ∧
      (tget 0 s.dam.posted n ≠ fabric s.now + 1 → exec (.eventPost n) s = .next (ended s (raise n { s.toBlock with dam := { s.dam with posted := tset 0 s.dam.posted n (fabric s.now + 1) } })))) ∧
    (∀ k (v : W32), (k < 64 → exec (.recTap k v) s = .next (ended s { s.toBlock with graph := { s.graph with taps := tset 0#32 s.graph.taps k v } })) ∧
      (k < 256 → exec (.readback k v) s = .next (ended s { s.toBlock with host := { s.host with readback := tset 0#32 s.host.readback k v } }))) ∧
    (∀ q sig, q < 64 → sig < 16375 → ∀ n, n = (if (queue s.toBlock q).accAt = fabric s.now + 1 then (queue s.toBlock q).entered.length else 0) →
      ∃ b : Block, exec (.queueTake q sig) s = .next (ended s (refusedEnter q b)) ∧
        ((queue s.toBlock q).fill ≤ n → (queue b q).head = (queue s.toBlock q).head ∧ (queue b q).fill = (queue s.toBlock q).fill ∧ sigRead b (sig + 8) = sigNorm s.toBlock (sig + 8) 0#32 ∧
          ∀ i, i < 8 → sigRead b (sig + i) = sigNorm s.toBlock (sig + i) (sigBefore s.toBlock (sig + i))) ∧
        (n < (queue s.toBlock q).fill → (queue b q).head = ((queue s.toBlock q).head + 1) % max 1 (qDepth s.toBlock q) ∧ (queue b q).fill = (queue s.toBlock q).fill - 1 ∧
          sigRead b (sig + 8) = sigNorm s.toBlock (sig + 8) 1#32 ∧
          ∀ l, l = readBytes s.toBlock (qSlot s.toBlock q 0) 32 → ∀ i, i < 8 → sigRead b (sig + i) = sigNorm s.toBlock (sig + i) (BitVec.ofNat 32 (leAt l (4 * i) 4))) ∧
        (queue b q).fillMax = (queue s.toBlock q).fillMax ∧ (∀ j, j ≠ q → queue b j = queue s.toBlock j) ∧
        (∀ a, (a < sigAddr sig ∨ sigAddr (sig + 9) ≤ a) → memRead b.mem a = memRead s.mem a) ∧
        { b with dam := { b.dam with queues := s.dam.queues }, mem := s.mem, graph := { b.graph with sigAt := s.graph.sigAt, sigOld := s.graph.sigOld } } = s.toBlock) ∧
    (∀ q b, (queue b q).refused = [] → refusedEnter q b = b) ∧
    (∀ q c (w : List W32), q < 64 → c < 16 → w.length = 8 →
      ((core s.toBlock c).task = none → exec (.queuePostBlock q c w) s = .next (ended s s.toBlock)) ∧
      (∀ t ok u, (core s.toBlock c).task = some t → queuePut q { rank := 4 + c, who := t, w := w } (hwRetry q s.toBlock) = (ok, u) →
        (ok = true → exec (.queuePostBlock q c w) s = .next (ended s u)) ∧
        (ok = false → ∃ v : Block, queue v q = { queue u q with waiting := (queue u q).waiting ++ [(t, w)], stall := true } ∧ (∀ j, j ≠ q → queue v j = queue u j) ∧
          v.ev.raised = u.ev.raised ++ (if (queue u q).stall = false then [evQueueStall] else []) ∧ { v with dam := { v.dam with queues := u.dam.queues }, ev := u.ev } = u ∧
          exec (.queuePostBlock q c w) s = .next (ended s (if (task u t).cancelPend = true then freeCore c (cancelled t 4 (abandonPost t v))
            else freeCore c (modTask t (fun x => { x with st := .blocked, next := x.next + 1 }) v)))))) ∧
    (∀ q, q < 64 →
      (∀ t w l, (queue s.toBlock q).waiting = (t, w) :: l → (queue s.toBlock q).fill < qDepth s.toBlock q →
        ∀ b, b = queueEnter q { rank := 1, who := t, w := w } (modQueue q (fun x => { x with waiting := l }) s.toBlock) →
        exec (.queuePostWaitEnd q) s = .next (ended s (if (task b t).st = .blocked then
          modPrio (tPrio (img b) t) (t :: ·) (modTask t (fun x => { x with st := .preempted }) b) else b))) ∧
      ((queue s.toBlock q).waiting = [] ∨ qDepth s.toBlock q ≤ (queue s.toBlock q).fill → exec (.queuePostWaitEnd q) s = .next (ended s s.toBlock)) ∧
      (∀ w ok u, (queue s.toBlock q).hwHeld = some w → queuePut q { rank := 2, who := 0, w := w } s.toBlock = (ok, u) →
        (ok = true → ∀ b, b = modQueue q (fun x => { x with hwHeld := none }) u → exec (.hwSourceRetry q) s = .next (ended s (if qSrc b q = 2 then raise evAdcInjDone b else b))) ∧
        (ok = false → exec (.hwSourceRetry q) s = .next (ended s s.toBlock))) ∧
      ((queue s.toBlock q).hwHeld = none → exec (.hwSourceRetry q) s = .next (ended s s.toBlock)))

/-- R365 to R372, R392, R393. `runBlock` is the effect of a block, `blockFault` the policy's effect of a fault, `finishBlock` what ends it,
where no block is left the release. A cancel of a task given a core less than 20 ns ago still finds it not begun (log entry 14). err is 1 for a GRANULE error, 2 for
one in a queue entry, 3 for a resume record. -/
def Obligations.task_execution_cancel_and_rearm : Prop :=
  (∀ c t b (s : Block), let p := blkPar (img s) b 0; let x := pinIn s b 0 0#32
    (blkType (img s) b = 0x65 → runBlock c t b s = finishBlock c t (recTap p.toNat x s)) ∧ (blkType (img s) b = 0x66 → runBlock c t b s = finishBlock c t (readbackWrite p.toNat x s)) ∧
    (blkType (img s) b = 0x64 → runBlock c t b s = finishBlock c t (blkWrite b (outsSt [] [x])
      (if rise x (wAt (blkStates s b) 0) = true then eventPost p.toNat s else s)))) ∧
  ∀ s : State, s.live →
    (∀ c err, c < 16 → err < 4 →
      ((core s.toBlock c).task = none ∨ (core s.toBlock c).wait ≠ .none → exec (.blockExecute c err) s = .next (ended s s.toBlock)) ∧
      (∀ t, (core s.toBlock c).task = some t → (core s.toBlock c).wait = .none → ∀ a, a = modCore c (fun x => { x with begun := true }) s.toBlock →
        ((taskBlocks (img a) t)[(task a t).next]? = none → exec (.blockExecute c err) s = .next (ended s (finishBlock c t a))) ∧
        (∀ b, (taskBlocks (img a) t)[(task a t).next]? = some b →
          (err = 3 ∧ (task a t).started = true ∧ (core s.toBlock c).begun = false → exec (.blockExecute c err) s = .next (ended s (blockFault c t b 3 a))) ∧
          (err ≠ 3 ∨ (task a t).started = false ∨ (core s.toBlock c).begun = true →
            (sourceWait a b ≠ .none → exec (.blockExecute c err) s = .next (ended s (modCore c (fun x => { x with wait := sourceWait a b }) a))) ∧
            (sourceWait a b = .none → ∀ d, d = modTask t (fun x => { x with started := true }) a →
              (err = 1 → exec (.blockExecute c err) s = .next (ended s (blockFault c t b 1 d))) ∧
              (∀ w e, err = 2 → blkType (img d) b = 0x0B → pinIn d b 0 1#32 ≠ 0#32 → queueTake (blkPar (img d) b 0).toNat d = some (w, e) →
                exec (.blockExecute c err) s = .next (ended s (blockFault c t b 1 e))) ∧
              (err = 0 ∨ err = 3 ∨ (err = 2 ∧ (blkType (img d) b ≠ 0x0B ∨ pinIn d b 0 1#32 = 0#32 ∨ queueTake (blkPar (img d) b 0).toNat d = none)) →
                exec (.blockExecute c err) s = .next (ended s (runBlock c t b d)))))))) ∧
    (∀ c, c < 16 →
      (((core s.toBlock c).wait = .adc ∧ s.cyc.adcReady = true) → exec (.blockSourceWaitEnd c) s = .next (ended s (modCore c (fun x => { x with wait := .none }) s.toBlock))) ∧
      ((core s.toBlock c).wait = .published → exec (.blockSourceWaitEnd c) s = .next (ended s
        (modCore c (fun x => { x with wait := .none }) { s.toBlock with cyc := { s.cyc with published := true } }))) ∧
      (((core s.toBlock c).wait ≠ .adc ∨ s.cyc.adcReady = false) → (core s.toBlock c).wait ≠ .published → exec (.blockSourceWaitEnd c) s = .next (ended s s.toBlock))) ∧
    (∀ t, t < 256 → ∀ x, x = task s.toBlock t →
      (imgTasks s.toBlock ≤ t → exec (.taskCancel t) s = .next (ended s s.toBlock)) ∧
      (t < imgTasks s.toBlock → cancelRefused s.toBlock t = true → exec (.taskCancel t) s = .next (ended s (modTask t (fun x => { x with cancelRef := true }) s.toBlock))) ∧
      (t < imgTasks s.toBlock → cancelRefused s.toBlock t = false → ∀ a, a = undoRelease t (modTask t (fun x => { x with cancelRef := false }) s.toBlock) → ∀ x, x = task a t →
        ∀ b, b = modTask t (fun x => { x with cancelAt := some a.now }) a →
        (x.st = .idle → exec (.taskCancel t) s = .next (ended s (raise evTaskCancelled (modTask t (fun x => { x with st := .cancelled }) b)))) ∧
        (x.st = .cancelled → exec (.taskCancel t) s = .next (ended s b)) ∧
        (x.st = .ready → exec (.taskCancel t) s = .next (ended s (cancelled t 3 (modPrio (tPrio (img b) t) (List.filter (· ≠ t)) b)))) ∧
        (x.st = .preempted → exec (.taskCancel t) s = .next (ended s (cancelled t 4 (modPrio (tPrio (img b) t) (List.filter (· ≠ t)) b)))) ∧
        (x.st = .blocked → exec (.taskCancel t) s = .next (ended s (cancelled t 4 (abandonPost t b)))) ∧
        (x.st = .running → ((core b x.core).begun = true ∨ (core b x.core).givenAt + 80 ≤ b.now →
            exec (.taskCancel t) s = .next (ended s (modTask t (fun x => { x with cancelPend := true }) b))) ∧
          ((core b x.core).begun = false → b.now < (core b x.core).givenAt + 80 →
            exec (.taskCancel t) s = .next (ended s (freeCore x.core (cancelled t (if x.started = true then 4 else 3) b)))))) ∧
      (t < imgTasks s.toBlock → x.st = .cancelled → (∀ u, x.cancelAt = some u → fabric u ≠ fabric s.now) →
        exec (.taskRearm t) s = .next (ended s (modTask t (fun x => { x with st := .idle }) (keepPre t (damselFresh s.toBlock)))) ∧
        exec (.taskRearmClear t) s = .next (ended s (modTask t (fun x => { x with st := .idle, flags := 0 }) (keepPre t (damselFresh s.toBlock))))) ∧
      (imgTasks s.toBlock ≤ t ∨ x.st ≠ .cancelled ∨ (∃ u, x.cancelAt = some u ∧ fabric u = fabric s.now) →
        exec (.taskRearm t) s = .next (ended s s.toBlock) ∧ exec (.taskRearmClear t) s = .next (ended s s.toBlock)))

/-- R386 to R391. `readCause` and `writeCause` give the cause of Table 10-8 against an access. The operands carry the granule error found and,
for a source in host memory, its 32 bytes; `granule` is what is read (log entry 14). `lastAborted` is the abort
that the last granule of its fabric cycle overtakes (R390). -/
def Obligations.dma_reads_descriptors_and_moves_granules : Prop :=
  (∀ c k a r (b : Block), ∀ d, d = dmaHalt c k a r b → dma d c = { dma b c with st := .halted, outcome := 3, cause := k, faultAddr := a, residual := r, fetching := false } ∧
    (∀ j, j ≠ c → dma d j = dma b j) ∧ d.ev.raised = b.ev.raised ++ [evDmaFault] ∧ { d with dam := { d.dam with dma := b.dam.dma }, ev := b.ev } = b) ∧
  (∀ c (b : Block), ∀ x, x = dma b c →
    (bitAt x.ctrl 0 = true → ∀ d, d = descEnd c b → dma d c = { x with st := .idle, outcome := 1, residual := 0 } ∧ bitAt d.dam.dmaDone c = true ∧
      (∀ j, j ≠ c → dma d j = dma b j ∧ bitAt d.dam.dmaDone j = bitAt b.dam.dmaDone j)) ∧
    (bitAt x.ctrl 0 = false → ∀ d, d = descEnd c b → dma d c = { x with fetching := true, descAddr := x.next } ∧ d.dam.dmaDone = b.dam.dmaDone ∧ ∀ j, j ≠ c → dma d j = dma b j) ∧
    (descEnd c b).mem = b.mem ∧ (descEnd c b).ev.raised = b.ev.raised ++ (if bitAt x.ctrl 1 = true then [evDmaDone] else [])) ∧
  ∀ s : State, s.live →
    (∀ c err (host : List W8), c < 32 → err < 3 → host.length = 32 → ∀ x, x = dma s.toBlock c →
      (x.st ≠ .running → exec (.dmaDescriptorFetch c err host) s = .next (ended s s.toBlock) ∧ (lastAborted s.toBlock x = false → exec (.dmaGranuleRead c err host) s = .next (ended s s.toBlock))) ∧
      (x.fetching = false → exec (.dmaDescriptorFetch c err host) s = .next (ended s s.toBlock)) ∧ (x.fetching = true → exec (.dmaGranuleRead c err host) s = .next (ended s s.toBlock)) ∧
      (x.st = .running → x.fetching = true →
        (∀ k, readCause s.toBlock x.part x.descAddr err 4 6 = some k → exec (.dmaDescriptorFetch c err host) s = .next (ended s (dmaHalt c k x.descAddr 0 s.toBlock))) ∧
        (readCause s.toBlock x.part x.descAddr err 4 6 = none → ∀ l, l = granule s.toBlock x.descAddr host →
          (descOk l = false → exec (.dmaDescriptorFetch c err host) s = .next (ended s (dmaHalt c 5 x.descAddr 0 s.toBlock))) ∧
          (descOk l = true → ∃ b : Block, exec (.dmaDescriptorFetch c err host) s = .next (ended s b) ∧
            dma b c = { x with fetching := false, src := leAt l 0 8, dst := leAt l 8 8, count := leAt l 16 4, ctrl := leAt l 20 4, next := leAt l 24 8, k := 0 } ∧
            (∀ j, j ≠ c → dma b j = dma s.toBlock j) ∧ { b with dam := { b.dam with dma := s.dam.dma } } = s.toBlock))) ∧
      (x.st = .running ∨ lastAborted s.toBlock x = true → x.fetching = false → ∀ sa da, sa = x.src + 32 * x.k → da = x.dst + 32 * x.k →
        (∀ k, readCause s.toBlock x.part sa err 1 3 = some k → exec (.dmaGranuleRead c err host) s = .next (ended s (dmaHalt c k sa (x.count - x.k) s.toBlock))) ∧
        (∀ k, readCause s.toBlock x.part sa err 1 3 = none → writeCause s.toBlock x.part da = some k →
          exec (.dmaGranuleRead c err host) s = .next (ended s (dmaHalt c k da (x.count - x.k) s.toBlock))) ∧
        (readCause s.toBlock x.part sa err 1 3 = none → writeCause s.toBlock x.part da = none → ∃ b : Block,
          (∀ d, d = (if x.k + 1 = x.count then descEnd c b else b) → exec (.dmaGranuleRead c err host) s = .next (ended s (if lastAborted s.toBlock x = true then abortAmend x d else d))) ∧
          dma b c = { x with k := x.k + 1 } ∧ (∀ j, j ≠ c → dma b j = dma s.toBlock j) ∧
          (∀ k (h : k < (granule s.toBlock sa host).length), memRead b.mem (da + k) = (granule s.toBlock sa host)[k]) ∧ (granule s.toBlock sa host).length = 32 ∧
          (∀ a, (a < da ∨ da + 32 ≤ a) → memRead b.mem a = memRead s.mem a) ∧ { b with dam := { b.dam with dma := s.dam.dma }, mem := s.mem } = s.toBlock))) ∧
    (∀ m : W32, ∃ b : Block, exec (.dmaHaltClear m) s = .next (ended s b) ∧ { b with dam := { b.dam with dma := s.dam.dma } } = s.toBlock ∧
      ∀ c, dma b c = if c < 32 ∧ bitAt m.toNat c = true ∧ (dma s.toBlock c).st = .halted then { dma s.toBlock c with st := .idle } else dma s.toBlock c)
end

