-- ==== Sys2Proof/Laws/Bits.lean ====
section
/-!
SUPPORT. Bits of the masks the registers hold.
-/

namespace Sys2Proof.Machine

theorem clearMask_eq_xor (w m : Nat) : clearMask w m = w ^^^ (w &&& m) := by
  unfold clearMask
  induction w using Nat.binaryRec' generalizing m with
  | zero => simp
  | bit b n h ih =>
    obtain ⟨c, k, rfl⟩ : ∃ c k, m = Nat.bit c k := ⟨m.bodd, m.div2, (Nat.bit_bodd_div2 m).symm⟩
    have := ih k
    simp only [Nat.land_bit, Nat.xor_bit]
    rw [← this]
    have hle : n &&& k ≤ n := Nat.and_le_left
    cases b <;> cases c <;> simp [Nat.bit] <;> omega

@[simp] theorem testBit_clearMask (w m i : Nat) : (clearMask w m).testBit i = (w.testBit i && !m.testBit i) := by
  rw [clearMask_eq_xor, Nat.testBit_xor, Nat.testBit_and]
  cases w.testBit i <;> cases m.testBit i <;> rfl

theorem clearMask_eq_zero (w m : Nat) : clearMask w m = 0 ↔ ∀ i, w.testBit i = true → m.testBit i = true := by
  constructor
  · intro h i hi
    have := testBit_clearMask w m i
    rw [h] at this
    simpa [hi] using this
  · intro h
    apply Nat.eq_of_testBit_eq
    intro i
    have := h i
    rw [testBit_clearMask]
    cases hw : w.testBit i <;> simp_all

theorem setBit_eq (w n : Nat) (b : Bool) :
    setBit w n b = if b then w ||| 2 ^ n else clearMask w (2 ^ n) := by
  have hadd : w.testBit n = false → w + 2 ^ n = w ||| 2 ^ n := fun h => by
    have hx : (w ||| 2 ^ n) - ((w ||| 2 ^ n) &&& 2 ^ n) = clearMask (w ||| 2 ^ n) (2 ^ n) := rfl
    have h1 : (w ||| 2 ^ n) &&& 2 ^ n = 2 ^ n := by
      apply Nat.eq_of_testBit_eq; intro i
      simp only [Nat.testBit_and, Nat.testBit_or, Nat.testBit_two_pow]
      by_cases hi : n = i <;> simp [hi]
    have h2 : clearMask (w ||| 2 ^ n) (2 ^ n) = w := by
      apply Nat.eq_of_testBit_eq; intro i
      simp only [testBit_clearMask, Nat.testBit_or, Nat.testBit_two_pow]
      by_cases hi : n = i
      · subst hi; simp [h]
      · simp [hi]
    rw [h1, h2] at hx
    have : 2 ^ n ≤ w ||| 2 ^ n := Nat.right_le_or
    omega
  unfold setBit
  cases b
  · cases h : w.testBit n
    · simp only [Bool.false_eq_true, if_true, if_false]
      apply Nat.eq_of_testBit_eq; intro i
      simp only [testBit_clearMask, Nat.testBit_two_pow]
      by_cases hi : n = i
      · subst hi; simp [h]
      · simp [hi]
    · simp only [Bool.true_eq_false, if_false, Bool.false_eq_true]
      have : w &&& 2 ^ n = 2 ^ n := by
        apply Nat.eq_of_testBit_eq; intro i
        simp only [Nat.testBit_and, Nat.testBit_two_pow]
        by_cases hi : n = i
        · subst hi; simp [h]
        · simp [hi]
      simp [clearMask, this]
  · cases h : w.testBit n
    · simp [hadd h]
    · simp only [if_true]
      apply Nat.eq_of_testBit_eq; intro i
      simp only [Nat.testBit_or, Nat.testBit_two_pow]
      by_cases hi : n = i
      · subst hi; simp [h]
      · simp [hi]

@[simp] theorem testBit_setBit_same (w n : Nat) (b : Bool) : (setBit w n b).testBit n = b := by
  rw [setBit_eq]; cases b <;> simp [Nat.testBit_or]

theorem testBit_setBit_ne (w : Nat) {n i : Nat} (b : Bool) (h : i ≠ n) : (setBit w n b).testBit i = w.testBit i := by
  rw [setBit_eq]; cases b <;> simp [Nat.testBit_or, Ne.symm h]

@[simp] theorem bitAt_setBit_same (w n : Nat) (b : Bool) : bitAt (setBit w n b) n = b := testBit_setBit_same w n b

theorem bitAt_setBit_ne (w : Nat) {n i : Nat} (b : Bool) (h : i ≠ n) : bitAt (setBit w n b) i = bitAt w i :=
  testBit_setBit_ne w b h

end Sys2Proof.Machine
end

