-- ==== Sys2Proof/Laws/Tab.lean ====
section
/-!
SUPPORT. Laws of the sparse tables and of fabric memory: a read after a write, and the canonical form.
-/

namespace Sys2Proof.Machine

section
variable {α : Type} (d : α)

theorem tget_tdel_same (t : Tab α) (k : Nat) : tget d (tdel t k) k = d := by
  induction t with
  | nil => rfl
  | cons p t ih =>
    obtain ⟨j, v⟩ := p
    by_cases h : j = k <;> simp [tdel, tget, h, ih]

theorem tget_tdel_ne (t : Tab α) {k i : Nat} (h : i ≠ k) : tget d (tdel t k) i = tget d t i := by
  induction t with
  | nil => rfl
  | cons p t ih =>
    obtain ⟨j, v⟩ := p
    by_cases hj : j = k
    · subst hj; simp [tdel, tget, ih, Ne.symm h]
    · simp [tdel, tget, hj, ih]

theorem tget_tput_same (t : Tab α) (k : Nat) (x : α) : tget d (tput k x t) k = x := by
  induction t with
  | nil => simp [tput, tget]
  | cons p t ih =>
    obtain ⟨j, v⟩ := p
    unfold tput
    split
    · simp [tget]
    · split
      · simp [tget]
      · rename_i h _; simp [tget, ih, h]

theorem tget_tput_ne (t : Tab α) {k i : Nat} (x : α) (h : i ≠ k) : tget d (tput k x t) i = tget d t i := by
  induction t with
  | nil => simp [tput, tget, Ne.symm h]
  | cons p t ih =>
    obtain ⟨j, v⟩ := p
    unfold tput
    split
    · subst_vars; simp [tget, Ne.symm h]
    · split
      · simp [tget, Ne.symm h]
      · simp [tget, ih]

variable [DecidableEq α]

@[simp] theorem tget_tset_same (t : Tab α) (k : Nat) (x : α) : tget d (tset d t k x) k = x := by
  unfold tset
  split
  · subst_vars; exact tget_tdel_same _ t k
  · exact tget_tput_same _ t k x

theorem tget_tset_ne (t : Tab α) {k i : Nat} (x : α) (h : i ≠ k) : tget d (tset d t k x) i = tget d t i := by
  unfold tset
  split
  · exact tget_tdel_ne d t h
  · exact tget_tput_ne d t x h

@[simp] theorem tget_tmod_same (t : Tab α) (k : Nat) (f : α → α) : tget d (tmod d t k f) k = f (tget d t k) := by
  simp [tmod]

theorem tget_tmod_ne (t : Tab α) {k i : Nat} (f : α → α) (h : i ≠ k) : tget d (tmod d t k f) i = tget d t i :=
  tget_tset_ne d t _ h

/-- Every index of a table is above a bound. -/
def above (b : Nat) : Tab α → Prop
  | [] => True
  | (j, _) :: _ => b < j

theorem twf_cons (j : Nat) (v : α) (t : Tab α) : twf d ((j, v) :: t) = true ↔ v ≠ d ∧ above j t ∧ twf d t = true := by
  cases t with
  | nil => simp [twf, above]
  | cons p t => obtain ⟨k, w⟩ := p; simp [twf, above, and_assoc]

omit [DecidableEq α] in
theorem above_mono {a b : Nat} (h : a < b) (t : Tab α) (ht : above b t) : above a t := by
  cases t with
  | nil => trivial
  | cons p t => exact Nat.lt_trans h ht

theorem twf_tdel (t : Tab α) (k : Nat) (h : twf d t = true) :
    twf d (tdel t k) = true ∧ ∀ b, above b t → above b (tdel t k) := by
  induction t with
  | nil => exact ⟨rfl, fun _ _ => trivial⟩
  | cons p t ih =>
    obtain ⟨j, v⟩ := p
    obtain ⟨hv, ha, ht⟩ := (twf_cons d j v t).1 h
    obtain ⟨h1, h2⟩ := ih ht
    unfold tdel
    split
    · exact ⟨h1, fun b hb => h2 b (above_mono hb t ha)⟩
    · exact ⟨(twf_cons d j v _).2 ⟨hv, h2 j ha, h1⟩, fun b hb => hb⟩

theorem twf_tput (t : Tab α) (k : Nat) (x : α) (hx : x ≠ d) (h : twf d t = true) :
    twf d (tput k x t) = true ∧ ∀ b, b < k → above b t → above b (tput k x t) := by
  induction t with
  | nil => exact ⟨(twf_cons d k x []).2 ⟨hx, trivial, rfl⟩, fun b hb _ => hb⟩
  | cons p t ih =>
    obtain ⟨j, v⟩ := p
    obtain ⟨hv, ha, ht⟩ := (twf_cons d j v t).1 h
    obtain ⟨h1, h2⟩ := ih ht
    unfold tput
    split
    · subst_vars; exact ⟨(twf_cons d _ x t).2 ⟨hx, ha, ht⟩, fun b hb _ => hb⟩
    · split
      · rename_i hk
        exact ⟨(twf_cons d k x _).2 ⟨hx, hk, h⟩, fun b hb _ => hb⟩
      · rename_i hne hk
        have hjk : j < k := by omega
        exact ⟨(twf_cons d j v _).2 ⟨hv, h2 j hjk ha, h1⟩, fun b _ hb => hb⟩

/-- A write keeps the canonical form. -/
theorem twf_tset (t : Tab α) (k : Nat) (x : α) (h : twf d t = true) : twf d (tset d t k x) = true := by
  unfold tset
  split
  · exact (twf_tdel d t k h).1
  · exact (twf_tput d t k x ‹_› h).1

end

/-! ### Fabric memory -/

@[simp] theorem memRead_memWrite_same (m : List Host.Cell) (a : Nat) (b : W8) : memRead (memWrite m a b) a = b :=
  tget_tset_same _ m a b

theorem memRead_memWrite_ne (m : List Host.Cell) {a i : Nat} (b : W8) (h : i ≠ a) :
    memRead (memWrite m a b) i = memRead m i := tget_tset_ne _ m b h

theorem memWf_memWrite (m : List Host.Cell) (a : Nat) (b : W8) (h : memWf m = true) : memWf (memWrite m a b) = true :=
  twf_tset _ m a b h

theorem memRead_memWriteBytes_out (l : List W8) (m : List Host.Cell) (a i : Nat) (h : i < a ∨ a + l.length ≤ i) :
    memRead (memWriteBytes m a l) i = memRead m i := by
  induction l generalizing m a with
  | nil => rfl
  | cons b t ih =>
    simp only [List.length_cons] at h
    simp only [memWriteBytes]
    rw [ih _ _ (by omega), memRead_memWrite_ne m b (by omega)]

theorem memRead_memWriteBytes_in (l : List W8) (m : List Host.Cell) (a k : Nat) (h : k < l.length) :
    memRead (memWriteBytes m a l) (a + k) = l[k] := by
  induction l generalizing m a k with
  | nil => simp at h
  | cons b t ih =>
    simp only [memWriteBytes]
    cases k with
    | zero => rw [memRead_memWriteBytes_out _ _ _ _ (by omega)]; simp
    | succ k =>
      have := ih (memWrite m a b) (a + 1) k (by simpa using h)
      rw [show a + (k + 1) = a + 1 + k by omega, this]; simp

/-- Every memory write keeps the canonical form. -/
theorem memWf_memWriteBytes (l : List W8) (m : List Host.Cell) (a : Nat) (h : memWf m = true) :
    memWf (memWriteBytes m a l) = true := by
  induction l generalizing m a with
  | nil => exact h
  | cons b t ih => exact ih _ _ (memWf_memWrite m a b h)

@[simp] theorem memReadBytes_length (m : List Host.Cell) (a n : Nat) : (memReadBytes m a n).length = n := by
  induction n generalizing a with
  | zero => rfl
  | succ n ih => simp [memReadBytes, ih]

end Sys2Proof.Machine
end

