-- ==== Sys2Proof/Laws/Settle.lean ====
section
/-!
SUPPORT. What the end of a command (settle) can change: events, Damsel, cells, ports, arms, trips, the sequence,
measurement, recorder, twin, mailboxes, power and the counter of free values. Every other part of the block stays as the command left it.
-/

namespace Sys2Proof.Machine

/-- The parts of the block that the end of a command leaves alone; the others blanked. -/
def Block.still (s : Block) : Block :=
  { s with ev := {}, dam := {}, cells := [], ports := [], arms := [], trip := {}, seq := {}, adc := {}, recd := {},
           tw := {}, host := {}, pwr := {}, free := 0 }

theorem still_forEach {α : Type} (l : List α) (f : α → Block → Block)
    (h : ∀ x s, (f x s).still = s.still) (s : Block) : (forEach l f s).still = s.still := by
  induction l generalizing s with
  | nil => rfl
  | cons x t ih => exact (ih _).trans (h x s)

theorem still_modArm (a : Nat) (f : ArmSt → ArmSt) (s : Block) : (modArm a f s).still = s.still := rfl
theorem still_modPort (p : Nat) (f : PortSt → PortSt) (s : Block) : (modPort p f s).still = s.still := rfl
theorem still_modTask (t : Nat) (f : TaskSt → TaskSt) (s : Block) : (modTask t f s).still = s.still := rfl
theorem still_modPrio (k : Nat) (f : List Nat → List Nat) (s : Block) : (modPrio k f s).still = s.still := rfl
theorem still_modCore (c : Nat) (f : CoreSt → CoreSt) (s : Block) : (modCore c f s).still = s.still := rfl
theorem still_raise (e : Nat) (s : Block) : (raise e s).still = s.still := rfl

theorem still_raiseIf (b : Bool) (e : Nat) (s : Block) : (raiseIf b e s).still = s.still := by
  unfold raiseIf; split <;> rfl

theorem still_setConv (st : ConvState) (s : Block) : (setConv st s).still = s.still := by
  unfold setConv; split <;> rfl

theorem still_runToBlocked (s : Block) : (runToBlocked s).still = s.still := by
  unfold runToBlocked; split
  · split <;> exact still_setConv _ _
  · rfl

theorem still_cellsStop (a : Nat) (s : Block) : (cellsStop a s).still = s.still := rfl

theorem still_withdrawLate (a : Nat) (s : Block) : (withdrawLate a s).still = s.still := by
  unfold withdrawLate
  lift_lets
  intro x
  split
  · rfl
  · intro s1
    have h1 : s1.still = s.still := rfl
    clear_value s1
    split
    · refine (still_forEach _ _ (fun _ _ => ?_) _).trans h1
      rfl
    · exact h1

theorem still_blockPort (p : Nat) (s : Block) : (blockPort p s).still = s.still := by
  unfold blockPort; split <;> rfl

theorem still_withdrawDeblock (a cause : Nat) (s : Block) : (withdrawDeblock a cause s).still = s.still := by
  unfold withdrawDeblock
  split
  · rfl
  · lift_lets
    intro s1
    have h1 : s1.still = s.still := rfl
    clear_value s1
    split
    · intro src s2
      have h2 : s2.still = s.still := h1
      clear_value s2
      refine (still_forEach _ _ (fun _ _ => ?_) _).trans h2
      rfl
    · exact h1

theorem still_blockSets (a : Nat) (s : Block) : (blockSets a s).still = s.still :=
  still_forEach _ _ still_blockPort s

theorem still_dropFrames (a : Nat) (s : Block) : (dropFrames a s).still = s.still := by
  refine still_forEach _ _ (fun _ _ => ?_) s
  rfl

theorem still_blockArm (a cause : Nat) (s : Block) : (blockArm a cause s).still = s.still := by
  unfold blockArm
  split
  · rfl
  · lift_lets
    intro x s1 s2 s3 same s4
    have h1 : s1.still = s.still := still_blockSets a s
    clear_value s1
    have h2 : s2.still = s.still := (still_dropFrames a s1).trans h1
    clear_value s2
    have h3 : s3.still = s.still := (still_withdrawLate a _).trans ((still_withdrawDeblock a cause s2).trans h2)
    clear_value s3
    have h4 : s4.still = s.still := by
      show (if _ then _ else _ : Block).still = _
      split <;> exact h3
    clear_value s4
    split
    · intro s5
      have h5 : s5.still = s.still := h4
      clear_value s5
      exact (still_runToBlocked _).trans h5
    · exact h4

theorem still_blockArms (l : List Nat) (cause : Nat) (s : Block) : (blockArms l cause s).still = s.still :=
  still_forEach _ _ (fun _ _ => still_blockArm _ _ _) _

/-! ### The Damsel -/

theorem still_taskDma (t k : Nat) (s : Block) : (taskDma t k s).still = s.still := by
  unfold taskDma; dsimp only; split <;> rfl

theorem still_overrun (t : Nat) (s : Block) : (overrun t s).still = s.still := by
  unfold overrun
  lift_lets
  intro s1 s2
  have h2 : s2.still = s.still := rfl
  clear_value s2
  split
  · exact (still_blockArms _ _ _).trans h2
  · exact h2

theorem still_keepPre (t : Nat) (s : Block) : (keepPre t s).still = s.still := by unfold keepPre; split <;> rfl
theorem still_keepDma (t : Nat) (s : Block) : (keepDma t s).still = s.still := by unfold keepDma; dsimp only; split <;> rfl

theorem still_releaseTask (t : Nat) (s : Block) : (releaseTask t s).still = s.still := by
  unfold releaseTask
  extract_lets l x s1 s2 s3 s4 s5
  have h3 : s3.still = s.still := (still_modTask _ _ _).trans (still_keepPre t s)
  clear_value s3
  split
  · rfl
  · split
    · rfl
    · split
      · rfl
      · split
        · exact h3
        · split
          · refine (still_taskDma t 0 (keepDma t s5)).trans ((still_keepDma t s5).trans ?_)
            exact (still_modTask _ _ _).trans ((still_modPrio _ _ _).trans h3)
          · exact (still_overrun t s3).trans h3

theorem still_setFlags (evs : List Nat) (s : Block) : (setFlags evs s).still = s.still := by
  refine still_forEach _ _ (fun _ _ => ?_) s
  rfl

theorem still_dispatchCore (c : Nat) (s : Block) : (dispatchCore c s).still = s.still := by
  unfold dispatchCore; repeat' split
  all_goals rfl

theorem still_markTask (t : Nat) (s : Block) : (markTask t s).still = s.still := by
  unfold markTask; repeat' split
  all_goals rfl

theorem still_dispatch (s : Block) : (dispatch s).still = s.still := by
  unfold dispatch dropMarks
  refine (still_forEach _ _ still_markTask _).trans ((still_forEach _ _ (fun c s => ?_) _).trans
    (still_forEach _ _ still_dispatchCore _))
  repeat' split
  all_goals rfl

theorem still_ungrant (g : Grant) (s : Block) : (ungrant g s).still = s.still := by
  unfold ungrant
  split
  · extract_lets s1
    have h1 : s1.still = s.still := still_modTask _ _ _
    clear_value s1
    refine (still_modPrio _ _ _).trans (Eq.trans ?_ h1)
    unfold freeCore
    exact still_modCore _ _ _
  · rfl

theorem still_ungrantAll (s : Block) : (ungrantAll s).still = s.still := by
  have h1 : ∀ (l : List Grant) (s : Block), (l.foldl (fun s g => ungrant g s) s).still = s.still := by
    intro l
    induction l with
    | nil => intro s; rfl
    | cons g t ih => intro s; exact (ih _).trans (still_ungrant g s)
  unfold ungrantAll
  extract_lets s1 s2
  have h2 : s1.still = s.still := h1 _ s
  clear_value s1
  have h3 : s2.still = s1.still := still_forEach _ _ (fun c s => by split <;> rfl) s1
  clear_value s2
  exact h3.trans h2

theorem still_damselEval (l : List Nat) (s : Block) : (damselEval l s).still = s.still := by
  have hf : ∀ l s, (flagsLater l s).still = s.still := fun _ _ => rfl
  have hg : ∀ s, (ungrantAll s).still = s.still := still_ungrantAll
  have hr : ∀ s, (damselFresh s).still = s.still := fun s => by unfold damselFresh; split <;> rfl
  unfold damselEval
  dsimp only
  refine (still_dispatch _).trans ((hf _ _).trans ((still_forEach _ _ still_releaseTask _).trans
    ((still_setFlags _ _).trans ((hg _).trans ((hf _ _).trans ((hr _).trans rfl))))))

/-! ### Twin, power, ports, comparators, mailboxes -/

theorem still_sendHb (s : Block) : (sendHb s).still = s.still := by unfold sendHb; split <;> rfl

theorem still_declare (c : Nat) (s : Block) : (declare c s).still = s.still := by
  unfold declare; split
  · exact still_sendHb _
  · rfl

theorem still_twinSettle (s : Block) : (twinSettle s).still = s.still := by
  have h1 : ∀ s : Block, (trackRevert s).still = s.still := fun s => by
    unfold trackRevert; repeat' split
    all_goals rfl
  have h2 : ∀ s : Block, (trackSteady s).still = s.still := fun s => by
    unfold trackSteady; dsimp only; split <;> rfl
  exact (h1 _).trans ((h2 _).trans (still_forEach _ _ still_declare _))

theorem still_driveVdd (v : Nat) (s : Block) : (driveVdd v s).still = s.still := by
  unfold driveVdd; split <;> rfl

theorem still_pwrWakeStart (d : PowerState) (c : Nat) (s : Block) : (pwrWakeStart d c s).still = s.still := by
  unfold pwrWakeStart
  exact still_driveVdd _ _

theorem still_pwrWakeStep (cause : Nat) (s : Block) : (pwrWakeStep cause s).still = s.still := by
  unfold pwrWakeStep; dsimp only; repeat' split
  all_goals first | rfl | exact still_pwrWakeStart _ _ _

theorem still_wakeSettle (evs : List Nat) (s : Block) : (wakeSettle evs s).still = s.still := by
  refine still_forEach _ _ (fun p s => ?_) _
  split
  · exact still_pwrWakeStep _ _
  · rfl

theorem still_enterDiscover (p : Nat) (s : Block) : (enterDiscover p s).still = s.still := by
  have ha : ∀ s, (alignLost p s).still = s.still := fun s => (still_raiseIf _ _ _).trans (still_modPort _ _ _)
  have hn : (noSegment p s).still = s.still := (ha _).trans (still_modPort _ _ _)
  unfold enterDiscover
  extract_lets t
  have ht : t.still = s.still := (still_modPort _ _ _).trans hn
  clear_value t
  exact Eq.trans rfl ht

theorem still_leaveFail (p : Nat) (s : Block) : (leaveFail p s).still = s.still := by
  unfold leaveFail; split
  · exact still_enterDiscover _ _
  · rfl

theorem still_driveCmd (k : Nat) (on : Bool) (s : Block) : (driveCmd k on s).still = s.still := rfl

theorem still_tripOpen (i : Nat) (s : Block) : (tripOpen i s).still = s.still := by
  unfold tripOpen
  lift_lets
  intro k m b src s1 s2 src2 s3
  have h1 : s1.still = s.still := rfl
  clear_value s1
  have h2 : s2.still = s.still := (still_driveCmd _ _ _).trans h1
  clear_value s2
  exact h2

theorem still_tripAct (i : Nat) (s : Block) : (tripAct i s).still = s.still := by
  unfold tripAct
  lift_lets
  intro s1
  have h1 : s1.still = s.still := rfl
  clear_value s1
  intro ev opn blk src s2
  have h2 : s2.still = s.still := h1
  clear_value s2
  intro s3
  have h3 : s3.still = s.still := (still_raiseIf _ _ s2).trans h2
  clear_value s3
  intro s4
  have h4 : s4.still = s.still := by
    show (if _ then _ else _ : Block).still = _
    split
    · exact (still_forEach _ _ (fun _ _ => still_modArm _ _ _) _).trans ((still_blockArms _ _ _).trans h3)
    · exact h3
  clear_value s4
  split
  · exact h1
  · split
    · exact (still_tripOpen _ _).trans h4
    · exact h4

theorem still_tripRise (i : Nat) (s : Block) : (tripRise i s).still = s.still := by
  unfold tripRise
  dsimp only
  repeat' split
  all_goals first | rfl | exact still_raiseIf _ _ _ | exact (still_tripAct _ _).trans (still_raiseIf _ _ _)

theorem still_cmpDrive (j : Nat) (s : Block) : (cmpDrive j s).still = s.still := by
  unfold cmpDrive
  dsimp only
  repeat' split
  all_goals first | rfl | exact still_tripAct _ _ | exact still_tripRise _ _

theorem still_cmpSettle (s : Block) : (cmpSettle s).still = s.still := by
  refine still_forEach _ _ (fun j s => ?_) _
  split
  · exact still_cmpDrive _ _
  · rfl

theorem still_mbxDone (m st d i : Nat) (l : List W8) (s : Block) : (mbxDone m st d i l s).still = s.still := by
  unfold mbxDone
  dsimp only
  repeat' split
  all_goals first | rfl | exact (still_raiseIf _ _ _).trans (still_raiseIf _ _ _)

theorem still_abortRunning (m : Nat) (s : Block) : (abortRunning m s).still = s.still := by
  unfold abortRunning
  refine (still_forEach _ _ (fun _ _ => ?_) _).trans ?_
  · rfl
  · show Block.still (modTw _ (if _ then _ else _)) = _
    split <;> rfl

theorem still_abortSettle (m : Nat) (s : Block) : (abortSettle m s).still = s.still := by
  unfold abortSettle; dsimp only; split
  · exact (still_mbxDone _ _ _ _ _ _).trans (still_abortRunning _ _)
  · rfl

theorem still_storeSet (c : CfgSet) (k : Bool) (s : Block) : (storeSet c k s).2.still = s.still := by
  unfold storeSet; dsimp only; split <;> rfl

theorem still_storeSettle (s : Block) : (storeSettle s).still = s.still := by
  unfold storeSettle
  split
  · rfl
  · split
    · rfl
    · dsimp only
      split
      · refine (still_mbxDone _ _ _ _ _ _).trans ?_
        split
        · exact still_storeSet _ _ _
        · rfl
      · split
        · exact still_storeSet _ _ _
        · rfl

theorem still_mbxSettle (s : Block) : (mbxSettle s).still = s.still := by
  refine (still_forEach _ _ (fun m s => ?_) _).trans (still_storeSettle s)
  dsimp only
  split
  · exact (still_mbxDone _ _ _ _ _ _).trans (still_abortSettle _ _)
  · exact still_abortSettle _ _

/-- The requests of the transport only read, but for the counter of free values and FILL_MAX of a queue. -/
theorem still_udpOp (r : MbxReq) (s : Block) : (udpOp r s).2.still = s.still := by
  have hn : ∀ n (k : OpRes × Block), k.2.still = s.still → (needLen n r s k).2.still = s.still := fun n k h => by
    unfold needLen; split
    · exact h
    · rfl
  unfold udpOp
  split
  · exact hn _ _ rfl
  · exact hn _ _ rfl
  · unfold paramReadUpTo; split
    · rfl
    · refine hn _ _ ?_; dsimp only; split <;> rfl
  · refine hn _ _ ?_; dsimp only; split <;> rfl
  · unfold opParamFind; split
    · rfl
    · split <;> rfl
  · exact hn _ _ rfl
  · refine hn _ _ ?_; split <;> rfl
  · refine hn _ _ ?_; split <;> rfl
  · refine hn _ _ ?_; split <;> rfl
  · refine hn _ _ ?_; dsimp only; split <;> rfl
  · refine hn _ _ ?_; split <;> rfl
  · exact hn _ _ rfl
  · rfl

theorem still_udpRun (r : MbxReq) (s : Block) : (udpRun r s).still = s.still := still_udpOp r s

theorem still_udpSettle (s : Block) : (udpSettle s).still = s.still := by
  unfold udpSettle; split
  · rfl
  · exact (still_forEach _ _ (fun (u : Nat × MbxReq) s => still_udpRun u.2 s) _).trans rfl

/-! ### Measurement, recorder, host events -/

theorem still_injTrigger (u t : Nat) (w : Option Nat) (s : Block) : (injTrigger u t w s).still = s.still := by
  unfold injTrigger; dsimp only; repeat' split
  all_goals rfl

theorem still_injEvents (evs : List Nat) (s : Block) : (injEvents evs s).still = s.still := by
  refine still_forEach _ _ (fun u s => ?_) _
  dsimp only
  split
  · exact still_injTrigger _ _ _ _
  · rfl

theorem still_recFire (l : List RecLog) (s : Block) : (recFire l s).still = s.still := by
  unfold recFire
  split
  · rfl
  · rfl
  · lift_lets
    intro n best c1
    repeat' split
    all_goals rfl

theorem still_evalConds (f : RecTrg → Option Bool) (t : Int) (s : Block) : (evalConds f t s).still = s.still := by
  unfold evalConds
  split
  · rfl
  · exact still_recFire _ _

theorem still_recEvents (evs : List Nat) (s : Block) : (recEvents evs s).still = s.still := by
  unfold recEvents
  split
  · rfl
  · dsimp only
    split
    · rfl
    · exact still_evalConds _ _ _

theorem still_evtRaise (evs : List Nat) (s : Block) : (evtRaise evs s).still = s.still := by
  unfold evtRaise; dsimp only; split <;> rfl

theorem still_msiSettle (s : Block) : (msiSettle s).still = s.still := by
  unfold msiSettle
  lift_lets
  intro act out due go
  refine (still_forEach _ _ (fun _ _ => ?_) _).trans rfl
  rfl

theorem still_portsSettle (s : Block) : (portsSettle s).still = s.still := still_forEach _ _ still_leaveFail s

theorem still_triggers (k : Nat) (s : Block) : (triggers k s).still = s.still := by
  unfold triggers; dsimp only
  exact (still_recEvents _ _).trans ((still_recEvents _ _).trans (still_injEvents _ _))

/-- What the end of a command can do: every part of the block that `still` keeps is as the command left it. -/
theorem still_settle (s : Block) : (settle s).still = s.still := by
  unfold settle
  lift_lets
  intro s1 n s2 s3 k s4 s5 s6
  have h1 : s1.still = s.still := still_damselEval _ s
  clear_value s1
  have h2 : s2.still = s.still :=
    (still_udpSettle _).trans ((still_mbxSettle _).trans ((still_cmpSettle _).trans ((still_portsSettle _).trans
      ((still_wakeSettle _ _).trans ((still_twinSettle _).trans h1)))))
  clear_value s2
  have h3 : s3.still = s.still := (still_triggers _ _).trans h2
  clear_value s3
  have h4 : s4.still = s.still := (still_damselEval _ _).trans h3
  clear_value s4
  have h5 : s5.still = s.still := (still_triggers _ _).trans h4
  clear_value s5
  have h6 : s6.still = s.still := (still_evtRaise _ _).trans h5
  clear_value s6
  exact (still_msiSettle _).trans h6

@[simp] theorem settle_now (s : Block) : (settle s).now = s.now := by
  have h := congrArg Block.now (still_settle s); exact h
@[simp] theorem settle_cyc (s : Block) : (settle s).cyc = s.cyc := by
  have h := congrArg Block.cyc (still_settle s); exact h
@[simp] theorem settle_par (s : Block) : (settle s).par = s.par := by
  have h := congrArg Block.par (still_settle s); exact h
@[simp] theorem settle_model (s : Block) : (settle s).model = s.model := by
  have h := congrArg Block.model (still_settle s); exact h
@[simp] theorem settle_changes (s : Block) : (settle s).changes = s.changes := by
  have h := congrArg Block.changes (still_settle s); exact h
@[simp] theorem settle_si (s : Block) : (settle s).si = s.si := by
  have h := congrArg Block.si (still_settle s); exact h
@[simp] theorem settle_tentNext (s : Block) : (settle s).tentNext = s.tentNext := by
  have h := congrArg Block.tentNext (still_settle s); exact h
@[simp] theorem settle_gov (s : Block) : (settle s).gov = s.gov := by
  have h := congrArg Block.gov (still_settle s); exact h
@[simp] theorem settle_eng (s : Block) : (settle s).eng = s.eng := by
  have h := congrArg Block.eng (still_settle s); exact h
@[simp] theorem settle_spb (s : Block) : (settle s).spb = s.spb := by
  have h := congrArg Block.spb (still_settle s); exact h
@[simp] theorem settle_graph (s : Block) : (settle s).graph = s.graph := by
  have h := congrArg Block.graph (still_settle s); exact h
@[simp] theorem settle_mem (s : Block) : (settle s).mem = s.mem := by
  have h := congrArg Block.mem (still_settle s); exact h
@[simp] theorem settle_time (s : Block) : (settle s).time = s.time := by
  have h := congrArg Block.time (still_settle s); exact h
@[simp] theorem settle_rst (s : Block) : (settle s).rst = s.rst := by
  have h := congrArg Block.rst (still_settle s); exact h

end Sys2Proof.Machine
end

