-- ==== Sys2Proof/Laws/State.lean ====
section
/-!
SUPPORT. What each named update of the block leaves alone, field by field, and what a read after it gives.
-/

namespace Sys2Proof.Machine

/-! ### raise -/

@[simp] theorem raise_now (e : Nat) (s : Block) : (raise e s).now = s.now := rfl
@[simp] theorem raise_free (e : Nat) (s : Block) : (raise e s).free = s.free := rfl
@[simp] theorem raise_cyc (e : Nat) (s : Block) : (raise e s).cyc = s.cyc := rfl
@[simp] theorem raise_par (e : Nat) (s : Block) : (raise e s).par = s.par := rfl
@[simp] theorem raise_model (e : Nat) (s : Block) : (raise e s).model = s.model := rfl
@[simp] theorem raise_cells (e : Nat) (s : Block) : (raise e s).cells = s.cells := rfl
@[simp] theorem raise_changes (e : Nat) (s : Block) : (raise e s).changes = s.changes := rfl
@[simp] theorem raise_ports (e : Nat) (s : Block) : (raise e s).ports = s.ports := rfl
@[simp] theorem raise_arms (e : Nat) (s : Block) : (raise e s).arms = s.arms := rfl
@[simp] theorem raise_trip (e : Nat) (s : Block) : (raise e s).trip = s.trip := rfl
@[simp] theorem raise_seq (e : Nat) (s : Block) : (raise e s).seq = s.seq := rfl
@[simp] theorem raise_si (e : Nat) (s : Block) : (raise e s).si = s.si := rfl
@[simp] theorem raise_tentNext (e : Nat) (s : Block) : (raise e s).tentNext = s.tentNext := rfl
@[simp] theorem raise_gov (e : Nat) (s : Block) : (raise e s).gov = s.gov := rfl
@[simp] theorem raise_eng (e : Nat) (s : Block) : (raise e s).eng = s.eng := rfl
@[simp] theorem raise_adc (e : Nat) (s : Block) : (raise e s).adc = s.adc := rfl
@[simp] theorem raise_recd (e : Nat) (s : Block) : (raise e s).recd = s.recd := rfl
@[simp] theorem raise_tw (e : Nat) (s : Block) : (raise e s).tw = s.tw := rfl
@[simp] theorem raise_spb (e : Nat) (s : Block) : (raise e s).spb = s.spb := rfl
@[simp] theorem raise_graph (e : Nat) (s : Block) : (raise e s).graph = s.graph := rfl
@[simp] theorem raise_dam (e : Nat) (s : Block) : (raise e s).dam = s.dam := rfl
@[simp] theorem raise_mem (e : Nat) (s : Block) : (raise e s).mem = s.mem := rfl
@[simp] theorem raise_host (e : Nat) (s : Block) : (raise e s).host = s.host := rfl
@[simp] theorem raise_time (e : Nat) (s : Block) : (raise e s).time = s.time := rfl
@[simp] theorem raise_pwr (e : Nat) (s : Block) : (raise e s).pwr = s.pwr := rfl
@[simp] theorem raise_rst (e : Nat) (s : Block) : (raise e s).rst = s.rst := rfl

/-! ### useFree -/

@[simp] theorem useFree_now (s : Block) : (useFree s).now = s.now := rfl
@[simp] theorem useFree_cyc (s : Block) : (useFree s).cyc = s.cyc := rfl
@[simp] theorem useFree_par (s : Block) : (useFree s).par = s.par := rfl
@[simp] theorem useFree_model (s : Block) : (useFree s).model = s.model := rfl
@[simp] theorem useFree_ev (s : Block) : (useFree s).ev = s.ev := rfl
@[simp] theorem useFree_cells (s : Block) : (useFree s).cells = s.cells := rfl
@[simp] theorem useFree_changes (s : Block) : (useFree s).changes = s.changes := rfl
@[simp] theorem useFree_ports (s : Block) : (useFree s).ports = s.ports := rfl
@[simp] theorem useFree_arms (s : Block) : (useFree s).arms = s.arms := rfl
@[simp] theorem useFree_trip (s : Block) : (useFree s).trip = s.trip := rfl
@[simp] theorem useFree_seq (s : Block) : (useFree s).seq = s.seq := rfl
@[simp] theorem useFree_si (s : Block) : (useFree s).si = s.si := rfl
@[simp] theorem useFree_tentNext (s : Block) : (useFree s).tentNext = s.tentNext := rfl
@[simp] theorem useFree_gov (s : Block) : (useFree s).gov = s.gov := rfl
@[simp] theorem useFree_eng (s : Block) : (useFree s).eng = s.eng := rfl
@[simp] theorem useFree_adc (s : Block) : (useFree s).adc = s.adc := rfl
@[simp] theorem useFree_recd (s : Block) : (useFree s).recd = s.recd := rfl
@[simp] theorem useFree_tw (s : Block) : (useFree s).tw = s.tw := rfl
@[simp] theorem useFree_spb (s : Block) : (useFree s).spb = s.spb := rfl
@[simp] theorem useFree_graph (s : Block) : (useFree s).graph = s.graph := rfl
@[simp] theorem useFree_dam (s : Block) : (useFree s).dam = s.dam := rfl
@[simp] theorem useFree_mem (s : Block) : (useFree s).mem = s.mem := rfl
@[simp] theorem useFree_host (s : Block) : (useFree s).host = s.host := rfl
@[simp] theorem useFree_time (s : Block) : (useFree s).time = s.time := rfl
@[simp] theorem useFree_pwr (s : Block) : (useFree s).pwr = s.pwr := rfl
@[simp] theorem useFree_rst (s : Block) : (useFree s).rst = s.rst := rfl

/-! ### parSet -/

@[simp] theorem parSet_now (i : Nat) (v : W32) (s : Block) : (parSet i v s).now = s.now := rfl
@[simp] theorem parSet_free (i : Nat) (v : W32) (s : Block) : (parSet i v s).free = s.free := rfl
@[simp] theorem parSet_cyc (i : Nat) (v : W32) (s : Block) : (parSet i v s).cyc = s.cyc := rfl
@[simp] theorem parSet_model (i : Nat) (v : W32) (s : Block) : (parSet i v s).model = s.model := rfl
@[simp] theorem parSet_ev (i : Nat) (v : W32) (s : Block) : (parSet i v s).ev = s.ev := rfl
@[simp] theorem parSet_cells (i : Nat) (v : W32) (s : Block) : (parSet i v s).cells = s.cells := rfl
@[simp] theorem parSet_changes (i : Nat) (v : W32) (s : Block) : (parSet i v s).changes = s.changes := rfl
@[simp] theorem parSet_ports (i : Nat) (v : W32) (s : Block) : (parSet i v s).ports = s.ports := rfl
@[simp] theorem parSet_arms (i : Nat) (v : W32) (s : Block) : (parSet i v s).arms = s.arms := rfl
@[simp] theorem parSet_trip (i : Nat) (v : W32) (s : Block) : (parSet i v s).trip = s.trip := rfl
@[simp] theorem parSet_seq (i : Nat) (v : W32) (s : Block) : (parSet i v s).seq = s.seq := rfl
@[simp] theorem parSet_si (i : Nat) (v : W32) (s : Block) : (parSet i v s).si = s.si := rfl
@[simp] theorem parSet_tentNext (i : Nat) (v : W32) (s : Block) : (parSet i v s).tentNext = s.tentNext := rfl
@[simp] theorem parSet_gov (i : Nat) (v : W32) (s : Block) : (parSet i v s).gov = s.gov := rfl
@[simp] theorem parSet_eng (i : Nat) (v : W32) (s : Block) : (parSet i v s).eng = s.eng := rfl
@[simp] theorem parSet_adc (i : Nat) (v : W32) (s : Block) : (parSet i v s).adc = s.adc := rfl
@[simp] theorem parSet_recd (i : Nat) (v : W32) (s : Block) : (parSet i v s).recd = s.recd := rfl
@[simp] theorem parSet_tw (i : Nat) (v : W32) (s : Block) : (parSet i v s).tw = s.tw := rfl
@[simp] theorem parSet_spb (i : Nat) (v : W32) (s : Block) : (parSet i v s).spb = s.spb := rfl
@[simp] theorem parSet_graph (i : Nat) (v : W32) (s : Block) : (parSet i v s).graph = s.graph := rfl
@[simp] theorem parSet_dam (i : Nat) (v : W32) (s : Block) : (parSet i v s).dam = s.dam := rfl
@[simp] theorem parSet_mem (i : Nat) (v : W32) (s : Block) : (parSet i v s).mem = s.mem := rfl
@[simp] theorem parSet_host (i : Nat) (v : W32) (s : Block) : (parSet i v s).host = s.host := rfl
@[simp] theorem parSet_time (i : Nat) (v : W32) (s : Block) : (parSet i v s).time = s.time := rfl
@[simp] theorem parSet_pwr (i : Nat) (v : W32) (s : Block) : (parSet i v s).pwr = s.pwr := rfl
@[simp] theorem parSet_rst (i : Nat) (v : W32) (s : Block) : (parSet i v s).rst = s.rst := rfl

/-! ### addChange -/

@[simp] theorem addChange_now (c : CellChange) (s : Block) : (addChange c s).now = s.now := rfl
@[simp] theorem addChange_free (c : CellChange) (s : Block) : (addChange c s).free = s.free := rfl
@[simp] theorem addChange_cyc (c : CellChange) (s : Block) : (addChange c s).cyc = s.cyc := rfl
@[simp] theorem addChange_par (c : CellChange) (s : Block) : (addChange c s).par = s.par := rfl
@[simp] theorem addChange_model (c : CellChange) (s : Block) : (addChange c s).model = s.model := rfl
@[simp] theorem addChange_ev (c : CellChange) (s : Block) : (addChange c s).ev = s.ev := rfl
@[simp] theorem addChange_cells (c : CellChange) (s : Block) : (addChange c s).cells = s.cells := rfl
@[simp] theorem addChange_ports (c : CellChange) (s : Block) : (addChange c s).ports = s.ports := rfl
@[simp] theorem addChange_arms (c : CellChange) (s : Block) : (addChange c s).arms = s.arms := rfl
@[simp] theorem addChange_trip (c : CellChange) (s : Block) : (addChange c s).trip = s.trip := rfl
@[simp] theorem addChange_seq (c : CellChange) (s : Block) : (addChange c s).seq = s.seq := rfl
@[simp] theorem addChange_si (c : CellChange) (s : Block) : (addChange c s).si = s.si := rfl
@[simp] theorem addChange_tentNext (c : CellChange) (s : Block) : (addChange c s).tentNext = s.tentNext := rfl
@[simp] theorem addChange_gov (c : CellChange) (s : Block) : (addChange c s).gov = s.gov := rfl
@[simp] theorem addChange_eng (c : CellChange) (s : Block) : (addChange c s).eng = s.eng := rfl
@[simp] theorem addChange_adc (c : CellChange) (s : Block) : (addChange c s).adc = s.adc := rfl
@[simp] theorem addChange_recd (c : CellChange) (s : Block) : (addChange c s).recd = s.recd := rfl
@[simp] theorem addChange_tw (c : CellChange) (s : Block) : (addChange c s).tw = s.tw := rfl
@[simp] theorem addChange_spb (c : CellChange) (s : Block) : (addChange c s).spb = s.spb := rfl
@[simp] theorem addChange_graph (c : CellChange) (s : Block) : (addChange c s).graph = s.graph := rfl
@[simp] theorem addChange_dam (c : CellChange) (s : Block) : (addChange c s).dam = s.dam := rfl
@[simp] theorem addChange_mem (c : CellChange) (s : Block) : (addChange c s).mem = s.mem := rfl
@[simp] theorem addChange_host (c : CellChange) (s : Block) : (addChange c s).host = s.host := rfl
@[simp] theorem addChange_time (c : CellChange) (s : Block) : (addChange c s).time = s.time := rfl
@[simp] theorem addChange_pwr (c : CellChange) (s : Block) : (addChange c s).pwr = s.pwr := rfl
@[simp] theorem addChange_rst (c : CellChange) (s : Block) : (addChange c s).rst = s.rst := rfl

/-! ### modCell -/

@[simp] theorem modCell_cells (g : Nat) (f : CellSt → CellSt) (s : Block) : (modCell g f s).cells = tmod {} s.cells g f := rfl
@[simp] theorem modCell_now (g : Nat) (f : CellSt → CellSt) (s : Block) : (modCell g f s).now = s.now := rfl
@[simp] theorem modCell_free (g : Nat) (f : CellSt → CellSt) (s : Block) : (modCell g f s).free = s.free := rfl
@[simp] theorem modCell_cyc (g : Nat) (f : CellSt → CellSt) (s : Block) : (modCell g f s).cyc = s.cyc := rfl
@[simp] theorem modCell_par (g : Nat) (f : CellSt → CellSt) (s : Block) : (modCell g f s).par = s.par := rfl
@[simp] theorem modCell_model (g : Nat) (f : CellSt → CellSt) (s : Block) : (modCell g f s).model = s.model := rfl
@[simp] theorem modCell_ev (g : Nat) (f : CellSt → CellSt) (s : Block) : (modCell g f s).ev = s.ev := rfl
@[simp] theorem modCell_changes (g : Nat) (f : CellSt → CellSt) (s : Block) : (modCell g f s).changes = s.changes := rfl
@[simp] theorem modCell_ports (g : Nat) (f : CellSt → CellSt) (s : Block) : (modCell g f s).ports = s.ports := rfl
@[simp] theorem modCell_arms (g : Nat) (f : CellSt → CellSt) (s : Block) : (modCell g f s).arms = s.arms := rfl
@[simp] theorem modCell_trip (g : Nat) (f : CellSt → CellSt) (s : Block) : (modCell g f s).trip = s.trip := rfl
@[simp] theorem modCell_seq (g : Nat) (f : CellSt → CellSt) (s : Block) : (modCell g f s).seq = s.seq := rfl
@[simp] theorem modCell_si (g : Nat) (f : CellSt → CellSt) (s : Block) : (modCell g f s).si = s.si := rfl
@[simp] theorem modCell_tentNext (g : Nat) (f : CellSt → CellSt) (s : Block) : (modCell g f s).tentNext = s.tentNext := rfl
@[simp] theorem modCell_gov (g : Nat) (f : CellSt → CellSt) (s : Block) : (modCell g f s).gov = s.gov := rfl
@[simp] theorem modCell_eng (g : Nat) (f : CellSt → CellSt) (s : Block) : (modCell g f s).eng = s.eng := rfl
@[simp] theorem modCell_adc (g : Nat) (f : CellSt → CellSt) (s : Block) : (modCell g f s).adc = s.adc := rfl
@[simp] theorem modCell_recd (g : Nat) (f : CellSt → CellSt) (s : Block) : (modCell g f s).recd = s.recd := rfl
@[simp] theorem modCell_tw (g : Nat) (f : CellSt → CellSt) (s : Block) : (modCell g f s).tw = s.tw := rfl
@[simp] theorem modCell_spb (g : Nat) (f : CellSt → CellSt) (s : Block) : (modCell g f s).spb = s.spb := rfl
@[simp] theorem modCell_graph (g : Nat) (f : CellSt → CellSt) (s : Block) : (modCell g f s).graph = s.graph := rfl
@[simp] theorem modCell_dam (g : Nat) (f : CellSt → CellSt) (s : Block) : (modCell g f s).dam = s.dam := rfl
@[simp] theorem modCell_mem (g : Nat) (f : CellSt → CellSt) (s : Block) : (modCell g f s).mem = s.mem := rfl
@[simp] theorem modCell_host (g : Nat) (f : CellSt → CellSt) (s : Block) : (modCell g f s).host = s.host := rfl
@[simp] theorem modCell_time (g : Nat) (f : CellSt → CellSt) (s : Block) : (modCell g f s).time = s.time := rfl
@[simp] theorem modCell_pwr (g : Nat) (f : CellSt → CellSt) (s : Block) : (modCell g f s).pwr = s.pwr := rfl
@[simp] theorem modCell_rst (g : Nat) (f : CellSt → CellSt) (s : Block) : (modCell g f s).rst = s.rst := rfl

/-! ### modPort -/

@[simp] theorem modPort_ports (p : Nat) (f : PortSt → PortSt) (s : Block) : (modPort p f s).ports = tmod {} s.ports p f := rfl
@[simp] theorem modPort_now (p : Nat) (f : PortSt → PortSt) (s : Block) : (modPort p f s).now = s.now := rfl
@[simp] theorem modPort_free (p : Nat) (f : PortSt → PortSt) (s : Block) : (modPort p f s).free = s.free := rfl
@[simp] theorem modPort_cyc (p : Nat) (f : PortSt → PortSt) (s : Block) : (modPort p f s).cyc = s.cyc := rfl
@[simp] theorem modPort_par (p : Nat) (f : PortSt → PortSt) (s : Block) : (modPort p f s).par = s.par := rfl
@[simp] theorem modPort_model (p : Nat) (f : PortSt → PortSt) (s : Block) : (modPort p f s).model = s.model := rfl
@[simp] theorem modPort_ev (p : Nat) (f : PortSt → PortSt) (s : Block) : (modPort p f s).ev = s.ev := rfl
@[simp] theorem modPort_cells (p : Nat) (f : PortSt → PortSt) (s : Block) : (modPort p f s).cells = s.cells := rfl
@[simp] theorem modPort_changes (p : Nat) (f : PortSt → PortSt) (s : Block) : (modPort p f s).changes = s.changes := rfl
@[simp] theorem modPort_arms (p : Nat) (f : PortSt → PortSt) (s : Block) : (modPort p f s).arms = s.arms := rfl
@[simp] theorem modPort_trip (p : Nat) (f : PortSt → PortSt) (s : Block) : (modPort p f s).trip = s.trip := rfl
@[simp] theorem modPort_seq (p : Nat) (f : PortSt → PortSt) (s : Block) : (modPort p f s).seq = s.seq := rfl
@[simp] theorem modPort_si (p : Nat) (f : PortSt → PortSt) (s : Block) : (modPort p f s).si = s.si := rfl
@[simp] theorem modPort_tentNext (p : Nat) (f : PortSt → PortSt) (s : Block) : (modPort p f s).tentNext = s.tentNext := rfl
@[simp] theorem modPort_gov (p : Nat) (f : PortSt → PortSt) (s : Block) : (modPort p f s).gov = s.gov := rfl
@[simp] theorem modPort_eng (p : Nat) (f : PortSt → PortSt) (s : Block) : (modPort p f s).eng = s.eng := rfl
@[simp] theorem modPort_adc (p : Nat) (f : PortSt → PortSt) (s : Block) : (modPort p f s).adc = s.adc := rfl
@[simp] theorem modPort_recd (p : Nat) (f : PortSt → PortSt) (s : Block) : (modPort p f s).recd = s.recd := rfl
@[simp] theorem modPort_tw (p : Nat) (f : PortSt → PortSt) (s : Block) : (modPort p f s).tw = s.tw := rfl
@[simp] theorem modPort_spb (p : Nat) (f : PortSt → PortSt) (s : Block) : (modPort p f s).spb = s.spb := rfl
@[simp] theorem modPort_graph (p : Nat) (f : PortSt → PortSt) (s : Block) : (modPort p f s).graph = s.graph := rfl
@[simp] theorem modPort_dam (p : Nat) (f : PortSt → PortSt) (s : Block) : (modPort p f s).dam = s.dam := rfl
@[simp] theorem modPort_mem (p : Nat) (f : PortSt → PortSt) (s : Block) : (modPort p f s).mem = s.mem := rfl
@[simp] theorem modPort_host (p : Nat) (f : PortSt → PortSt) (s : Block) : (modPort p f s).host = s.host := rfl
@[simp] theorem modPort_time (p : Nat) (f : PortSt → PortSt) (s : Block) : (modPort p f s).time = s.time := rfl
@[simp] theorem modPort_pwr (p : Nat) (f : PortSt → PortSt) (s : Block) : (modPort p f s).pwr = s.pwr := rfl
@[simp] theorem modPort_rst (p : Nat) (f : PortSt → PortSt) (s : Block) : (modPort p f s).rst = s.rst := rfl

/-! ### modArm -/

@[simp] theorem modArm_arms (a : Nat) (f : ArmSt → ArmSt) (s : Block) : (modArm a f s).arms = tmod {} s.arms a f := rfl
@[simp] theorem modArm_now (a : Nat) (f : ArmSt → ArmSt) (s : Block) : (modArm a f s).now = s.now := rfl
@[simp] theorem modArm_free (a : Nat) (f : ArmSt → ArmSt) (s : Block) : (modArm a f s).free = s.free := rfl
@[simp] theorem modArm_cyc (a : Nat) (f : ArmSt → ArmSt) (s : Block) : (modArm a f s).cyc = s.cyc := rfl
@[simp] theorem modArm_par (a : Nat) (f : ArmSt → ArmSt) (s : Block) : (modArm a f s).par = s.par := rfl
@[simp] theorem modArm_model (a : Nat) (f : ArmSt → ArmSt) (s : Block) : (modArm a f s).model = s.model := rfl
@[simp] theorem modArm_ev (a : Nat) (f : ArmSt → ArmSt) (s : Block) : (modArm a f s).ev = s.ev := rfl
@[simp] theorem modArm_cells (a : Nat) (f : ArmSt → ArmSt) (s : Block) : (modArm a f s).cells = s.cells := rfl
@[simp] theorem modArm_changes (a : Nat) (f : ArmSt → ArmSt) (s : Block) : (modArm a f s).changes = s.changes := rfl
@[simp] theorem modArm_ports (a : Nat) (f : ArmSt → ArmSt) (s : Block) : (modArm a f s).ports = s.ports := rfl
@[simp] theorem modArm_trip (a : Nat) (f : ArmSt → ArmSt) (s : Block) : (modArm a f s).trip = s.trip := rfl
@[simp] theorem modArm_seq (a : Nat) (f : ArmSt → ArmSt) (s : Block) : (modArm a f s).seq = s.seq := rfl
@[simp] theorem modArm_si (a : Nat) (f : ArmSt → ArmSt) (s : Block) : (modArm a f s).si = s.si := rfl
@[simp] theorem modArm_tentNext (a : Nat) (f : ArmSt → ArmSt) (s : Block) : (modArm a f s).tentNext = s.tentNext := rfl
@[simp] theorem modArm_gov (a : Nat) (f : ArmSt → ArmSt) (s : Block) : (modArm a f s).gov = s.gov := rfl
@[simp] theorem modArm_eng (a : Nat) (f : ArmSt → ArmSt) (s : Block) : (modArm a f s).eng = s.eng := rfl
@[simp] theorem modArm_adc (a : Nat) (f : ArmSt → ArmSt) (s : Block) : (modArm a f s).adc = s.adc := rfl
@[simp] theorem modArm_recd (a : Nat) (f : ArmSt → ArmSt) (s : Block) : (modArm a f s).recd = s.recd := rfl
@[simp] theorem modArm_tw (a : Nat) (f : ArmSt → ArmSt) (s : Block) : (modArm a f s).tw = s.tw := rfl
@[simp] theorem modArm_spb (a : Nat) (f : ArmSt → ArmSt) (s : Block) : (modArm a f s).spb = s.spb := rfl
@[simp] theorem modArm_graph (a : Nat) (f : ArmSt → ArmSt) (s : Block) : (modArm a f s).graph = s.graph := rfl
@[simp] theorem modArm_dam (a : Nat) (f : ArmSt → ArmSt) (s : Block) : (modArm a f s).dam = s.dam := rfl
@[simp] theorem modArm_mem (a : Nat) (f : ArmSt → ArmSt) (s : Block) : (modArm a f s).mem = s.mem := rfl
@[simp] theorem modArm_host (a : Nat) (f : ArmSt → ArmSt) (s : Block) : (modArm a f s).host = s.host := rfl
@[simp] theorem modArm_time (a : Nat) (f : ArmSt → ArmSt) (s : Block) : (modArm a f s).time = s.time := rfl
@[simp] theorem modArm_pwr (a : Nat) (f : ArmSt → ArmSt) (s : Block) : (modArm a f s).pwr = s.pwr := rfl
@[simp] theorem modArm_rst (a : Nat) (f : ArmSt → ArmSt) (s : Block) : (modArm a f s).rst = s.rst := rfl

/-! ### modTask -/

@[simp] theorem modTask_now (t : Nat) (f : TaskSt → TaskSt) (s : Block) : (modTask t f s).now = s.now := rfl
@[simp] theorem modTask_free (t : Nat) (f : TaskSt → TaskSt) (s : Block) : (modTask t f s).free = s.free := rfl
@[simp] theorem modTask_cyc (t : Nat) (f : TaskSt → TaskSt) (s : Block) : (modTask t f s).cyc = s.cyc := rfl
@[simp] theorem modTask_par (t : Nat) (f : TaskSt → TaskSt) (s : Block) : (modTask t f s).par = s.par := rfl
@[simp] theorem modTask_model (t : Nat) (f : TaskSt → TaskSt) (s : Block) : (modTask t f s).model = s.model := rfl
@[simp] theorem modTask_ev (t : Nat) (f : TaskSt → TaskSt) (s : Block) : (modTask t f s).ev = s.ev := rfl
@[simp] theorem modTask_cells (t : Nat) (f : TaskSt → TaskSt) (s : Block) : (modTask t f s).cells = s.cells := rfl
@[simp] theorem modTask_changes (t : Nat) (f : TaskSt → TaskSt) (s : Block) : (modTask t f s).changes = s.changes := rfl
@[simp] theorem modTask_ports (t : Nat) (f : TaskSt → TaskSt) (s : Block) : (modTask t f s).ports = s.ports := rfl
@[simp] theorem modTask_arms (t : Nat) (f : TaskSt → TaskSt) (s : Block) : (modTask t f s).arms = s.arms := rfl
@[simp] theorem modTask_trip (t : Nat) (f : TaskSt → TaskSt) (s : Block) : (modTask t f s).trip = s.trip := rfl
@[simp] theorem modTask_seq (t : Nat) (f : TaskSt → TaskSt) (s : Block) : (modTask t f s).seq = s.seq := rfl
@[simp] theorem modTask_si (t : Nat) (f : TaskSt → TaskSt) (s : Block) : (modTask t f s).si = s.si := rfl
@[simp] theorem modTask_tentNext (t : Nat) (f : TaskSt → TaskSt) (s : Block) : (modTask t f s).tentNext = s.tentNext := rfl
@[simp] theorem modTask_gov (t : Nat) (f : TaskSt → TaskSt) (s : Block) : (modTask t f s).gov = s.gov := rfl
@[simp] theorem modTask_eng (t : Nat) (f : TaskSt → TaskSt) (s : Block) : (modTask t f s).eng = s.eng := rfl
@[simp] theorem modTask_adc (t : Nat) (f : TaskSt → TaskSt) (s : Block) : (modTask t f s).adc = s.adc := rfl
@[simp] theorem modTask_recd (t : Nat) (f : TaskSt → TaskSt) (s : Block) : (modTask t f s).recd = s.recd := rfl
@[simp] theorem modTask_tw (t : Nat) (f : TaskSt → TaskSt) (s : Block) : (modTask t f s).tw = s.tw := rfl
@[simp] theorem modTask_spb (t : Nat) (f : TaskSt → TaskSt) (s : Block) : (modTask t f s).spb = s.spb := rfl
@[simp] theorem modTask_graph (t : Nat) (f : TaskSt → TaskSt) (s : Block) : (modTask t f s).graph = s.graph := rfl
@[simp] theorem modTask_mem (t : Nat) (f : TaskSt → TaskSt) (s : Block) : (modTask t f s).mem = s.mem := rfl
@[simp] theorem modTask_host (t : Nat) (f : TaskSt → TaskSt) (s : Block) : (modTask t f s).host = s.host := rfl
@[simp] theorem modTask_time (t : Nat) (f : TaskSt → TaskSt) (s : Block) : (modTask t f s).time = s.time := rfl
@[simp] theorem modTask_pwr (t : Nat) (f : TaskSt → TaskSt) (s : Block) : (modTask t f s).pwr = s.pwr := rfl
@[simp] theorem modTask_rst (t : Nat) (f : TaskSt → TaskSt) (s : Block) : (modTask t f s).rst = s.rst := rfl

/-! ### modCore -/

@[simp] theorem modCore_now (c : Nat) (f : CoreSt → CoreSt) (s : Block) : (modCore c f s).now = s.now := rfl
@[simp] theorem modCore_free (c : Nat) (f : CoreSt → CoreSt) (s : Block) : (modCore c f s).free = s.free := rfl
@[simp] theorem modCore_cyc (c : Nat) (f : CoreSt → CoreSt) (s : Block) : (modCore c f s).cyc = s.cyc := rfl
@[simp] theorem modCore_par (c : Nat) (f : CoreSt → CoreSt) (s : Block) : (modCore c f s).par = s.par := rfl
@[simp] theorem modCore_model (c : Nat) (f : CoreSt → CoreSt) (s : Block) : (modCore c f s).model = s.model := rfl
@[simp] theorem modCore_ev (c : Nat) (f : CoreSt → CoreSt) (s : Block) : (modCore c f s).ev = s.ev := rfl
@[simp] theorem modCore_cells (c : Nat) (f : CoreSt → CoreSt) (s : Block) : (modCore c f s).cells = s.cells := rfl
@[simp] theorem modCore_changes (c : Nat) (f : CoreSt → CoreSt) (s : Block) : (modCore c f s).changes = s.changes := rfl
@[simp] theorem modCore_ports (c : Nat) (f : CoreSt → CoreSt) (s : Block) : (modCore c f s).ports = s.ports := rfl
@[simp] theorem modCore_arms (c : Nat) (f : CoreSt → CoreSt) (s : Block) : (modCore c f s).arms = s.arms := rfl
@[simp] theorem modCore_trip (c : Nat) (f : CoreSt → CoreSt) (s : Block) : (modCore c f s).trip = s.trip := rfl
@[simp] theorem modCore_seq (c : Nat) (f : CoreSt → CoreSt) (s : Block) : (modCore c f s).seq = s.seq := rfl
@[simp] theorem modCore_si (c : Nat) (f : CoreSt → CoreSt) (s : Block) : (modCore c f s).si = s.si := rfl
@[simp] theorem modCore_tentNext (c : Nat) (f : CoreSt → CoreSt) (s : Block) : (modCore c f s).tentNext = s.tentNext := rfl
@[simp] theorem modCore_gov (c : Nat) (f : CoreSt → CoreSt) (s : Block) : (modCore c f s).gov = s.gov := rfl
@[simp] theorem modCore_eng (c : Nat) (f : CoreSt → CoreSt) (s : Block) : (modCore c f s).eng = s.eng := rfl
@[simp] theorem modCore_adc (c : Nat) (f : CoreSt → CoreSt) (s : Block) : (modCore c f s).adc = s.adc := rfl
@[simp] theorem modCore_recd (c : Nat) (f : CoreSt → CoreSt) (s : Block) : (modCore c f s).recd = s.recd := rfl
@[simp] theorem modCore_tw (c : Nat) (f : CoreSt → CoreSt) (s : Block) : (modCore c f s).tw = s.tw := rfl
@[simp] theorem modCore_spb (c : Nat) (f : CoreSt → CoreSt) (s : Block) : (modCore c f s).spb = s.spb := rfl
@[simp] theorem modCore_graph (c : Nat) (f : CoreSt → CoreSt) (s : Block) : (modCore c f s).graph = s.graph := rfl
@[simp] theorem modCore_mem (c : Nat) (f : CoreSt → CoreSt) (s : Block) : (modCore c f s).mem = s.mem := rfl
@[simp] theorem modCore_host (c : Nat) (f : CoreSt → CoreSt) (s : Block) : (modCore c f s).host = s.host := rfl
@[simp] theorem modCore_time (c : Nat) (f : CoreSt → CoreSt) (s : Block) : (modCore c f s).time = s.time := rfl
@[simp] theorem modCore_pwr (c : Nat) (f : CoreSt → CoreSt) (s : Block) : (modCore c f s).pwr = s.pwr := rfl
@[simp] theorem modCore_rst (c : Nat) (f : CoreSt → CoreSt) (s : Block) : (modCore c f s).rst = s.rst := rfl

/-! ### modQueue -/

@[simp] theorem modQueue_now (q : Nat) (f : QueueSt → QueueSt) (s : Block) : (modQueue q f s).now = s.now := rfl
@[simp] theorem modQueue_free (q : Nat) (f : QueueSt → QueueSt) (s : Block) : (modQueue q f s).free = s.free := rfl
@[simp] theorem modQueue_cyc (q : Nat) (f : QueueSt → QueueSt) (s : Block) : (modQueue q f s).cyc = s.cyc := rfl
@[simp] theorem modQueue_par (q : Nat) (f : QueueSt → QueueSt) (s : Block) : (modQueue q f s).par = s.par := rfl
@[simp] theorem modQueue_model (q : Nat) (f : QueueSt → QueueSt) (s : Block) : (modQueue q f s).model = s.model := rfl
@[simp] theorem modQueue_ev (q : Nat) (f : QueueSt → QueueSt) (s : Block) : (modQueue q f s).ev = s.ev := rfl
@[simp] theorem modQueue_cells (q : Nat) (f : QueueSt → QueueSt) (s : Block) : (modQueue q f s).cells = s.cells := rfl
@[simp] theorem modQueue_changes (q : Nat) (f : QueueSt → QueueSt) (s : Block) : (modQueue q f s).changes = s.changes := rfl
@[simp] theorem modQueue_ports (q : Nat) (f : QueueSt → QueueSt) (s : Block) : (modQueue q f s).ports = s.ports := rfl
@[simp] theorem modQueue_arms (q : Nat) (f : QueueSt → QueueSt) (s : Block) : (modQueue q f s).arms = s.arms := rfl
@[simp] theorem modQueue_trip (q : Nat) (f : QueueSt → QueueSt) (s : Block) : (modQueue q f s).trip = s.trip := rfl
@[simp] theorem modQueue_seq (q : Nat) (f : QueueSt → QueueSt) (s : Block) : (modQueue q f s).seq = s.seq := rfl
@[simp] theorem modQueue_si (q : Nat) (f : QueueSt → QueueSt) (s : Block) : (modQueue q f s).si = s.si := rfl
@[simp] theorem modQueue_tentNext (q : Nat) (f : QueueSt → QueueSt) (s : Block) : (modQueue q f s).tentNext = s.tentNext := rfl
@[simp] theorem modQueue_gov (q : Nat) (f : QueueSt → QueueSt) (s : Block) : (modQueue q f s).gov = s.gov := rfl
@[simp] theorem modQueue_eng (q : Nat) (f : QueueSt → QueueSt) (s : Block) : (modQueue q f s).eng = s.eng := rfl
@[simp] theorem modQueue_adc (q : Nat) (f : QueueSt → QueueSt) (s : Block) : (modQueue q f s).adc = s.adc := rfl
@[simp] theorem modQueue_recd (q : Nat) (f : QueueSt → QueueSt) (s : Block) : (modQueue q f s).recd = s.recd := rfl
@[simp] theorem modQueue_tw (q : Nat) (f : QueueSt → QueueSt) (s : Block) : (modQueue q f s).tw = s.tw := rfl
@[simp] theorem modQueue_spb (q : Nat) (f : QueueSt → QueueSt) (s : Block) : (modQueue q f s).spb = s.spb := rfl
@[simp] theorem modQueue_graph (q : Nat) (f : QueueSt → QueueSt) (s : Block) : (modQueue q f s).graph = s.graph := rfl
@[simp] theorem modQueue_mem (q : Nat) (f : QueueSt → QueueSt) (s : Block) : (modQueue q f s).mem = s.mem := rfl
@[simp] theorem modQueue_host (q : Nat) (f : QueueSt → QueueSt) (s : Block) : (modQueue q f s).host = s.host := rfl
@[simp] theorem modQueue_time (q : Nat) (f : QueueSt → QueueSt) (s : Block) : (modQueue q f s).time = s.time := rfl
@[simp] theorem modQueue_pwr (q : Nat) (f : QueueSt → QueueSt) (s : Block) : (modQueue q f s).pwr = s.pwr := rfl
@[simp] theorem modQueue_rst (q : Nat) (f : QueueSt → QueueSt) (s : Block) : (modQueue q f s).rst = s.rst := rfl

/-! ### modDma -/

@[simp] theorem modDma_now (c : Nat) (f : DmaSt → DmaSt) (s : Block) : (modDma c f s).now = s.now := rfl
@[simp] theorem modDma_free (c : Nat) (f : DmaSt → DmaSt) (s : Block) : (modDma c f s).free = s.free := rfl
@[simp] theorem modDma_cyc (c : Nat) (f : DmaSt → DmaSt) (s : Block) : (modDma c f s).cyc = s.cyc := rfl
@[simp] theorem modDma_par (c : Nat) (f : DmaSt → DmaSt) (s : Block) : (modDma c f s).par = s.par := rfl
@[simp] theorem modDma_model (c : Nat) (f : DmaSt → DmaSt) (s : Block) : (modDma c f s).model = s.model := rfl
@[simp] theorem modDma_ev (c : Nat) (f : DmaSt → DmaSt) (s : Block) : (modDma c f s).ev = s.ev := rfl
@[simp] theorem modDma_cells (c : Nat) (f : DmaSt → DmaSt) (s : Block) : (modDma c f s).cells = s.cells := rfl
@[simp] theorem modDma_changes (c : Nat) (f : DmaSt → DmaSt) (s : Block) : (modDma c f s).changes = s.changes := rfl
@[simp] theorem modDma_ports (c : Nat) (f : DmaSt → DmaSt) (s : Block) : (modDma c f s).ports = s.ports := rfl
@[simp] theorem modDma_arms (c : Nat) (f : DmaSt → DmaSt) (s : Block) : (modDma c f s).arms = s.arms := rfl
@[simp] theorem modDma_trip (c : Nat) (f : DmaSt → DmaSt) (s : Block) : (modDma c f s).trip = s.trip := rfl
@[simp] theorem modDma_seq (c : Nat) (f : DmaSt → DmaSt) (s : Block) : (modDma c f s).seq = s.seq := rfl
@[simp] theorem modDma_si (c : Nat) (f : DmaSt → DmaSt) (s : Block) : (modDma c f s).si = s.si := rfl
@[simp] theorem modDma_tentNext (c : Nat) (f : DmaSt → DmaSt) (s : Block) : (modDma c f s).tentNext = s.tentNext := rfl
@[simp] theorem modDma_gov (c : Nat) (f : DmaSt → DmaSt) (s : Block) : (modDma c f s).gov = s.gov := rfl
@[simp] theorem modDma_eng (c : Nat) (f : DmaSt → DmaSt) (s : Block) : (modDma c f s).eng = s.eng := rfl
@[simp] theorem modDma_adc (c : Nat) (f : DmaSt → DmaSt) (s : Block) : (modDma c f s).adc = s.adc := rfl
@[simp] theorem modDma_recd (c : Nat) (f : DmaSt → DmaSt) (s : Block) : (modDma c f s).recd = s.recd := rfl
@[simp] theorem modDma_tw (c : Nat) (f : DmaSt → DmaSt) (s : Block) : (modDma c f s).tw = s.tw := rfl
@[simp] theorem modDma_spb (c : Nat) (f : DmaSt → DmaSt) (s : Block) : (modDma c f s).spb = s.spb := rfl
@[simp] theorem modDma_graph (c : Nat) (f : DmaSt → DmaSt) (s : Block) : (modDma c f s).graph = s.graph := rfl
@[simp] theorem modDma_mem (c : Nat) (f : DmaSt → DmaSt) (s : Block) : (modDma c f s).mem = s.mem := rfl
@[simp] theorem modDma_host (c : Nat) (f : DmaSt → DmaSt) (s : Block) : (modDma c f s).host = s.host := rfl
@[simp] theorem modDma_time (c : Nat) (f : DmaSt → DmaSt) (s : Block) : (modDma c f s).time = s.time := rfl
@[simp] theorem modDma_pwr (c : Nat) (f : DmaSt → DmaSt) (s : Block) : (modDma c f s).pwr = s.pwr := rfl
@[simp] theorem modDma_rst (c : Nat) (f : DmaSt → DmaSt) (s : Block) : (modDma c f s).rst = s.rst := rfl

/-! ### modPrio -/

@[simp] theorem modPrio_now (p : Nat) (f : List Nat → List Nat) (s : Block) : (modPrio p f s).now = s.now := rfl
@[simp] theorem modPrio_free (p : Nat) (f : List Nat → List Nat) (s : Block) : (modPrio p f s).free = s.free := rfl
@[simp] theorem modPrio_cyc (p : Nat) (f : List Nat → List Nat) (s : Block) : (modPrio p f s).cyc = s.cyc := rfl
@[simp] theorem modPrio_par (p : Nat) (f : List Nat → List Nat) (s : Block) : (modPrio p f s).par = s.par := rfl
@[simp] theorem modPrio_model (p : Nat) (f : List Nat → List Nat) (s : Block) : (modPrio p f s).model = s.model := rfl
@[simp] theorem modPrio_ev (p : Nat) (f : List Nat → List Nat) (s : Block) : (modPrio p f s).ev = s.ev := rfl
@[simp] theorem modPrio_cells (p : Nat) (f : List Nat → List Nat) (s : Block) : (modPrio p f s).cells = s.cells := rfl
@[simp] theorem modPrio_changes (p : Nat) (f : List Nat → List Nat) (s : Block) : (modPrio p f s).changes = s.changes := rfl
@[simp] theorem modPrio_ports (p : Nat) (f : List Nat → List Nat) (s : Block) : (modPrio p f s).ports = s.ports := rfl
@[simp] theorem modPrio_arms (p : Nat) (f : List Nat → List Nat) (s : Block) : (modPrio p f s).arms = s.arms := rfl
@[simp] theorem modPrio_trip (p : Nat) (f : List Nat → List Nat) (s : Block) : (modPrio p f s).trip = s.trip := rfl
@[simp] theorem modPrio_seq (p : Nat) (f : List Nat → List Nat) (s : Block) : (modPrio p f s).seq = s.seq := rfl
@[simp] theorem modPrio_si (p : Nat) (f : List Nat → List Nat) (s : Block) : (modPrio p f s).si = s.si := rfl
@[simp] theorem modPrio_tentNext (p : Nat) (f : List Nat → List Nat) (s : Block) : (modPrio p f s).tentNext = s.tentNext := rfl
@[simp] theorem modPrio_gov (p : Nat) (f : List Nat → List Nat) (s : Block) : (modPrio p f s).gov = s.gov := rfl
@[simp] theorem modPrio_eng (p : Nat) (f : List Nat → List Nat) (s : Block) : (modPrio p f s).eng = s.eng := rfl
@[simp] theorem modPrio_adc (p : Nat) (f : List Nat → List Nat) (s : Block) : (modPrio p f s).adc = s.adc := rfl
@[simp] theorem modPrio_recd (p : Nat) (f : List Nat → List Nat) (s : Block) : (modPrio p f s).recd = s.recd := rfl
@[simp] theorem modPrio_tw (p : Nat) (f : List Nat → List Nat) (s : Block) : (modPrio p f s).tw = s.tw := rfl
@[simp] theorem modPrio_spb (p : Nat) (f : List Nat → List Nat) (s : Block) : (modPrio p f s).spb = s.spb := rfl
@[simp] theorem modPrio_graph (p : Nat) (f : List Nat → List Nat) (s : Block) : (modPrio p f s).graph = s.graph := rfl
@[simp] theorem modPrio_mem (p : Nat) (f : List Nat → List Nat) (s : Block) : (modPrio p f s).mem = s.mem := rfl
@[simp] theorem modPrio_host (p : Nat) (f : List Nat → List Nat) (s : Block) : (modPrio p f s).host = s.host := rfl
@[simp] theorem modPrio_time (p : Nat) (f : List Nat → List Nat) (s : Block) : (modPrio p f s).time = s.time := rfl
@[simp] theorem modPrio_pwr (p : Nat) (f : List Nat → List Nat) (s : Block) : (modPrio p f s).pwr = s.pwr := rfl
@[simp] theorem modPrio_rst (p : Nat) (f : List Nat → List Nat) (s : Block) : (modPrio p f s).rst = s.rst := rfl

/-! ### writeBytes -/

@[simp] theorem writeBytes_mem (a : Nat) (l : List W8) (s : Block) : (writeBytes a l s).mem = memWriteBytes s.mem a l := rfl
@[simp] theorem writeBytes_now (a : Nat) (l : List W8) (s : Block) : (writeBytes a l s).now = s.now := rfl
@[simp] theorem writeBytes_free (a : Nat) (l : List W8) (s : Block) : (writeBytes a l s).free = s.free := rfl
@[simp] theorem writeBytes_cyc (a : Nat) (l : List W8) (s : Block) : (writeBytes a l s).cyc = s.cyc := rfl
@[simp] theorem writeBytes_par (a : Nat) (l : List W8) (s : Block) : (writeBytes a l s).par = s.par := rfl
@[simp] theorem writeBytes_model (a : Nat) (l : List W8) (s : Block) : (writeBytes a l s).model = s.model := rfl
@[simp] theorem writeBytes_ev (a : Nat) (l : List W8) (s : Block) : (writeBytes a l s).ev = s.ev := rfl
@[simp] theorem writeBytes_cells (a : Nat) (l : List W8) (s : Block) : (writeBytes a l s).cells = s.cells := rfl
@[simp] theorem writeBytes_changes (a : Nat) (l : List W8) (s : Block) : (writeBytes a l s).changes = s.changes := rfl
@[simp] theorem writeBytes_ports (a : Nat) (l : List W8) (s : Block) : (writeBytes a l s).ports = s.ports := rfl
@[simp] theorem writeBytes_arms (a : Nat) (l : List W8) (s : Block) : (writeBytes a l s).arms = s.arms := rfl
@[simp] theorem writeBytes_trip (a : Nat) (l : List W8) (s : Block) : (writeBytes a l s).trip = s.trip := rfl
@[simp] theorem writeBytes_seq (a : Nat) (l : List W8) (s : Block) : (writeBytes a l s).seq = s.seq := rfl
@[simp] theorem writeBytes_si (a : Nat) (l : List W8) (s : Block) : (writeBytes a l s).si = s.si := rfl
@[simp] theorem writeBytes_tentNext (a : Nat) (l : List W8) (s : Block) : (writeBytes a l s).tentNext = s.tentNext := rfl
@[simp] theorem writeBytes_gov (a : Nat) (l : List W8) (s : Block) : (writeBytes a l s).gov = s.gov := rfl
@[simp] theorem writeBytes_eng (a : Nat) (l : List W8) (s : Block) : (writeBytes a l s).eng = s.eng := rfl
@[simp] theorem writeBytes_adc (a : Nat) (l : List W8) (s : Block) : (writeBytes a l s).adc = s.adc := rfl
@[simp] theorem writeBytes_recd (a : Nat) (l : List W8) (s : Block) : (writeBytes a l s).recd = s.recd := rfl
@[simp] theorem writeBytes_tw (a : Nat) (l : List W8) (s : Block) : (writeBytes a l s).tw = s.tw := rfl
@[simp] theorem writeBytes_spb (a : Nat) (l : List W8) (s : Block) : (writeBytes a l s).spb = s.spb := rfl
@[simp] theorem writeBytes_graph (a : Nat) (l : List W8) (s : Block) : (writeBytes a l s).graph = s.graph := rfl
@[simp] theorem writeBytes_dam (a : Nat) (l : List W8) (s : Block) : (writeBytes a l s).dam = s.dam := rfl
@[simp] theorem writeBytes_host (a : Nat) (l : List W8) (s : Block) : (writeBytes a l s).host = s.host := rfl
@[simp] theorem writeBytes_time (a : Nat) (l : List W8) (s : Block) : (writeBytes a l s).time = s.time := rfl
@[simp] theorem writeBytes_pwr (a : Nat) (l : List W8) (s : Block) : (writeBytes a l s).pwr = s.pwr := rfl
@[simp] theorem writeBytes_rst (a : Nat) (l : List W8) (s : Block) : (writeBytes a l s).rst = s.rst := rfl

/-! ### modMbx -/

@[simp] theorem modMbx_now (m : Nat) (f : MbxSt → MbxSt) (s : Block) : (modMbx m f s).now = s.now := rfl
@[simp] theorem modMbx_free (m : Nat) (f : MbxSt → MbxSt) (s : Block) : (modMbx m f s).free = s.free := rfl
@[simp] theorem modMbx_cyc (m : Nat) (f : MbxSt → MbxSt) (s : Block) : (modMbx m f s).cyc = s.cyc := rfl
@[simp] theorem modMbx_par (m : Nat) (f : MbxSt → MbxSt) (s : Block) : (modMbx m f s).par = s.par := rfl
@[simp] theorem modMbx_model (m : Nat) (f : MbxSt → MbxSt) (s : Block) : (modMbx m f s).model = s.model := rfl
@[simp] theorem modMbx_ev (m : Nat) (f : MbxSt → MbxSt) (s : Block) : (modMbx m f s).ev = s.ev := rfl
@[simp] theorem modMbx_cells (m : Nat) (f : MbxSt → MbxSt) (s : Block) : (modMbx m f s).cells = s.cells := rfl
@[simp] theorem modMbx_changes (m : Nat) (f : MbxSt → MbxSt) (s : Block) : (modMbx m f s).changes = s.changes := rfl
@[simp] theorem modMbx_ports (m : Nat) (f : MbxSt → MbxSt) (s : Block) : (modMbx m f s).ports = s.ports := rfl
@[simp] theorem modMbx_arms (m : Nat) (f : MbxSt → MbxSt) (s : Block) : (modMbx m f s).arms = s.arms := rfl
@[simp] theorem modMbx_trip (m : Nat) (f : MbxSt → MbxSt) (s : Block) : (modMbx m f s).trip = s.trip := rfl
@[simp] theorem modMbx_seq (m : Nat) (f : MbxSt → MbxSt) (s : Block) : (modMbx m f s).seq = s.seq := rfl
@[simp] theorem modMbx_si (m : Nat) (f : MbxSt → MbxSt) (s : Block) : (modMbx m f s).si = s.si := rfl
@[simp] theorem modMbx_tentNext (m : Nat) (f : MbxSt → MbxSt) (s : Block) : (modMbx m f s).tentNext = s.tentNext := rfl
@[simp] theorem modMbx_gov (m : Nat) (f : MbxSt → MbxSt) (s : Block) : (modMbx m f s).gov = s.gov := rfl
@[simp] theorem modMbx_eng (m : Nat) (f : MbxSt → MbxSt) (s : Block) : (modMbx m f s).eng = s.eng := rfl
@[simp] theorem modMbx_adc (m : Nat) (f : MbxSt → MbxSt) (s : Block) : (modMbx m f s).adc = s.adc := rfl
@[simp] theorem modMbx_recd (m : Nat) (f : MbxSt → MbxSt) (s : Block) : (modMbx m f s).recd = s.recd := rfl
@[simp] theorem modMbx_tw (m : Nat) (f : MbxSt → MbxSt) (s : Block) : (modMbx m f s).tw = s.tw := rfl
@[simp] theorem modMbx_spb (m : Nat) (f : MbxSt → MbxSt) (s : Block) : (modMbx m f s).spb = s.spb := rfl
@[simp] theorem modMbx_graph (m : Nat) (f : MbxSt → MbxSt) (s : Block) : (modMbx m f s).graph = s.graph := rfl
@[simp] theorem modMbx_dam (m : Nat) (f : MbxSt → MbxSt) (s : Block) : (modMbx m f s).dam = s.dam := rfl
@[simp] theorem modMbx_mem (m : Nat) (f : MbxSt → MbxSt) (s : Block) : (modMbx m f s).mem = s.mem := rfl
@[simp] theorem modMbx_time (m : Nat) (f : MbxSt → MbxSt) (s : Block) : (modMbx m f s).time = s.time := rfl
@[simp] theorem modMbx_pwr (m : Nat) (f : MbxSt → MbxSt) (s : Block) : (modMbx m f s).pwr = s.pwr := rfl
@[simp] theorem modMbx_rst (m : Nat) (f : MbxSt → MbxSt) (s : Block) : (modMbx m f s).rst = s.rst := rfl

/-! ### modEv -/

@[simp] theorem modEv_ev (f : EvSt → EvSt) (s : Block) : (modEv f s).ev = f s.ev := rfl
@[simp] theorem modEv_now (f : EvSt → EvSt) (s : Block) : (modEv f s).now = s.now := rfl
@[simp] theorem modEv_free (f : EvSt → EvSt) (s : Block) : (modEv f s).free = s.free := rfl
@[simp] theorem modEv_cyc (f : EvSt → EvSt) (s : Block) : (modEv f s).cyc = s.cyc := rfl
@[simp] theorem modEv_par (f : EvSt → EvSt) (s : Block) : (modEv f s).par = s.par := rfl
@[simp] theorem modEv_model (f : EvSt → EvSt) (s : Block) : (modEv f s).model = s.model := rfl
@[simp] theorem modEv_cells (f : EvSt → EvSt) (s : Block) : (modEv f s).cells = s.cells := rfl
@[simp] theorem modEv_changes (f : EvSt → EvSt) (s : Block) : (modEv f s).changes = s.changes := rfl
@[simp] theorem modEv_ports (f : EvSt → EvSt) (s : Block) : (modEv f s).ports = s.ports := rfl
@[simp] theorem modEv_arms (f : EvSt → EvSt) (s : Block) : (modEv f s).arms = s.arms := rfl
@[simp] theorem modEv_trip (f : EvSt → EvSt) (s : Block) : (modEv f s).trip = s.trip := rfl
@[simp] theorem modEv_seq (f : EvSt → EvSt) (s : Block) : (modEv f s).seq = s.seq := rfl
@[simp] theorem modEv_si (f : EvSt → EvSt) (s : Block) : (modEv f s).si = s.si := rfl
@[simp] theorem modEv_tentNext (f : EvSt → EvSt) (s : Block) : (modEv f s).tentNext = s.tentNext := rfl
@[simp] theorem modEv_gov (f : EvSt → EvSt) (s : Block) : (modEv f s).gov = s.gov := rfl
@[simp] theorem modEv_eng (f : EvSt → EvSt) (s : Block) : (modEv f s).eng = s.eng := rfl
@[simp] theorem modEv_adc (f : EvSt → EvSt) (s : Block) : (modEv f s).adc = s.adc := rfl
@[simp] theorem modEv_recd (f : EvSt → EvSt) (s : Block) : (modEv f s).recd = s.recd := rfl
@[simp] theorem modEv_tw (f : EvSt → EvSt) (s : Block) : (modEv f s).tw = s.tw := rfl
@[simp] theorem modEv_spb (f : EvSt → EvSt) (s : Block) : (modEv f s).spb = s.spb := rfl
@[simp] theorem modEv_graph (f : EvSt → EvSt) (s : Block) : (modEv f s).graph = s.graph := rfl
@[simp] theorem modEv_dam (f : EvSt → EvSt) (s : Block) : (modEv f s).dam = s.dam := rfl
@[simp] theorem modEv_mem (f : EvSt → EvSt) (s : Block) : (modEv f s).mem = s.mem := rfl
@[simp] theorem modEv_host (f : EvSt → EvSt) (s : Block) : (modEv f s).host = s.host := rfl
@[simp] theorem modEv_time (f : EvSt → EvSt) (s : Block) : (modEv f s).time = s.time := rfl
@[simp] theorem modEv_pwr (f : EvSt → EvSt) (s : Block) : (modEv f s).pwr = s.pwr := rfl
@[simp] theorem modEv_rst (f : EvSt → EvSt) (s : Block) : (modEv f s).rst = s.rst := rfl

/-! ### modUnit -/

@[simp] theorem modUnit_now (u : Nat) (f : AdcUnit → AdcUnit) (s : Block) : (modUnit u f s).now = s.now := rfl
@[simp] theorem modUnit_free (u : Nat) (f : AdcUnit → AdcUnit) (s : Block) : (modUnit u f s).free = s.free := rfl
@[simp] theorem modUnit_cyc (u : Nat) (f : AdcUnit → AdcUnit) (s : Block) : (modUnit u f s).cyc = s.cyc := rfl
@[simp] theorem modUnit_par (u : Nat) (f : AdcUnit → AdcUnit) (s : Block) : (modUnit u f s).par = s.par := rfl
@[simp] theorem modUnit_model (u : Nat) (f : AdcUnit → AdcUnit) (s : Block) : (modUnit u f s).model = s.model := rfl
@[simp] theorem modUnit_ev (u : Nat) (f : AdcUnit → AdcUnit) (s : Block) : (modUnit u f s).ev = s.ev := rfl
@[simp] theorem modUnit_cells (u : Nat) (f : AdcUnit → AdcUnit) (s : Block) : (modUnit u f s).cells = s.cells := rfl
@[simp] theorem modUnit_changes (u : Nat) (f : AdcUnit → AdcUnit) (s : Block) : (modUnit u f s).changes = s.changes := rfl
@[simp] theorem modUnit_ports (u : Nat) (f : AdcUnit → AdcUnit) (s : Block) : (modUnit u f s).ports = s.ports := rfl
@[simp] theorem modUnit_arms (u : Nat) (f : AdcUnit → AdcUnit) (s : Block) : (modUnit u f s).arms = s.arms := rfl
@[simp] theorem modUnit_trip (u : Nat) (f : AdcUnit → AdcUnit) (s : Block) : (modUnit u f s).trip = s.trip := rfl
@[simp] theorem modUnit_seq (u : Nat) (f : AdcUnit → AdcUnit) (s : Block) : (modUnit u f s).seq = s.seq := rfl
@[simp] theorem modUnit_si (u : Nat) (f : AdcUnit → AdcUnit) (s : Block) : (modUnit u f s).si = s.si := rfl
@[simp] theorem modUnit_tentNext (u : Nat) (f : AdcUnit → AdcUnit) (s : Block) : (modUnit u f s).tentNext = s.tentNext := rfl
@[simp] theorem modUnit_gov (u : Nat) (f : AdcUnit → AdcUnit) (s : Block) : (modUnit u f s).gov = s.gov := rfl
@[simp] theorem modUnit_eng (u : Nat) (f : AdcUnit → AdcUnit) (s : Block) : (modUnit u f s).eng = s.eng := rfl
@[simp] theorem modUnit_recd (u : Nat) (f : AdcUnit → AdcUnit) (s : Block) : (modUnit u f s).recd = s.recd := rfl
@[simp] theorem modUnit_tw (u : Nat) (f : AdcUnit → AdcUnit) (s : Block) : (modUnit u f s).tw = s.tw := rfl
@[simp] theorem modUnit_spb (u : Nat) (f : AdcUnit → AdcUnit) (s : Block) : (modUnit u f s).spb = s.spb := rfl
@[simp] theorem modUnit_graph (u : Nat) (f : AdcUnit → AdcUnit) (s : Block) : (modUnit u f s).graph = s.graph := rfl
@[simp] theorem modUnit_dam (u : Nat) (f : AdcUnit → AdcUnit) (s : Block) : (modUnit u f s).dam = s.dam := rfl
@[simp] theorem modUnit_mem (u : Nat) (f : AdcUnit → AdcUnit) (s : Block) : (modUnit u f s).mem = s.mem := rfl
@[simp] theorem modUnit_host (u : Nat) (f : AdcUnit → AdcUnit) (s : Block) : (modUnit u f s).host = s.host := rfl
@[simp] theorem modUnit_time (u : Nat) (f : AdcUnit → AdcUnit) (s : Block) : (modUnit u f s).time = s.time := rfl
@[simp] theorem modUnit_pwr (u : Nat) (f : AdcUnit → AdcUnit) (s : Block) : (modUnit u f s).pwr = s.pwr := rfl
@[simp] theorem modUnit_rst (u : Nat) (f : AdcUnit → AdcUnit) (s : Block) : (modUnit u f s).rst = s.rst := rfl

/-! ### modIn -/

@[simp] theorem modIn_now (k : Nat) (f : InSt → InSt) (s : Block) : (modIn k f s).now = s.now := rfl
@[simp] theorem modIn_free (k : Nat) (f : InSt → InSt) (s : Block) : (modIn k f s).free = s.free := rfl
@[simp] theorem modIn_cyc (k : Nat) (f : InSt → InSt) (s : Block) : (modIn k f s).cyc = s.cyc := rfl
@[simp] theorem modIn_par (k : Nat) (f : InSt → InSt) (s : Block) : (modIn k f s).par = s.par := rfl
@[simp] theorem modIn_model (k : Nat) (f : InSt → InSt) (s : Block) : (modIn k f s).model = s.model := rfl
@[simp] theorem modIn_ev (k : Nat) (f : InSt → InSt) (s : Block) : (modIn k f s).ev = s.ev := rfl
@[simp] theorem modIn_cells (k : Nat) (f : InSt → InSt) (s : Block) : (modIn k f s).cells = s.cells := rfl
@[simp] theorem modIn_changes (k : Nat) (f : InSt → InSt) (s : Block) : (modIn k f s).changes = s.changes := rfl
@[simp] theorem modIn_ports (k : Nat) (f : InSt → InSt) (s : Block) : (modIn k f s).ports = s.ports := rfl
@[simp] theorem modIn_arms (k : Nat) (f : InSt → InSt) (s : Block) : (modIn k f s).arms = s.arms := rfl
@[simp] theorem modIn_trip (k : Nat) (f : InSt → InSt) (s : Block) : (modIn k f s).trip = s.trip := rfl
@[simp] theorem modIn_seq (k : Nat) (f : InSt → InSt) (s : Block) : (modIn k f s).seq = s.seq := rfl
@[simp] theorem modIn_si (k : Nat) (f : InSt → InSt) (s : Block) : (modIn k f s).si = s.si := rfl
@[simp] theorem modIn_tentNext (k : Nat) (f : InSt → InSt) (s : Block) : (modIn k f s).tentNext = s.tentNext := rfl
@[simp] theorem modIn_gov (k : Nat) (f : InSt → InSt) (s : Block) : (modIn k f s).gov = s.gov := rfl
@[simp] theorem modIn_eng (k : Nat) (f : InSt → InSt) (s : Block) : (modIn k f s).eng = s.eng := rfl
@[simp] theorem modIn_recd (k : Nat) (f : InSt → InSt) (s : Block) : (modIn k f s).recd = s.recd := rfl
@[simp] theorem modIn_tw (k : Nat) (f : InSt → InSt) (s : Block) : (modIn k f s).tw = s.tw := rfl
@[simp] theorem modIn_spb (k : Nat) (f : InSt → InSt) (s : Block) : (modIn k f s).spb = s.spb := rfl
@[simp] theorem modIn_graph (k : Nat) (f : InSt → InSt) (s : Block) : (modIn k f s).graph = s.graph := rfl
@[simp] theorem modIn_dam (k : Nat) (f : InSt → InSt) (s : Block) : (modIn k f s).dam = s.dam := rfl
@[simp] theorem modIn_mem (k : Nat) (f : InSt → InSt) (s : Block) : (modIn k f s).mem = s.mem := rfl
@[simp] theorem modIn_host (k : Nat) (f : InSt → InSt) (s : Block) : (modIn k f s).host = s.host := rfl
@[simp] theorem modIn_time (k : Nat) (f : InSt → InSt) (s : Block) : (modIn k f s).time = s.time := rfl
@[simp] theorem modIn_pwr (k : Nat) (f : InSt → InSt) (s : Block) : (modIn k f s).pwr = s.pwr := rfl
@[simp] theorem modIn_rst (k : Nat) (f : InSt → InSt) (s : Block) : (modIn k f s).rst = s.rst := rfl

/-! ### modFant -/

@[simp] theorem modFant_now (i : Nat) (f : FantSt → FantSt) (s : Block) : (modFant i f s).now = s.now := rfl
@[simp] theorem modFant_free (i : Nat) (f : FantSt → FantSt) (s : Block) : (modFant i f s).free = s.free := rfl
@[simp] theorem modFant_cyc (i : Nat) (f : FantSt → FantSt) (s : Block) : (modFant i f s).cyc = s.cyc := rfl
@[simp] theorem modFant_par (i : Nat) (f : FantSt → FantSt) (s : Block) : (modFant i f s).par = s.par := rfl
@[simp] theorem modFant_model (i : Nat) (f : FantSt → FantSt) (s : Block) : (modFant i f s).model = s.model := rfl
@[simp] theorem modFant_ev (i : Nat) (f : FantSt → FantSt) (s : Block) : (modFant i f s).ev = s.ev := rfl
@[simp] theorem modFant_cells (i : Nat) (f : FantSt → FantSt) (s : Block) : (modFant i f s).cells = s.cells := rfl
@[simp] theorem modFant_changes (i : Nat) (f : FantSt → FantSt) (s : Block) : (modFant i f s).changes = s.changes := rfl
@[simp] theorem modFant_ports (i : Nat) (f : FantSt → FantSt) (s : Block) : (modFant i f s).ports = s.ports := rfl
@[simp] theorem modFant_arms (i : Nat) (f : FantSt → FantSt) (s : Block) : (modFant i f s).arms = s.arms := rfl
@[simp] theorem modFant_trip (i : Nat) (f : FantSt → FantSt) (s : Block) : (modFant i f s).trip = s.trip := rfl
@[simp] theorem modFant_seq (i : Nat) (f : FantSt → FantSt) (s : Block) : (modFant i f s).seq = s.seq := rfl
@[simp] theorem modFant_si (i : Nat) (f : FantSt → FantSt) (s : Block) : (modFant i f s).si = s.si := rfl
@[simp] theorem modFant_tentNext (i : Nat) (f : FantSt → FantSt) (s : Block) : (modFant i f s).tentNext = s.tentNext := rfl
@[simp] theorem modFant_gov (i : Nat) (f : FantSt → FantSt) (s : Block) : (modFant i f s).gov = s.gov := rfl
@[simp] theorem modFant_adc (i : Nat) (f : FantSt → FantSt) (s : Block) : (modFant i f s).adc = s.adc := rfl
@[simp] theorem modFant_recd (i : Nat) (f : FantSt → FantSt) (s : Block) : (modFant i f s).recd = s.recd := rfl
@[simp] theorem modFant_tw (i : Nat) (f : FantSt → FantSt) (s : Block) : (modFant i f s).tw = s.tw := rfl
@[simp] theorem modFant_spb (i : Nat) (f : FantSt → FantSt) (s : Block) : (modFant i f s).spb = s.spb := rfl
@[simp] theorem modFant_graph (i : Nat) (f : FantSt → FantSt) (s : Block) : (modFant i f s).graph = s.graph := rfl
@[simp] theorem modFant_dam (i : Nat) (f : FantSt → FantSt) (s : Block) : (modFant i f s).dam = s.dam := rfl
@[simp] theorem modFant_mem (i : Nat) (f : FantSt → FantSt) (s : Block) : (modFant i f s).mem = s.mem := rfl
@[simp] theorem modFant_host (i : Nat) (f : FantSt → FantSt) (s : Block) : (modFant i f s).host = s.host := rfl
@[simp] theorem modFant_time (i : Nat) (f : FantSt → FantSt) (s : Block) : (modFant i f s).time = s.time := rfl
@[simp] theorem modFant_pwr (i : Nat) (f : FantSt → FantSt) (s : Block) : (modFant i f s).pwr = s.pwr := rfl
@[simp] theorem modFant_rst (i : Nat) (f : FantSt → FantSt) (s : Block) : (modFant i f s).rst = s.rst := rfl

/-! ### modRpc -/

@[simp] theorem modRpc_now (r : Nat) (f : RpcSt → RpcSt) (s : Block) : (modRpc r f s).now = s.now := rfl
@[simp] theorem modRpc_free (r : Nat) (f : RpcSt → RpcSt) (s : Block) : (modRpc r f s).free = s.free := rfl
@[simp] theorem modRpc_cyc (r : Nat) (f : RpcSt → RpcSt) (s : Block) : (modRpc r f s).cyc = s.cyc := rfl
@[simp] theorem modRpc_par (r : Nat) (f : RpcSt → RpcSt) (s : Block) : (modRpc r f s).par = s.par := rfl
@[simp] theorem modRpc_model (r : Nat) (f : RpcSt → RpcSt) (s : Block) : (modRpc r f s).model = s.model := rfl
@[simp] theorem modRpc_ev (r : Nat) (f : RpcSt → RpcSt) (s : Block) : (modRpc r f s).ev = s.ev := rfl
@[simp] theorem modRpc_cells (r : Nat) (f : RpcSt → RpcSt) (s : Block) : (modRpc r f s).cells = s.cells := rfl
@[simp] theorem modRpc_changes (r : Nat) (f : RpcSt → RpcSt) (s : Block) : (modRpc r f s).changes = s.changes := rfl
@[simp] theorem modRpc_ports (r : Nat) (f : RpcSt → RpcSt) (s : Block) : (modRpc r f s).ports = s.ports := rfl
@[simp] theorem modRpc_arms (r : Nat) (f : RpcSt → RpcSt) (s : Block) : (modRpc r f s).arms = s.arms := rfl
@[simp] theorem modRpc_trip (r : Nat) (f : RpcSt → RpcSt) (s : Block) : (modRpc r f s).trip = s.trip := rfl
@[simp] theorem modRpc_seq (r : Nat) (f : RpcSt → RpcSt) (s : Block) : (modRpc r f s).seq = s.seq := rfl
@[simp] theorem modRpc_si (r : Nat) (f : RpcSt → RpcSt) (s : Block) : (modRpc r f s).si = s.si := rfl
@[simp] theorem modRpc_tentNext (r : Nat) (f : RpcSt → RpcSt) (s : Block) : (modRpc r f s).tentNext = s.tentNext := rfl
@[simp] theorem modRpc_gov (r : Nat) (f : RpcSt → RpcSt) (s : Block) : (modRpc r f s).gov = s.gov := rfl
@[simp] theorem modRpc_adc (r : Nat) (f : RpcSt → RpcSt) (s : Block) : (modRpc r f s).adc = s.adc := rfl
@[simp] theorem modRpc_recd (r : Nat) (f : RpcSt → RpcSt) (s : Block) : (modRpc r f s).recd = s.recd := rfl
@[simp] theorem modRpc_tw (r : Nat) (f : RpcSt → RpcSt) (s : Block) : (modRpc r f s).tw = s.tw := rfl
@[simp] theorem modRpc_spb (r : Nat) (f : RpcSt → RpcSt) (s : Block) : (modRpc r f s).spb = s.spb := rfl
@[simp] theorem modRpc_graph (r : Nat) (f : RpcSt → RpcSt) (s : Block) : (modRpc r f s).graph = s.graph := rfl
@[simp] theorem modRpc_dam (r : Nat) (f : RpcSt → RpcSt) (s : Block) : (modRpc r f s).dam = s.dam := rfl
@[simp] theorem modRpc_mem (r : Nat) (f : RpcSt → RpcSt) (s : Block) : (modRpc r f s).mem = s.mem := rfl
@[simp] theorem modRpc_host (r : Nat) (f : RpcSt → RpcSt) (s : Block) : (modRpc r f s).host = s.host := rfl
@[simp] theorem modRpc_time (r : Nat) (f : RpcSt → RpcSt) (s : Block) : (modRpc r f s).time = s.time := rfl
@[simp] theorem modRpc_pwr (r : Nat) (f : RpcSt → RpcSt) (s : Block) : (modRpc r f s).pwr = s.pwr := rfl
@[simp] theorem modRpc_rst (r : Nat) (f : RpcSt → RpcSt) (s : Block) : (modRpc r f s).rst = s.rst := rfl

/-! ### modRamp -/

@[simp] theorem modRamp_now (c : Nat) (f : RampSt → RampSt) (s : Block) : (modRamp c f s).now = s.now := rfl
@[simp] theorem modRamp_free (c : Nat) (f : RampSt → RampSt) (s : Block) : (modRamp c f s).free = s.free := rfl
@[simp] theorem modRamp_cyc (c : Nat) (f : RampSt → RampSt) (s : Block) : (modRamp c f s).cyc = s.cyc := rfl
@[simp] theorem modRamp_par (c : Nat) (f : RampSt → RampSt) (s : Block) : (modRamp c f s).par = s.par := rfl
@[simp] theorem modRamp_model (c : Nat) (f : RampSt → RampSt) (s : Block) : (modRamp c f s).model = s.model := rfl
@[simp] theorem modRamp_ev (c : Nat) (f : RampSt → RampSt) (s : Block) : (modRamp c f s).ev = s.ev := rfl
@[simp] theorem modRamp_cells (c : Nat) (f : RampSt → RampSt) (s : Block) : (modRamp c f s).cells = s.cells := rfl
@[simp] theorem modRamp_changes (c : Nat) (f : RampSt → RampSt) (s : Block) : (modRamp c f s).changes = s.changes := rfl
@[simp] theorem modRamp_ports (c : Nat) (f : RampSt → RampSt) (s : Block) : (modRamp c f s).ports = s.ports := rfl
@[simp] theorem modRamp_arms (c : Nat) (f : RampSt → RampSt) (s : Block) : (modRamp c f s).arms = s.arms := rfl
@[simp] theorem modRamp_trip (c : Nat) (f : RampSt → RampSt) (s : Block) : (modRamp c f s).trip = s.trip := rfl
@[simp] theorem modRamp_seq (c : Nat) (f : RampSt → RampSt) (s : Block) : (modRamp c f s).seq = s.seq := rfl
@[simp] theorem modRamp_si (c : Nat) (f : RampSt → RampSt) (s : Block) : (modRamp c f s).si = s.si := rfl
@[simp] theorem modRamp_tentNext (c : Nat) (f : RampSt → RampSt) (s : Block) : (modRamp c f s).tentNext = s.tentNext := rfl
@[simp] theorem modRamp_gov (c : Nat) (f : RampSt → RampSt) (s : Block) : (modRamp c f s).gov = s.gov := rfl
@[simp] theorem modRamp_adc (c : Nat) (f : RampSt → RampSt) (s : Block) : (modRamp c f s).adc = s.adc := rfl
@[simp] theorem modRamp_recd (c : Nat) (f : RampSt → RampSt) (s : Block) : (modRamp c f s).recd = s.recd := rfl
@[simp] theorem modRamp_tw (c : Nat) (f : RampSt → RampSt) (s : Block) : (modRamp c f s).tw = s.tw := rfl
@[simp] theorem modRamp_spb (c : Nat) (f : RampSt → RampSt) (s : Block) : (modRamp c f s).spb = s.spb := rfl
@[simp] theorem modRamp_graph (c : Nat) (f : RampSt → RampSt) (s : Block) : (modRamp c f s).graph = s.graph := rfl
@[simp] theorem modRamp_dam (c : Nat) (f : RampSt → RampSt) (s : Block) : (modRamp c f s).dam = s.dam := rfl
@[simp] theorem modRamp_mem (c : Nat) (f : RampSt → RampSt) (s : Block) : (modRamp c f s).mem = s.mem := rfl
@[simp] theorem modRamp_host (c : Nat) (f : RampSt → RampSt) (s : Block) : (modRamp c f s).host = s.host := rfl
@[simp] theorem modRamp_time (c : Nat) (f : RampSt → RampSt) (s : Block) : (modRamp c f s).time = s.time := rfl
@[simp] theorem modRamp_pwr (c : Nat) (f : RampSt → RampSt) (s : Block) : (modRamp c f s).pwr = s.pwr := rfl
@[simp] theorem modRamp_rst (c : Nat) (f : RampSt → RampSt) (s : Block) : (modRamp c f s).rst = s.rst := rfl

/-! ### modLoop -/

@[simp] theorem modLoop_now (l : Nat) (f : LoopSt → LoopSt) (s : Block) : (modLoop l f s).now = s.now := rfl
@[simp] theorem modLoop_free (l : Nat) (f : LoopSt → LoopSt) (s : Block) : (modLoop l f s).free = s.free := rfl
@[simp] theorem modLoop_cyc (l : Nat) (f : LoopSt → LoopSt) (s : Block) : (modLoop l f s).cyc = s.cyc := rfl
@[simp] theorem modLoop_par (l : Nat) (f : LoopSt → LoopSt) (s : Block) : (modLoop l f s).par = s.par := rfl
@[simp] theorem modLoop_model (l : Nat) (f : LoopSt → LoopSt) (s : Block) : (modLoop l f s).model = s.model := rfl
@[simp] theorem modLoop_ev (l : Nat) (f : LoopSt → LoopSt) (s : Block) : (modLoop l f s).ev = s.ev := rfl
@[simp] theorem modLoop_cells (l : Nat) (f : LoopSt → LoopSt) (s : Block) : (modLoop l f s).cells = s.cells := rfl
@[simp] theorem modLoop_changes (l : Nat) (f : LoopSt → LoopSt) (s : Block) : (modLoop l f s).changes = s.changes := rfl
@[simp] theorem modLoop_ports (l : Nat) (f : LoopSt → LoopSt) (s : Block) : (modLoop l f s).ports = s.ports := rfl
@[simp] theorem modLoop_arms (l : Nat) (f : LoopSt → LoopSt) (s : Block) : (modLoop l f s).arms = s.arms := rfl
@[simp] theorem modLoop_trip (l : Nat) (f : LoopSt → LoopSt) (s : Block) : (modLoop l f s).trip = s.trip := rfl
@[simp] theorem modLoop_seq (l : Nat) (f : LoopSt → LoopSt) (s : Block) : (modLoop l f s).seq = s.seq := rfl
@[simp] theorem modLoop_si (l : Nat) (f : LoopSt → LoopSt) (s : Block) : (modLoop l f s).si = s.si := rfl
@[simp] theorem modLoop_tentNext (l : Nat) (f : LoopSt → LoopSt) (s : Block) : (modLoop l f s).tentNext = s.tentNext := rfl
@[simp] theorem modLoop_eng (l : Nat) (f : LoopSt → LoopSt) (s : Block) : (modLoop l f s).eng = s.eng := rfl
@[simp] theorem modLoop_adc (l : Nat) (f : LoopSt → LoopSt) (s : Block) : (modLoop l f s).adc = s.adc := rfl
@[simp] theorem modLoop_recd (l : Nat) (f : LoopSt → LoopSt) (s : Block) : (modLoop l f s).recd = s.recd := rfl
@[simp] theorem modLoop_tw (l : Nat) (f : LoopSt → LoopSt) (s : Block) : (modLoop l f s).tw = s.tw := rfl
@[simp] theorem modLoop_spb (l : Nat) (f : LoopSt → LoopSt) (s : Block) : (modLoop l f s).spb = s.spb := rfl
@[simp] theorem modLoop_graph (l : Nat) (f : LoopSt → LoopSt) (s : Block) : (modLoop l f s).graph = s.graph := rfl
@[simp] theorem modLoop_dam (l : Nat) (f : LoopSt → LoopSt) (s : Block) : (modLoop l f s).dam = s.dam := rfl
@[simp] theorem modLoop_mem (l : Nat) (f : LoopSt → LoopSt) (s : Block) : (modLoop l f s).mem = s.mem := rfl
@[simp] theorem modLoop_host (l : Nat) (f : LoopSt → LoopSt) (s : Block) : (modLoop l f s).host = s.host := rfl
@[simp] theorem modLoop_time (l : Nat) (f : LoopSt → LoopSt) (s : Block) : (modLoop l f s).time = s.time := rfl
@[simp] theorem modLoop_pwr (l : Nat) (f : LoopSt → LoopSt) (s : Block) : (modLoop l f s).pwr = s.pwr := rfl
@[simp] theorem modLoop_rst (l : Nat) (f : LoopSt → LoopSt) (s : Block) : (modLoop l f s).rst = s.rst := rfl

/-! ### modEngine -/

@[simp] theorem modEngine_now (e : Nat) (f : EngineSt → EngineSt) (s : Block) : (modEngine e f s).now = s.now := rfl
@[simp] theorem modEngine_free (e : Nat) (f : EngineSt → EngineSt) (s : Block) : (modEngine e f s).free = s.free := rfl
@[simp] theorem modEngine_cyc (e : Nat) (f : EngineSt → EngineSt) (s : Block) : (modEngine e f s).cyc = s.cyc := rfl
@[simp] theorem modEngine_par (e : Nat) (f : EngineSt → EngineSt) (s : Block) : (modEngine e f s).par = s.par := rfl
@[simp] theorem modEngine_model (e : Nat) (f : EngineSt → EngineSt) (s : Block) : (modEngine e f s).model = s.model := rfl
@[simp] theorem modEngine_ev (e : Nat) (f : EngineSt → EngineSt) (s : Block) : (modEngine e f s).ev = s.ev := rfl
@[simp] theorem modEngine_cells (e : Nat) (f : EngineSt → EngineSt) (s : Block) : (modEngine e f s).cells = s.cells := rfl
@[simp] theorem modEngine_changes (e : Nat) (f : EngineSt → EngineSt) (s : Block) : (modEngine e f s).changes = s.changes := rfl
@[simp] theorem modEngine_ports (e : Nat) (f : EngineSt → EngineSt) (s : Block) : (modEngine e f s).ports = s.ports := rfl
@[simp] theorem modEngine_arms (e : Nat) (f : EngineSt → EngineSt) (s : Block) : (modEngine e f s).arms = s.arms := rfl
@[simp] theorem modEngine_trip (e : Nat) (f : EngineSt → EngineSt) (s : Block) : (modEngine e f s).trip = s.trip := rfl
@[simp] theorem modEngine_seq (e : Nat) (f : EngineSt → EngineSt) (s : Block) : (modEngine e f s).seq = s.seq := rfl
@[simp] theorem modEngine_si (e : Nat) (f : EngineSt → EngineSt) (s : Block) : (modEngine e f s).si = s.si := rfl
@[simp] theorem modEngine_tentNext (e : Nat) (f : EngineSt → EngineSt) (s : Block) : (modEngine e f s).tentNext = s.tentNext := rfl
@[simp] theorem modEngine_eng (e : Nat) (f : EngineSt → EngineSt) (s : Block) : (modEngine e f s).eng = s.eng := rfl
@[simp] theorem modEngine_adc (e : Nat) (f : EngineSt → EngineSt) (s : Block) : (modEngine e f s).adc = s.adc := rfl
@[simp] theorem modEngine_recd (e : Nat) (f : EngineSt → EngineSt) (s : Block) : (modEngine e f s).recd = s.recd := rfl
@[simp] theorem modEngine_tw (e : Nat) (f : EngineSt → EngineSt) (s : Block) : (modEngine e f s).tw = s.tw := rfl
@[simp] theorem modEngine_spb (e : Nat) (f : EngineSt → EngineSt) (s : Block) : (modEngine e f s).spb = s.spb := rfl
@[simp] theorem modEngine_graph (e : Nat) (f : EngineSt → EngineSt) (s : Block) : (modEngine e f s).graph = s.graph := rfl
@[simp] theorem modEngine_dam (e : Nat) (f : EngineSt → EngineSt) (s : Block) : (modEngine e f s).dam = s.dam := rfl
@[simp] theorem modEngine_mem (e : Nat) (f : EngineSt → EngineSt) (s : Block) : (modEngine e f s).mem = s.mem := rfl
@[simp] theorem modEngine_host (e : Nat) (f : EngineSt → EngineSt) (s : Block) : (modEngine e f s).host = s.host := rfl
@[simp] theorem modEngine_time (e : Nat) (f : EngineSt → EngineSt) (s : Block) : (modEngine e f s).time = s.time := rfl
@[simp] theorem modEngine_pwr (e : Nat) (f : EngineSt → EngineSt) (s : Block) : (modEngine e f s).pwr = s.pwr := rfl
@[simp] theorem modEngine_rst (e : Nat) (f : EngineSt → EngineSt) (s : Block) : (modEngine e f s).rst = s.rst := rfl

/-! ### modRec -/

@[simp] theorem modRec_recd (f : RecSt → RecSt) (s : Block) : (modRec f s).recd = f s.recd := rfl
@[simp] theorem modRec_now (f : RecSt → RecSt) (s : Block) : (modRec f s).now = s.now := rfl
@[simp] theorem modRec_free (f : RecSt → RecSt) (s : Block) : (modRec f s).free = s.free := rfl
@[simp] theorem modRec_cyc (f : RecSt → RecSt) (s : Block) : (modRec f s).cyc = s.cyc := rfl
@[simp] theorem modRec_par (f : RecSt → RecSt) (s : Block) : (modRec f s).par = s.par := rfl
@[simp] theorem modRec_model (f : RecSt → RecSt) (s : Block) : (modRec f s).model = s.model := rfl
@[simp] theorem modRec_ev (f : RecSt → RecSt) (s : Block) : (modRec f s).ev = s.ev := rfl
@[simp] theorem modRec_cells (f : RecSt → RecSt) (s : Block) : (modRec f s).cells = s.cells := rfl
@[simp] theorem modRec_changes (f : RecSt → RecSt) (s : Block) : (modRec f s).changes = s.changes := rfl
@[simp] theorem modRec_ports (f : RecSt → RecSt) (s : Block) : (modRec f s).ports = s.ports := rfl
@[simp] theorem modRec_arms (f : RecSt → RecSt) (s : Block) : (modRec f s).arms = s.arms := rfl
@[simp] theorem modRec_trip (f : RecSt → RecSt) (s : Block) : (modRec f s).trip = s.trip := rfl
@[simp] theorem modRec_seq (f : RecSt → RecSt) (s : Block) : (modRec f s).seq = s.seq := rfl
@[simp] theorem modRec_si (f : RecSt → RecSt) (s : Block) : (modRec f s).si = s.si := rfl
@[simp] theorem modRec_tentNext (f : RecSt → RecSt) (s : Block) : (modRec f s).tentNext = s.tentNext := rfl
@[simp] theorem modRec_gov (f : RecSt → RecSt) (s : Block) : (modRec f s).gov = s.gov := rfl
@[simp] theorem modRec_eng (f : RecSt → RecSt) (s : Block) : (modRec f s).eng = s.eng := rfl
@[simp] theorem modRec_adc (f : RecSt → RecSt) (s : Block) : (modRec f s).adc = s.adc := rfl
@[simp] theorem modRec_tw (f : RecSt → RecSt) (s : Block) : (modRec f s).tw = s.tw := rfl
@[simp] theorem modRec_spb (f : RecSt → RecSt) (s : Block) : (modRec f s).spb = s.spb := rfl
@[simp] theorem modRec_graph (f : RecSt → RecSt) (s : Block) : (modRec f s).graph = s.graph := rfl
@[simp] theorem modRec_dam (f : RecSt → RecSt) (s : Block) : (modRec f s).dam = s.dam := rfl
@[simp] theorem modRec_mem (f : RecSt → RecSt) (s : Block) : (modRec f s).mem = s.mem := rfl
@[simp] theorem modRec_host (f : RecSt → RecSt) (s : Block) : (modRec f s).host = s.host := rfl
@[simp] theorem modRec_time (f : RecSt → RecSt) (s : Block) : (modRec f s).time = s.time := rfl
@[simp] theorem modRec_pwr (f : RecSt → RecSt) (s : Block) : (modRec f s).pwr = s.pwr := rfl
@[simp] theorem modRec_rst (f : RecSt → RecSt) (s : Block) : (modRec f s).rst = s.rst := rfl

/-! ### modSpb -/

@[simp] theorem modSpb_spb (f : SpbSt → SpbSt) (s : Block) : (modSpb f s).spb = f s.spb := rfl
@[simp] theorem modSpb_now (f : SpbSt → SpbSt) (s : Block) : (modSpb f s).now = s.now := rfl
@[simp] theorem modSpb_free (f : SpbSt → SpbSt) (s : Block) : (modSpb f s).free = s.free := rfl
@[simp] theorem modSpb_cyc (f : SpbSt → SpbSt) (s : Block) : (modSpb f s).cyc = s.cyc := rfl
@[simp] theorem modSpb_par (f : SpbSt → SpbSt) (s : Block) : (modSpb f s).par = s.par := rfl
@[simp] theorem modSpb_model (f : SpbSt → SpbSt) (s : Block) : (modSpb f s).model = s.model := rfl
@[simp] theorem modSpb_ev (f : SpbSt → SpbSt) (s : Block) : (modSpb f s).ev = s.ev := rfl
@[simp] theorem modSpb_cells (f : SpbSt → SpbSt) (s : Block) : (modSpb f s).cells = s.cells := rfl
@[simp] theorem modSpb_changes (f : SpbSt → SpbSt) (s : Block) : (modSpb f s).changes = s.changes := rfl
@[simp] theorem modSpb_ports (f : SpbSt → SpbSt) (s : Block) : (modSpb f s).ports = s.ports := rfl
@[simp] theorem modSpb_arms (f : SpbSt → SpbSt) (s : Block) : (modSpb f s).arms = s.arms := rfl
@[simp] theorem modSpb_trip (f : SpbSt → SpbSt) (s : Block) : (modSpb f s).trip = s.trip := rfl
@[simp] theorem modSpb_seq (f : SpbSt → SpbSt) (s : Block) : (modSpb f s).seq = s.seq := rfl
@[simp] theorem modSpb_si (f : SpbSt → SpbSt) (s : Block) : (modSpb f s).si = s.si := rfl
@[simp] theorem modSpb_tentNext (f : SpbSt → SpbSt) (s : Block) : (modSpb f s).tentNext = s.tentNext := rfl
@[simp] theorem modSpb_gov (f : SpbSt → SpbSt) (s : Block) : (modSpb f s).gov = s.gov := rfl
@[simp] theorem modSpb_eng (f : SpbSt → SpbSt) (s : Block) : (modSpb f s).eng = s.eng := rfl
@[simp] theorem modSpb_adc (f : SpbSt → SpbSt) (s : Block) : (modSpb f s).adc = s.adc := rfl
@[simp] theorem modSpb_recd (f : SpbSt → SpbSt) (s : Block) : (modSpb f s).recd = s.recd := rfl
@[simp] theorem modSpb_tw (f : SpbSt → SpbSt) (s : Block) : (modSpb f s).tw = s.tw := rfl
@[simp] theorem modSpb_graph (f : SpbSt → SpbSt) (s : Block) : (modSpb f s).graph = s.graph := rfl
@[simp] theorem modSpb_dam (f : SpbSt → SpbSt) (s : Block) : (modSpb f s).dam = s.dam := rfl
@[simp] theorem modSpb_mem (f : SpbSt → SpbSt) (s : Block) : (modSpb f s).mem = s.mem := rfl
@[simp] theorem modSpb_host (f : SpbSt → SpbSt) (s : Block) : (modSpb f s).host = s.host := rfl
@[simp] theorem modSpb_time (f : SpbSt → SpbSt) (s : Block) : (modSpb f s).time = s.time := rfl
@[simp] theorem modSpb_pwr (f : SpbSt → SpbSt) (s : Block) : (modSpb f s).pwr = s.pwr := rfl
@[simp] theorem modSpb_rst (f : SpbSt → SpbSt) (s : Block) : (modSpb f s).rst = s.rst := rfl

/-! ### modTime -/

@[simp] theorem modTime_time (f : TimeSt → TimeSt) (s : Block) : (modTime f s).time = f s.time := rfl
@[simp] theorem modTime_now (f : TimeSt → TimeSt) (s : Block) : (modTime f s).now = s.now := rfl
@[simp] theorem modTime_free (f : TimeSt → TimeSt) (s : Block) : (modTime f s).free = s.free := rfl
@[simp] theorem modTime_cyc (f : TimeSt → TimeSt) (s : Block) : (modTime f s).cyc = s.cyc := rfl
@[simp] theorem modTime_par (f : TimeSt → TimeSt) (s : Block) : (modTime f s).par = s.par := rfl
@[simp] theorem modTime_model (f : TimeSt → TimeSt) (s : Block) : (modTime f s).model = s.model := rfl
@[simp] theorem modTime_ev (f : TimeSt → TimeSt) (s : Block) : (modTime f s).ev = s.ev := rfl
@[simp] theorem modTime_cells (f : TimeSt → TimeSt) (s : Block) : (modTime f s).cells = s.cells := rfl
@[simp] theorem modTime_changes (f : TimeSt → TimeSt) (s : Block) : (modTime f s).changes = s.changes := rfl
@[simp] theorem modTime_ports (f : TimeSt → TimeSt) (s : Block) : (modTime f s).ports = s.ports := rfl
@[simp] theorem modTime_arms (f : TimeSt → TimeSt) (s : Block) : (modTime f s).arms = s.arms := rfl
@[simp] theorem modTime_trip (f : TimeSt → TimeSt) (s : Block) : (modTime f s).trip = s.trip := rfl
@[simp] theorem modTime_seq (f : TimeSt → TimeSt) (s : Block) : (modTime f s).seq = s.seq := rfl
@[simp] theorem modTime_si (f : TimeSt → TimeSt) (s : Block) : (modTime f s).si = s.si := rfl
@[simp] theorem modTime_tentNext (f : TimeSt → TimeSt) (s : Block) : (modTime f s).tentNext = s.tentNext := rfl
@[simp] theorem modTime_gov (f : TimeSt → TimeSt) (s : Block) : (modTime f s).gov = s.gov := rfl
@[simp] theorem modTime_eng (f : TimeSt → TimeSt) (s : Block) : (modTime f s).eng = s.eng := rfl
@[simp] theorem modTime_adc (f : TimeSt → TimeSt) (s : Block) : (modTime f s).adc = s.adc := rfl
@[simp] theorem modTime_recd (f : TimeSt → TimeSt) (s : Block) : (modTime f s).recd = s.recd := rfl
@[simp] theorem modTime_tw (f : TimeSt → TimeSt) (s : Block) : (modTime f s).tw = s.tw := rfl
@[simp] theorem modTime_spb (f : TimeSt → TimeSt) (s : Block) : (modTime f s).spb = s.spb := rfl
@[simp] theorem modTime_graph (f : TimeSt → TimeSt) (s : Block) : (modTime f s).graph = s.graph := rfl
@[simp] theorem modTime_dam (f : TimeSt → TimeSt) (s : Block) : (modTime f s).dam = s.dam := rfl
@[simp] theorem modTime_mem (f : TimeSt → TimeSt) (s : Block) : (modTime f s).mem = s.mem := rfl
@[simp] theorem modTime_host (f : TimeSt → TimeSt) (s : Block) : (modTime f s).host = s.host := rfl
@[simp] theorem modTime_pwr (f : TimeSt → TimeSt) (s : Block) : (modTime f s).pwr = s.pwr := rfl
@[simp] theorem modTime_rst (f : TimeSt → TimeSt) (s : Block) : (modTime f s).rst = s.rst := rfl

/-! ### modTw -/

@[simp] theorem modTw_tw (f : TwinSt → TwinSt) (s : Block) : (modTw f s).tw = f s.tw := rfl
@[simp] theorem modTw_now (f : TwinSt → TwinSt) (s : Block) : (modTw f s).now = s.now := rfl
@[simp] theorem modTw_free (f : TwinSt → TwinSt) (s : Block) : (modTw f s).free = s.free := rfl
@[simp] theorem modTw_cyc (f : TwinSt → TwinSt) (s : Block) : (modTw f s).cyc = s.cyc := rfl
@[simp] theorem modTw_par (f : TwinSt → TwinSt) (s : Block) : (modTw f s).par = s.par := rfl
@[simp] theorem modTw_model (f : TwinSt → TwinSt) (s : Block) : (modTw f s).model = s.model := rfl
@[simp] theorem modTw_ev (f : TwinSt → TwinSt) (s : Block) : (modTw f s).ev = s.ev := rfl
@[simp] theorem modTw_cells (f : TwinSt → TwinSt) (s : Block) : (modTw f s).cells = s.cells := rfl
@[simp] theorem modTw_changes (f : TwinSt → TwinSt) (s : Block) : (modTw f s).changes = s.changes := rfl
@[simp] theorem modTw_ports (f : TwinSt → TwinSt) (s : Block) : (modTw f s).ports = s.ports := rfl
@[simp] theorem modTw_arms (f : TwinSt → TwinSt) (s : Block) : (modTw f s).arms = s.arms := rfl
@[simp] theorem modTw_trip (f : TwinSt → TwinSt) (s : Block) : (modTw f s).trip = s.trip := rfl
@[simp] theorem modTw_seq (f : TwinSt → TwinSt) (s : Block) : (modTw f s).seq = s.seq := rfl
@[simp] theorem modTw_si (f : TwinSt → TwinSt) (s : Block) : (modTw f s).si = s.si := rfl
@[simp] theorem modTw_tentNext (f : TwinSt → TwinSt) (s : Block) : (modTw f s).tentNext = s.tentNext := rfl
@[simp] theorem modTw_gov (f : TwinSt → TwinSt) (s : Block) : (modTw f s).gov = s.gov := rfl
@[simp] theorem modTw_eng (f : TwinSt → TwinSt) (s : Block) : (modTw f s).eng = s.eng := rfl
@[simp] theorem modTw_adc (f : TwinSt → TwinSt) (s : Block) : (modTw f s).adc = s.adc := rfl
@[simp] theorem modTw_recd (f : TwinSt → TwinSt) (s : Block) : (modTw f s).recd = s.recd := rfl
@[simp] theorem modTw_spb (f : TwinSt → TwinSt) (s : Block) : (modTw f s).spb = s.spb := rfl
@[simp] theorem modTw_graph (f : TwinSt → TwinSt) (s : Block) : (modTw f s).graph = s.graph := rfl
@[simp] theorem modTw_dam (f : TwinSt → TwinSt) (s : Block) : (modTw f s).dam = s.dam := rfl
@[simp] theorem modTw_mem (f : TwinSt → TwinSt) (s : Block) : (modTw f s).mem = s.mem := rfl
@[simp] theorem modTw_host (f : TwinSt → TwinSt) (s : Block) : (modTw f s).host = s.host := rfl
@[simp] theorem modTw_time (f : TwinSt → TwinSt) (s : Block) : (modTw f s).time = s.time := rfl
@[simp] theorem modTw_pwr (f : TwinSt → TwinSt) (s : Block) : (modTw f s).pwr = s.pwr := rfl
@[simp] theorem modTw_rst (f : TwinSt → TwinSt) (s : Block) : (modTw f s).rst = s.rst := rfl

/-! ### modPwr -/

@[simp] theorem modPwr_pwr (f : PwrSt → PwrSt) (s : Block) : (modPwr f s).pwr = f s.pwr := rfl
@[simp] theorem modPwr_now (f : PwrSt → PwrSt) (s : Block) : (modPwr f s).now = s.now := rfl
@[simp] theorem modPwr_free (f : PwrSt → PwrSt) (s : Block) : (modPwr f s).free = s.free := rfl
@[simp] theorem modPwr_cyc (f : PwrSt → PwrSt) (s : Block) : (modPwr f s).cyc = s.cyc := rfl
@[simp] theorem modPwr_par (f : PwrSt → PwrSt) (s : Block) : (modPwr f s).par = s.par := rfl
@[simp] theorem modPwr_model (f : PwrSt → PwrSt) (s : Block) : (modPwr f s).model = s.model := rfl
@[simp] theorem modPwr_ev (f : PwrSt → PwrSt) (s : Block) : (modPwr f s).ev = s.ev := rfl
@[simp] theorem modPwr_cells (f : PwrSt → PwrSt) (s : Block) : (modPwr f s).cells = s.cells := rfl
@[simp] theorem modPwr_changes (f : PwrSt → PwrSt) (s : Block) : (modPwr f s).changes = s.changes := rfl
@[simp] theorem modPwr_ports (f : PwrSt → PwrSt) (s : Block) : (modPwr f s).ports = s.ports := rfl
@[simp] theorem modPwr_arms (f : PwrSt → PwrSt) (s : Block) : (modPwr f s).arms = s.arms := rfl
@[simp] theorem modPwr_trip (f : PwrSt → PwrSt) (s : Block) : (modPwr f s).trip = s.trip := rfl
@[simp] theorem modPwr_seq (f : PwrSt → PwrSt) (s : Block) : (modPwr f s).seq = s.seq := rfl
@[simp] theorem modPwr_si (f : PwrSt → PwrSt) (s : Block) : (modPwr f s).si = s.si := rfl
@[simp] theorem modPwr_tentNext (f : PwrSt → PwrSt) (s : Block) : (modPwr f s).tentNext = s.tentNext := rfl
@[simp] theorem modPwr_gov (f : PwrSt → PwrSt) (s : Block) : (modPwr f s).gov = s.gov := rfl
@[simp] theorem modPwr_eng (f : PwrSt → PwrSt) (s : Block) : (modPwr f s).eng = s.eng := rfl
@[simp] theorem modPwr_adc (f : PwrSt → PwrSt) (s : Block) : (modPwr f s).adc = s.adc := rfl
@[simp] theorem modPwr_recd (f : PwrSt → PwrSt) (s : Block) : (modPwr f s).recd = s.recd := rfl
@[simp] theorem modPwr_tw (f : PwrSt → PwrSt) (s : Block) : (modPwr f s).tw = s.tw := rfl
@[simp] theorem modPwr_spb (f : PwrSt → PwrSt) (s : Block) : (modPwr f s).spb = s.spb := rfl
@[simp] theorem modPwr_graph (f : PwrSt → PwrSt) (s : Block) : (modPwr f s).graph = s.graph := rfl
@[simp] theorem modPwr_dam (f : PwrSt → PwrSt) (s : Block) : (modPwr f s).dam = s.dam := rfl
@[simp] theorem modPwr_mem (f : PwrSt → PwrSt) (s : Block) : (modPwr f s).mem = s.mem := rfl
@[simp] theorem modPwr_host (f : PwrSt → PwrSt) (s : Block) : (modPwr f s).host = s.host := rfl
@[simp] theorem modPwr_time (f : PwrSt → PwrSt) (s : Block) : (modPwr f s).time = s.time := rfl
@[simp] theorem modPwr_rst (f : PwrSt → PwrSt) (s : Block) : (modPwr f s).rst = s.rst := rfl

/-! ### modRst -/

@[simp] theorem modRst_rst (f : RstSt → RstSt) (s : Block) : (modRst f s).rst = f s.rst := rfl
@[simp] theorem modRst_now (f : RstSt → RstSt) (s : Block) : (modRst f s).now = s.now := rfl
@[simp] theorem modRst_free (f : RstSt → RstSt) (s : Block) : (modRst f s).free = s.free := rfl
@[simp] theorem modRst_cyc (f : RstSt → RstSt) (s : Block) : (modRst f s).cyc = s.cyc := rfl
@[simp] theorem modRst_par (f : RstSt → RstSt) (s : Block) : (modRst f s).par = s.par := rfl
@[simp] theorem modRst_model (f : RstSt → RstSt) (s : Block) : (modRst f s).model = s.model := rfl
@[simp] theorem modRst_ev (f : RstSt → RstSt) (s : Block) : (modRst f s).ev = s.ev := rfl
@[simp] theorem modRst_cells (f : RstSt → RstSt) (s : Block) : (modRst f s).cells = s.cells := rfl
@[simp] theorem modRst_changes (f : RstSt → RstSt) (s : Block) : (modRst f s).changes = s.changes := rfl
@[simp] theorem modRst_ports (f : RstSt → RstSt) (s : Block) : (modRst f s).ports = s.ports := rfl
@[simp] theorem modRst_arms (f : RstSt → RstSt) (s : Block) : (modRst f s).arms = s.arms := rfl
@[simp] theorem modRst_trip (f : RstSt → RstSt) (s : Block) : (modRst f s).trip = s.trip := rfl
@[simp] theorem modRst_seq (f : RstSt → RstSt) (s : Block) : (modRst f s).seq = s.seq := rfl
@[simp] theorem modRst_si (f : RstSt → RstSt) (s : Block) : (modRst f s).si = s.si := rfl
@[simp] theorem modRst_tentNext (f : RstSt → RstSt) (s : Block) : (modRst f s).tentNext = s.tentNext := rfl
@[simp] theorem modRst_gov (f : RstSt → RstSt) (s : Block) : (modRst f s).gov = s.gov := rfl
@[simp] theorem modRst_eng (f : RstSt → RstSt) (s : Block) : (modRst f s).eng = s.eng := rfl
@[simp] theorem modRst_adc (f : RstSt → RstSt) (s : Block) : (modRst f s).adc = s.adc := rfl
@[simp] theorem modRst_recd (f : RstSt → RstSt) (s : Block) : (modRst f s).recd = s.recd := rfl
@[simp] theorem modRst_tw (f : RstSt → RstSt) (s : Block) : (modRst f s).tw = s.tw := rfl
@[simp] theorem modRst_spb (f : RstSt → RstSt) (s : Block) : (modRst f s).spb = s.spb := rfl
@[simp] theorem modRst_graph (f : RstSt → RstSt) (s : Block) : (modRst f s).graph = s.graph := rfl
@[simp] theorem modRst_dam (f : RstSt → RstSt) (s : Block) : (modRst f s).dam = s.dam := rfl
@[simp] theorem modRst_mem (f : RstSt → RstSt) (s : Block) : (modRst f s).mem = s.mem := rfl
@[simp] theorem modRst_host (f : RstSt → RstSt) (s : Block) : (modRst f s).host = s.host := rfl
@[simp] theorem modRst_time (f : RstSt → RstSt) (s : Block) : (modRst f s).time = s.time := rfl
@[simp] theorem modRst_pwr (f : RstSt → RstSt) (s : Block) : (modRst f s).pwr = s.pwr := rfl

/-! ### setCmp -/

@[simp] theorem setCmp_now (j : Nat) (x : CmpSt) (s : Block) : (setCmp j x s).now = s.now := rfl
@[simp] theorem setCmp_free (j : Nat) (x : CmpSt) (s : Block) : (setCmp j x s).free = s.free := rfl
@[simp] theorem setCmp_cyc (j : Nat) (x : CmpSt) (s : Block) : (setCmp j x s).cyc = s.cyc := rfl
@[simp] theorem setCmp_par (j : Nat) (x : CmpSt) (s : Block) : (setCmp j x s).par = s.par := rfl
@[simp] theorem setCmp_model (j : Nat) (x : CmpSt) (s : Block) : (setCmp j x s).model = s.model := rfl
@[simp] theorem setCmp_ev (j : Nat) (x : CmpSt) (s : Block) : (setCmp j x s).ev = s.ev := rfl
@[simp] theorem setCmp_cells (j : Nat) (x : CmpSt) (s : Block) : (setCmp j x s).cells = s.cells := rfl
@[simp] theorem setCmp_changes (j : Nat) (x : CmpSt) (s : Block) : (setCmp j x s).changes = s.changes := rfl
@[simp] theorem setCmp_ports (j : Nat) (x : CmpSt) (s : Block) : (setCmp j x s).ports = s.ports := rfl
@[simp] theorem setCmp_arms (j : Nat) (x : CmpSt) (s : Block) : (setCmp j x s).arms = s.arms := rfl
@[simp] theorem setCmp_seq (j : Nat) (x : CmpSt) (s : Block) : (setCmp j x s).seq = s.seq := rfl
@[simp] theorem setCmp_si (j : Nat) (x : CmpSt) (s : Block) : (setCmp j x s).si = s.si := rfl
@[simp] theorem setCmp_tentNext (j : Nat) (x : CmpSt) (s : Block) : (setCmp j x s).tentNext = s.tentNext := rfl
@[simp] theorem setCmp_gov (j : Nat) (x : CmpSt) (s : Block) : (setCmp j x s).gov = s.gov := rfl
@[simp] theorem setCmp_eng (j : Nat) (x : CmpSt) (s : Block) : (setCmp j x s).eng = s.eng := rfl
@[simp] theorem setCmp_recd (j : Nat) (x : CmpSt) (s : Block) : (setCmp j x s).recd = s.recd := rfl
@[simp] theorem setCmp_tw (j : Nat) (x : CmpSt) (s : Block) : (setCmp j x s).tw = s.tw := rfl
@[simp] theorem setCmp_spb (j : Nat) (x : CmpSt) (s : Block) : (setCmp j x s).spb = s.spb := rfl
@[simp] theorem setCmp_graph (j : Nat) (x : CmpSt) (s : Block) : (setCmp j x s).graph = s.graph := rfl
@[simp] theorem setCmp_dam (j : Nat) (x : CmpSt) (s : Block) : (setCmp j x s).dam = s.dam := rfl
@[simp] theorem setCmp_mem (j : Nat) (x : CmpSt) (s : Block) : (setCmp j x s).mem = s.mem := rfl
@[simp] theorem setCmp_host (j : Nat) (x : CmpSt) (s : Block) : (setCmp j x s).host = s.host := rfl
@[simp] theorem setCmp_time (j : Nat) (x : CmpSt) (s : Block) : (setCmp j x s).time = s.time := rfl
@[simp] theorem setCmp_pwr (j : Nat) (x : CmpSt) (s : Block) : (setCmp j x s).pwr = s.pwr := rfl
@[simp] theorem setCmp_rst (j : Nat) (x : CmpSt) (s : Block) : (setCmp j x s).rst = s.rst := rfl

/-! ### Reads after updates -/

@[simp] theorem cell_modCell_same (g : Nat) (f : CellSt → CellSt) (s : Block) : cell (modCell g f s) g = f (cell s g) :=
  tget_tmod_same _ _ _ _
theorem cell_modCell_ne {g j : Nat} (f : CellSt → CellSt) (s : Block) (h : j ≠ g) :
    cell (modCell g f s) j = cell s j := tget_tmod_ne _ _ _ h
@[simp] theorem port_modPort_same (p : Nat) (f : PortSt → PortSt) (s : Block) : port (modPort p f s) p = f (port s p) :=
  tget_tmod_same _ _ _ _
theorem port_modPort_ne {p j : Nat} (f : PortSt → PortSt) (s : Block) (h : j ≠ p) :
    port (modPort p f s) j = port s j := tget_tmod_ne _ _ _ h
@[simp] theorem arm_modArm_same (a : Nat) (f : ArmSt → ArmSt) (s : Block) : arm (modArm a f s) a = f (arm s a) :=
  tget_tmod_same _ _ _ _
theorem arm_modArm_ne {a j : Nat} (f : ArmSt → ArmSt) (s : Block) (h : j ≠ a) :
    arm (modArm a f s) j = arm s j := tget_tmod_ne _ _ _ h
@[simp] theorem task_modTask_same (t : Nat) (f : TaskSt → TaskSt) (s : Block) : task (modTask t f s) t = f (task s t) :=
  tget_tmod_same _ _ _ _
theorem task_modTask_ne {t j : Nat} (f : TaskSt → TaskSt) (s : Block) (h : j ≠ t) :
    task (modTask t f s) j = task s j := tget_tmod_ne _ _ _ h
@[simp] theorem core_modCore_same (c : Nat) (f : CoreSt → CoreSt) (s : Block) : core (modCore c f s) c = f (core s c) :=
  tget_tmod_same _ _ _ _
theorem core_modCore_ne {c j : Nat} (f : CoreSt → CoreSt) (s : Block) (h : j ≠ c) :
    core (modCore c f s) j = core s j := tget_tmod_ne _ _ _ h
@[simp] theorem mbx_modMbx_same (m : Nat) (f : MbxSt → MbxSt) (s : Block) : mbx (modMbx m f s) m = f (mbx s m) :=
  tget_tmod_same _ _ _ _
theorem mbx_modMbx_ne {m j : Nat} (f : MbxSt → MbxSt) (s : Block) (h : j ≠ m) :
    mbx (modMbx m f s) j = mbx s j := tget_tmod_ne _ _ _ h
@[simp] theorem queue_modQueue_same (q : Nat) (f : QueueSt → QueueSt) (s : Block) : queue (modQueue q f s) q = f (queue s q) :=
  tget_tmod_same _ _ _ _
theorem queue_modQueue_ne {q j : Nat} (f : QueueSt → QueueSt) (s : Block) (h : j ≠ q) :
    queue (modQueue q f s) j = queue s j := tget_tmod_ne _ _ _ h
@[simp] theorem adcUnit_modUnit_same (u : Nat) (f : AdcUnit → AdcUnit) (s : Block) : adcUnit (modUnit u f s) u = f (adcUnit s u) :=
  tget_tmod_same _ _ _ _
theorem adcUnit_modUnit_ne {u j : Nat} (f : AdcUnit → AdcUnit) (s : Block) (h : j ≠ u) :
    adcUnit (modUnit u f s) j = adcUnit s j := tget_tmod_ne _ _ _ h
@[simp] theorem fant_modFant_same (i : Nat) (f : FantSt → FantSt) (s : Block) : fant (modFant i f s) i = f (fant s i) :=
  tget_tmod_same _ _ _ _
theorem fant_modFant_ne {i j : Nat} (f : FantSt → FantSt) (s : Block) (h : j ≠ i) :
    fant (modFant i f s) j = fant s j := tget_tmod_ne _ _ _ h
@[simp] theorem rpc_modRpc_same (r : Nat) (f : RpcSt → RpcSt) (s : Block) : rpc (modRpc r f s) r = f (rpc s r) :=
  tget_tmod_same _ _ _ _
theorem rpc_modRpc_ne {r j : Nat} (f : RpcSt → RpcSt) (s : Block) (h : j ≠ r) :
    rpc (modRpc r f s) j = rpc s j := tget_tmod_ne _ _ _ h
@[simp] theorem ramp_modRamp_same (c : Nat) (f : RampSt → RampSt) (s : Block) : ramp (modRamp c f s) c = f (ramp s c) :=
  tget_tmod_same _ _ _ _
theorem ramp_modRamp_ne {c j : Nat} (f : RampSt → RampSt) (s : Block) (h : j ≠ c) :
    ramp (modRamp c f s) j = ramp s j := tget_tmod_ne _ _ _ h

@[simp] theorem raise_raised (e : Nat) (s : Block) : (raise e s).ev.raised = s.ev.raised ++ [e] := rfl
@[simp] theorem inReset_raise (e : Nat) (s : Block) : inReset (raise e s) = inReset s := rfl

end Sys2Proof.Machine
end

