-- ==== Sys2Proof/Laws/Command.lean ====
section
/-!
SUPPORT. The outcome of a command in terms of its effect, and what holds at every command's end.
-/

namespace Sys2Proof.Machine

theorem run_live (f : Block → Block) (s : State) (h : s.live) : run f s.toBlock = settle (f s.toBlock) := by
  have : inReset s.toBlock = false := h
  simp [run, this]

theorem act_live (i : Instr) (f : Block → Block) (s : State) (h : s.live) (hw : i.wf = true) :
    act i f s = .next (ended s (f s.toBlock)) := by
  simp [act, hw, run_live f s h, ended]

theorem actAlways_next (i : Instr) (f : Block → Block) (s : State) (hw : i.wf = true) :
    actAlways i f s = .next (ended s (f s.toBlock)) := by simp [actAlways, hw, runAlways, ended]

theorem act_reset (i : Instr) (f : Block → Block) (s : State) (h : inReset s.toBlock = true) : act i f s = .next s := by
  simp [act, run, h]

theorem act_pending (i : Instr) (f : Block → Block) (s t : State) (h : act i f s = .next t) : t.pending = s.pending := by
  unfold act at h
  split at h <;> cases h <;> rfl

theorem actAlways_pending (i : Instr) (f : Block → Block) (s t : State) (h : actAlways i f s = .next t) :
    t.pending = s.pending := by
  unfold actAlways at h
  split at h <;> cases h <;> rfl

/-! ### Events are evaluated when a command ends -/

/-- Everything about events but the message counters. -/
def EvSt.core (x : EvSt) : EvSt := { x with sent := [] }

theorem core_msiSend (l : List Nat) (s : Block) : (forEach l msiSend s).ev.core = s.ev.core := by
  induction l generalizing s with
  | nil => rfl
  | cons v t ih => exact ih (msiSend v s)

/-- VEC_ACTIVE depends on the event registers only, and not on the message counters. -/
theorem vecActive_core (s t : Block) (h : s.ev.core = t.ev.core) : vecActive s = vecActive t := by
  have hp : s.ev.pend = t.ev.pend := by have := congrArg EvSt.pend h; exact this
  have he : s.ev.en = t.ev.en := by have := congrArg EvSt.en h; exact this
  have hv : s.ev.vec = t.ev.vec := by have := congrArg EvSt.vec h; exact this
  have hf : evtVec s = evtVec t := by funext i; simp [evtVec, hv]
  simp [vecActive, hp, he, hf]

/-- R660 at a command's end: nothing raised is left, the outstanding vectors are the active ones, the PBA holds only
such vectors. -/
theorem settle_settled (b : Block) : (settle b).eventsSettled = true := by
  have key : ∀ s : Block, s.ev.raised = [] → (msiSettle s).eventsSettled = true := by
    intro s hs
    unfold msiSettle
    extract_lets act out due go
    generalize hl : onesBelow go 64 = l
    have hc := core_msiSend l (modEv (fun x => { x with active := act, pba := clearMask due go }) s)
    have h1 : (forEach l msiSend (modEv (fun x => { x with active := act, pba := clearMask due go }) s)).ev.raised = [] := by
      have := congrArg EvSt.raised hc; exact this.trans hs
    have h2 : (forEach l msiSend (modEv (fun x => { x with active := act, pba := clearMask due go }) s)).ev.active = act := by
      have := congrArg EvSt.active hc; exact this
    have h3 : (forEach l msiSend (modEv (fun x => { x with active := act, pba := clearMask due go }) s)).ev.pba
        = clearMask due go := by
      have := congrArg EvSt.pba hc; exact this
    have h4 : vecActive (forEach l msiSend (modEv (fun x => { x with active := act, pba := clearMask due go }) s)) = act := by
      refine (vecActive_core _ (modEv (fun x => { x with active := act, pba := clearMask due go }) s) hc).trans ?_
      rfl
    simp only [Block.eventsSettled, h1, h2, h3, h4, List.length_nil, Bool.and_eq_true,
      decide_eq_true_eq, true_and]
    rw [clearMask_eq_zero]
    intro i hi
    simp only [testBit_clearMask, due, Nat.testBit_or, Nat.testBit_and, Bool.and_eq_true, Bool.or_eq_true] at hi
    rcases hi.1 with h | h
    · exact h.2
    · exact h.1
  exact key _ rfl

end Sys2Proof.Machine
end

