-- ==== Sys2Proof/Laws/Loops.lean ====
section
/-!
SUPPORT. Loops over ports, arms, mailboxes and DMA channels: what a read gives after them.
-/

namespace Sys2Proof.Machine

/-- A loop that changes entry k of a part of the block by a function, for each k of a list without repeats. -/
theorem read_forEach {β : Type} (get : Block → Nat → β) (upd : Nat → Block → Block) (f : β → β)
    (same : ∀ k s, get (upd k s) k = f (get s k)) (other : ∀ j k s, j ≠ k → get (upd k s) j = get s j)
    (l : List Nat) (hl : l.Nodup) (s : Block) (j : Nat) :
    get (forEach l upd s) j = if j ∈ l then f (get s j) else get s j := by
  induction l generalizing s with
  | nil => rfl
  | cons k t ih =>
    obtain ⟨hk, ht⟩ := List.nodup_cons.1 hl
    show get (forEach t upd (upd k s)) j = _
    rw [ih ht]
    by_cases hj : j = k
    · subst hj
      simp [hk, same]
    · simp [hj, other j k s hj]

/-- A part of the block that no round of a loop changes. -/
theorem kept_forEach {α β : Type} (p : Block → β) (upd : α → Block → Block) (h : ∀ k s, p (upd k s) = p s)
    (l : List α) (s : Block) : p (forEach l upd s) = p s := by
  induction l generalizing s with
  | nil => rfl
  | cons k t ih => exact (ih _).trans (h k s)

/-- What every round of a loop keeps holds after the loop. -/
theorem forEach_keeps {α : Type} (P : Block → Prop) (upd : α → Block → Block) (h : ∀ k s, P s → P (upd k s)) (l : List α) (s : Block)
    (hs : P s) : P (forEach l upd s) := by
  induction l generalizing s with
  | nil => exact hs
  | cons k t ih => exact ih _ (h k s hs)

theorem nodup_upto (n : Nat) : (upto n).Nodup := List.nodup_range

@[simp] theorem mem_upto (n k : Nat) : k ∈ upto n ↔ k < n := by simp [upto]

theorem mbx_forEach (f : MbxSt → MbxSt) (n : Nat) (s : Block) (m : Nat) :
    mbx (forEach (upto n) (fun m => modMbx m f) s) m = if m < n then f (mbx s m) else mbx s m := by
  rw [read_forEach mbx (fun m => modMbx m f) f (by intros; simp) (fun j k s h => mbx_modMbx_ne f s h) _ (nodup_upto n)]
  simp

theorem arm_forEach (f : ArmSt → ArmSt) (n : Nat) (s : Block) (a : Nat) :
    arm (forEach (upto n) (fun a => modArm a f) s) a = if a < n then f (arm s a) else arm s a := by
  rw [read_forEach arm (fun a => modArm a f) f (by intros; simp) (fun j k s h => arm_modArm_ne f s h) _ (nodup_upto n)]
  simp

theorem port_forEach (f : PortSt → PortSt) (l : List Nat) (hl : l.Nodup) (s : Block) (p : Nat) :
    port (forEach l (fun p => modPort p f) s) p = if p ∈ l then f (port s p) else port s p :=
  read_forEach port (fun p => modPort p f) f (by intros; simp) (fun j k s h => port_modPort_ne f s h) l hl s p

theorem dma_modDma_same (c : Nat) (f : DmaSt → DmaSt) (s : Block) : dma (modDma c f s) c = f (dma s c) :=
  tget_tmod_same _ _ _ _
theorem dma_modDma_ne {c j : Nat} (f : DmaSt → DmaSt) (s : Block) (h : j ≠ c) : dma (modDma c f s) j = dma s j :=
  tget_tmod_ne _ _ _ h

end Sys2Proof.Machine
end

