-- ==== Sys2Proof/Laws/Down.lean ====
section
/-!
SUPPORT. Blocking arms (R523 to R529), the opening order (R514) and leaving RUN (R530): what each operation can change.
-/

namespace Sys2Proof.Machine

/-- Raising an event changes nothing that does not look at events. -/
theorem raiseIf_keeps {β : Type} (p : Block → β) (hp : ∀ (b : Block) (x : EvSt), p { b with ev := x } = p b) (c : Bool) (e : Nat) (b : Block) : p (raiseIf c e b) = p b := by
  unfold raiseIf; split
  · exact hp b _
  · rfl

/-- R528: a withdrawn deblock does not change which arms switch. -/
theorem withdrawDeblock_sw (a c : Nat) (b : Block) (j : Nat) : (arm (withdrawDeblock a c b) j).sw = (arm b j).sw := by
  have h1 : ∀ (f : ArmSt → ArmSt) (hf : ∀ x, (f x).sw = x.sw) (k : Nat) (t : Block), (arm (modArm k f t) j).sw = (arm t j).sw := by
    intro f hf k t
    by_cases hk : j = k
    · subst hk; rw [arm_modArm_same]; exact hf _
    · rw [arm_modArm_ne _ _ hk]
  unfold withdrawDeblock
  split
  · rfl
  · dsimp only
    split
    · refine (kept_forEach (fun t : Block => (arm t j).sw) _ (fun k t => h1 _ (fun x => by split <;> rfl) k t) _ _).trans ?_
      exact h1 (fun x => { x with deblockWait := none, deblockRefuse := 1, blockCause := c }) (fun _ => rfl) a b
    · exact h1 (fun x => { x with deblockWait := none, deblockRefuse := 1, blockCause := c }) (fun _ => rfl) a b

/-- R528: a withdrawn deblock leaves the Safe Pulse Block, the parameters and the model. -/
theorem withdrawDeblock_keeps (a c : Nat) (b : Block) : (withdrawDeblock a c b).spb = b.spb ∧ (withdrawDeblock a c b).par = b.par ∧ (withdrawDeblock a c b).model = b.model := by
  unfold withdrawDeblock
  split
  · exact ⟨rfl, rfl, rfl⟩
  · dsimp only
    split
    · refine ⟨(kept_forEach Block.spb _ (fun _ _ => ?_) _ _).trans ?_, (kept_forEach Block.par _ (fun _ _ => ?_) _ _).trans ?_, (kept_forEach Block.model _ (fun _ _ => ?_) _ _).trans ?_⟩ <;> rfl
    · exact ⟨rfl, rfl, rfl⟩

/-- Stopping the cells of an arm changes its cells only. -/
theorem cellsStop_keeps (a : Nat) (b : Block) : (cellsStop a b).spb = b.spb ∧ (cellsStop a b).par = b.par ∧ (cellsStop a b).model = b.model ∧ (cellsStop a b).arms = b.arms :=
  ⟨rfl, rfl, rfl, rfl⟩

/-- R528: a deblock withdrawn in the fabric cycle of its t0 leaves the Safe Pulse Block, the parameters and the model and starts
no arm; without such a deblock nothing changes. -/
theorem withdrawLate_keeps (a : Nat) (b : Block) : (withdrawLate a b).spb = b.spb ∧ (withdrawLate a b).par = b.par ∧
    (withdrawLate a b).model = b.model ∧ (∀ j, (arm b j).sw = false → (arm (withdrawLate a b) j).sw = false) ∧
    (deblockedNow b (arm b a) = false → withdrawLate a b = b) := by
  unfold withdrawLate
  extract_lets x t1
  by_cases hd : (!deblockedNow b x) = true
  · rw [if_pos hd]; exact ⟨rfl, rfl, rfl, fun _ h => h, fun _ => rfl⟩
  · rw [if_neg hd]
    have h1 : t1.spb = b.spb ∧ t1.par = b.par ∧ t1.model = b.model ∧ ∀ j, (arm b j).sw = false → (arm t1 j).sw = false := by
      refine ⟨rfl, rfl, rfl, fun j h => ?_⟩
      by_cases hj : j = a
      · subst hj; exact (congrArg ArmSt.sw (arm_modArm_same j _ b)).trans h
      · exact (congrArg ArmSt.sw (arm_modArm_ne _ b hj)).trans h
    have hn : deblockedNow b (arm b a) = false → False := fun h => by rw [show x = arm b a from rfl, h] at hd; exact hd rfl
    clear_value t1
    have hk : ∀ e k f t, (raise e (cellsStop k (modArm k f t))).spb = t.spb ∧ (raise e (cellsStop k (modArm k f t))).par = t.par ∧
        (raise e (cellsStop k (modArm k f t))).model = t.model ∧ ∀ j, arm (raise e (cellsStop k (modArm k f t))) j = arm (modArm k f t) j :=
      fun _ _ _ _ => ⟨rfl, rfl, rfl, fun _ => rfl⟩
    split
    · refine ⟨(kept_forEach Block.spb _ (fun k t => (hk _ _ _ t).1) _ _).trans h1.1, (kept_forEach Block.par _ (fun k t => (hk _ _ _ t).2.1) _ _).trans h1.2.1,
        (kept_forEach Block.model _ (fun k t => (hk _ _ _ t).2.2.1) _ _).trans h1.2.2.1, fun j h => ?_, fun h => (hn h).elim⟩
      refine forEach_keeps (fun t => (arm t j).sw = false) _ (fun k t ht => ?_) _ _ (h1.2.2.2 j h)
      rw [(hk _ _ _ t).2.2.2 j]
      by_cases hj : j = k
      · subst hj; rw [arm_modArm_same]; rfl
      · rw [arm_modArm_ne _ t hj]; exact ht
    · exact ⟨h1.1, h1.2.1, h1.2.2.1, h1.2.2.2, fun h => (hn h).elim⟩

/-- A BLOCK set of a port changes that port only. -/
theorem blockPort_keeps (p : Nat) (b : Block) : (blockPort p b).spb = b.spb ∧ (blockPort p b).par = b.par ∧ (blockPort p b).model = b.model ∧ (blockPort p b).arms = b.arms := by
  unfold blockPort; split <;> exact ⟨rfl, rfl, rfl, rfl⟩

/-- R529 changes the converter state and events only. -/
theorem runToBlocked_keeps (b : Block) : (runToBlocked b).spb = b.spb ∧ (runToBlocked b).par = b.par ∧ (runToBlocked b).model = b.model ∧ (runToBlocked b).arms = b.arms := by
  have h : ∀ st, (setConv st b).spb = b.spb ∧ (setConv st b).par = b.par ∧ (setConv st b).model = b.model ∧ (setConv st b).arms = b.arms := fun st => by
    unfold setConv; split <;> exact ⟨rfl, rfl, rfl, rfl⟩
  unfold runToBlocked; split
  · split <;> exact h _
  · exact ⟨rfl, rfl, rfl, rfl⟩

/-- An arm is read from the table of arms. -/
theorem arm_of_arms {b c : Block} (h : b.arms = c.arms) (a : Nat) : arm b a = arm c a := by unfold arm; rw [h]

/-- Dropping the waiting frames of an arm changes its ports only. -/
theorem dropFrames_keeps (a : Nat) (b : Block) : (dropFrames a b).spb = b.spb ∧ (dropFrames a b).par = b.par ∧ (dropFrames a b).model = b.model ∧ (dropFrames a b).arms = b.arms := by
  unfold dropFrames
  refine ⟨kept_forEach Block.spb _ (fun _ _ => ?_) _ _, kept_forEach Block.par _ (fun _ _ => ?_) _ _, kept_forEach Block.model _ (fun _ _ => ?_) _ _, kept_forEach Block.arms _ (fun _ _ => ?_) _ _⟩ <;> rfl

/-- R523: an enabled arm that is blocked does not switch, no arm starts to, and the Safe Pulse Block, the parameters and the model
stay; but where the arm's deblock is withdrawn late (R528), no other arm changes that. -/
theorem blockArm_spec (a c : Nat) (b : Block) : (blockArm a c b).spb = b.spb ∧ (blockArm a c b).par = b.par ∧ (blockArm a c b).model = b.model ∧
    (armEnabled b a = true → (arm (blockArm a c b) a).sw = false) ∧ (∀ j, (arm b j).sw = false → (arm (blockArm a c b) j).sw = false) := by
  unfold blockArm
  by_cases he : (!armEnabled b a) = true
  · rw [if_pos he]
    refine ⟨rfl, rfl, rfl, fun g => ?_, fun _ h => h⟩
    rw [g] at he; exact absurd he (by decide)
  · rw [if_neg he]
    extract_lets x t1 t2 t3 same t4 t5
    have k1 : t1.spb = b.spb ∧ t1.par = b.par ∧ t1.model = b.model ∧ t1.arms = b.arms :=
      ⟨kept_forEach Block.spb _ (fun p u => (blockPort_keeps p u).1) _ _, kept_forEach Block.par _ (fun p u => (blockPort_keeps p u).2.1) _ _,
       kept_forEach Block.model _ (fun p u => (blockPort_keeps p u).2.2.1) _ _, kept_forEach Block.arms _ (fun p u => (blockPort_keeps p u).2.2.2) _ _⟩
    have k2 : t2.spb = b.spb ∧ t2.par = b.par ∧ t2.model = b.model ∧ t2.arms = b.arms :=
      ⟨(dropFrames_keeps a t1).1.trans k1.1, (dropFrames_keeps a t1).2.1.trans k1.2.1, (dropFrames_keeps a t1).2.2.1.trans k1.2.2.1, (dropFrames_keeps a t1).2.2.2.trans k1.2.2.2⟩
    have w := withdrawDeblock_keeps a c t2
    have wl := withdrawLate_keeps a (withdrawDeblock a c t2)
    have k3 : t3.spb = b.spb ∧ t3.par = b.par ∧ t3.model = b.model ∧ ∀ j, (arm b j).sw = false → (arm t3 j).sw = false :=
      ⟨wl.1.trans (w.1.trans k2.1), wl.2.1.trans (w.2.1.trans k2.2.1), wl.2.2.1.trans (w.2.2.trans k2.2.2.1), fun j h =>
        wl.2.2.2.1 j ((withdrawDeblock_sw a c t2 j).trans (by rw [arm_of_arms k2.2.2.2]; exact h))⟩
    have k4 : t4.spb = b.spb ∧ t4.par = b.par ∧ t4.model = b.model ∧ ∀ j, (arm b j).sw = false → (arm t4 j).sw = false := by
      show (if c = 7 then raise evDeclCurrent t3 else t3).spb = _ ∧ (if c = 7 then raise evDeclCurrent t3 else t3).par = _ ∧
        (if c = 7 then raise evDeclCurrent t3 else t3).model = _ ∧ ∀ j, _ → (arm (if c = 7 then raise evDeclCurrent t3 else t3) j).sw = _
      split
      · exact ⟨k3.1, k3.2.1, k3.2.2.1, k3.2.2.2⟩
      · exact k3
    have hx : x = arm b a := rfl
    clear_value t4
    by_cases hsw : x.sw = true
    · rw [if_pos hsw]
      have k5 : t5.spb = t4.spb ∧ t5.par = t4.par ∧ t5.model = t4.model ∧ (arm t5 a).sw = false ∧ ∀ j, (arm t4 j).sw = false → (arm t5 j).sw = false := by
        refine ⟨rfl, rfl, rfl, congrArg ArmSt.sw (arm_modArm_same a _ t4), fun j h => ?_⟩
        by_cases hj : j = a
        · subst hj; exact congrArg ArmSt.sw (arm_modArm_same j _ t4)
        · exact (congrArg ArmSt.sw (arm_modArm_ne _ t4 hj)).trans h
      clear_value t5
      have r := runToBlocked_keeps (raise evArmBlocked (cellsStop a t5))
      refine ⟨r.1.trans (k5.1.trans k4.1), r.2.1.trans (k5.2.1.trans k4.2.1), r.2.2.1.trans (k5.2.2.1.trans k4.2.2.1), fun _ => ?_, fun j h => ?_⟩
      · rw [arm_of_arms r.2.2.2]; exact k5.2.2.2.1
      · rw [arm_of_arms r.2.2.2]; exact k5.2.2.2.2 j (k4.2.2.2 j h)
    · rw [if_neg hsw]
      have hs : (arm b a).sw = false := by rw [← hx]; simpa using hsw
      have hk : ∀ j, (arm b j).sw = false → (arm (modArm a (fun x => { x with
          blockCause := if same then min x.blockCause c else if c = 1 then 1 else x.blockCause }) t4) j).sw = false := fun j h => by
        by_cases hj : j = a
        · subst hj; exact (congrArg ArmSt.sw (arm_modArm_same j _ t4)).trans (k4.2.2.2 j h)
        · exact (congrArg ArmSt.sw (arm_modArm_ne _ t4 hj)).trans (k4.2.2.2 j h)
      exact ⟨k4.1, k4.2.1, k4.2.2.1, fun _ => hk a hs, hk⟩

/-- R523 for a list of arms. -/
theorem blockArms_spec (l : List Nat) (c : Nat) (b : Block) : (blockArms l c b).spb = b.spb ∧ (blockArms l c b).par = b.par ∧ (blockArms l c b).model = b.model ∧
    (∀ j, j ∈ l → armEnabled b j = true → (arm (blockArms l c b) j).sw = false) ∧ (∀ j, (arm b j).sw = false → (arm (blockArms l c b) j).sw = false) := by
  induction l generalizing b with
  | nil => exact ⟨rfl, rfl, rfl, fun j h => absurd h (by simp), fun _ h => h⟩
  | cons k t ih =>
    have h1 := blockArm_spec k c b
    have h2 := ih (blockArm k c b)
    have e : blockArms (k :: t) c b = blockArms t c (blockArm k c b) := rfl
    rw [e]
    have he : ∀ j, armEnabled (blockArm k c b) j = armEnabled b j := fun j => by unfold armEnabled parB parN parW; rw [h1.2.1]
    refine ⟨h2.1.trans h1.1, h2.2.1.trans h1.2.1, h2.2.2.1.trans h1.2.2.1, fun j hj g => ?_, fun j h => h2.2.2.2.2 j (h1.2.2.2.2 j h)⟩
    rcases List.mem_cons.1 hj with rfl | hj
    · exact h2.2.2.2.2 j (h1.2.2.2.1 g)
    · exact h2.2.2.2.1 j hj ((he j).trans g)

/-- BLOCK by the host: the enabled arms of the list do not switch, and no arm starts to. -/
theorem hostBlock_spec (l : List Nat) (b : Block) : (hostBlock l b).par = b.par ∧
    (∀ j, j ∈ l → armEnabled b j = true → (arm (hostBlock l b) j).sw = false) ∧ (∀ j, (arm b j).sw = false → (arm (hostBlock l b) j).sw = false) := by
  induction l generalizing b with
  | nil => exact ⟨rfl, fun j h => absurd h (by simp), fun _ h => h⟩
  | cons k t ih =>
    have h1 : ∀ u : Block, (if (arm u k).sw || (arm u k).deblockWait.isSome then blockArm k 10 u else u).par = u.par ∧
        (armEnabled u k = true → (arm (if (arm u k).sw || (arm u k).deblockWait.isSome then blockArm k 10 u else u) k).sw = false) ∧
        ∀ j, (arm u j).sw = false → (arm (if (arm u k).sw || (arm u k).deblockWait.isSome then blockArm k 10 u else u) j).sw = false := by
      intro u
      split
      · exact ⟨(blockArm_spec k 10 u).2.1, (blockArm_spec k 10 u).2.2.2.1, (blockArm_spec k 10 u).2.2.2.2⟩
      · rename_i g
        exact ⟨rfl, fun _ => by simpa using (by simpa using g : (arm u k).sw = false ∧ _).1, fun _ h => h⟩
    have e : hostBlock (k :: t) b = hostBlock t (if (arm b k).sw || (arm b k).deblockWait.isSome then blockArm k 10 b else b) := rfl
    rw [e]
    obtain ⟨i1, i2, i3⟩ := ih (if (arm b k).sw || (arm b k).deblockWait.isSome then blockArm k 10 b else b)
    obtain ⟨p1, p2, p3⟩ := h1 b
    have he : ∀ j, armEnabled (if (arm b k).sw || (arm b k).deblockWait.isSome then blockArm k 10 b else b) j = armEnabled b j := fun j => by
      unfold armEnabled parB parN parW; rw [p1]
    refine ⟨i1.trans p1, fun j hj g => ?_, fun j h => i3 j (p3 j h)⟩
    rcases List.mem_cons.1 hj with rfl | hj
    · exact i3 j (p2 g)
    · exact i2 j hj ((he j).trans g)

/-- The result of a sequence command (Table 14-7): the result register, REFUSE_ARM and an event. -/
theorem seqResult_spec (k : Nat) (b : Block) : (seqResult k b).arms = b.arms ∧ (seqResult k b).cells = b.cells ∧ (seqResult k b).ports = b.ports ∧ (seqResult k b).now = b.now ∧
    (seqResult k b).seq = { b.seq with cmdResult := k, refuseArm := if k = 8 then b.seq.refuseArm else 255 } ∧ ∀ x, { seqResult k b with seq := b.seq, ev := x } = { b with ev := x } := by
  unfold seqResult raiseIf; dsimp only
  split <;> exact ⟨rfl, rfl, rfl, rfl, rfl, fun _ => rfl⟩

/-- A block without the arms, ports, cells, events, converter state and REFUSE_ARM: what blocking an arm may change. -/
def frozen (b : Block) : Block := { b with
  seq := { b.seq with state := .await, refuseArm := 0 }, arms := [], ports := [], ev := {}, cells := [] }

/-- Blocking an arm changes nothing else. -/
theorem frozen_blockArm (a c : Nat) (b : Block) : frozen (blockArm a c b) = frozen b := by
  have hM : ∀ k f t, frozen (modArm k f t) = frozen t := fun k f t => rfl
  have hP : ∀ k f t, frozen (modPort k f t) = frozen t := fun k f t => rfl
  have hR : ∀ e t, frozen (raise e t) = frozen t := fun e t => rfl
  have hC : ∀ k t, frozen (cellsStop k t) = frozen t := fun k t => rfl
  have hS : ∀ st t, frozen (setConv st t) = frozen t := fun st t => by unfold setConv; split <;> rfl
  have hL : ∀ t, frozen (withdrawLate a t) = frozen t := fun t => by
    unfold withdrawLate
    extract_lets x t1
    split
    · rfl
    · have h1 : frozen t1 = frozen t := hM _ _ _
      clear_value t1
      split
      · refine (kept_forEach frozen _ (fun q u => ?_) _ _).trans (Eq.trans rfl h1)
        exact (hR _ _).trans ((hC _ _).trans (hM _ _ _))
      · exact h1
  unfold blockArm
  split
  · rfl
  · extract_lets x t1 t2 t3 same t4 t5
    have k1 : frozen t1 = frozen b := kept_forEach frozen _ (fun q u => by unfold blockPort; split; rfl; exact hP _ _ _) _ _
    have k2 : frozen t2 = frozen t1 := kept_forEach frozen _ (fun q u => hP _ _ _) _ _
    have k3 : frozen t3 = frozen t2 := by
      refine (hL _).trans ?_
      unfold withdrawDeblock
      split
      · rfl
      · dsimp only; split
        · refine (kept_forEach frozen _ (fun q u => hM _ _ _) _ _).trans ?_
          rfl
        · exact hM _ _ _
    have k4 : frozen t4 = frozen t3 := by
      show frozen (if c = 7 then raise evDeclCurrent t3 else t3) = frozen t3
      split
      · exact hR _ _
      · rfl
    have kk : frozen t4 = frozen b := k4.trans (k3.trans (k2.trans k1))
    have kr : frozen (raise evArmBlocked (cellsStop a t5)) = frozen b := (hR _ _).trans ((hC _ _).trans ((hM _ _ _).trans kk))
    clear_value t5 t4
    split
    · unfold runToBlocked
      split
      · split <;> exact (hS _ _).trans kr
      · exact kr
    · exact (hM _ _ _).trans kk

/-- Blocking arms changes nothing else. -/
theorem frozen_blockArms (l : List Nat) (c : Nat) (b : Block) : frozen (blockArms l c b) = frozen b :=
  kept_forEach frozen _ (fun a u => frozen_blockArm a c u) l b

/-- R514: MAIN is off after the opening order has begun, BYPASS too once main_aux is open, and only the outputs and their instants change. -/
theorem openBreakers_spec (b : Block) : ∃ L m o y, openBreakers b = { b with seq := { b.seq with cmdLevel := L, mainOffAt := m, opening := o, bypassOffAt := y } } ∧
    bitAt L (cmdMain b) = false ∧ (scClosed b (mainAux b) = false → bitAt L (cmdBypass b) = false) := by
  have e1 : ∃ m, dropMain b = { b with seq := { b.seq with cmdLevel := setBit b.seq.cmdLevel (cmdMain b) false, mainOffAt := m } } := by
    unfold dropMain driveCmd; dsimp only; split
    · exact ⟨_, rfl⟩
    · exact ⟨b.seq.mainOffAt, rfl⟩
  obtain ⟨m, e1⟩ := e1
  unfold openBreakers; dsimp only; rw [e1]
  have hs : scClosed { b with seq := { b.seq with cmdLevel := setBit b.seq.cmdLevel (cmdMain b) false, mainOffAt := m } } (mainAux { b with seq := { b.seq with cmdLevel := setBit b.seq.cmdLevel (cmdMain b) false, mainOffAt := m } }) = scClosed b (mainAux b) := rfl
  rw [hs]
  split
  · rename_i g
    exact ⟨_, m, _, b.seq.bypassOffAt, rfl, bitAt_setBit_same _ _ _, fun g' => by rw [g] at g'; cases g'⟩
  · unfold dropBypass driveCmd; dsimp only
    refine ⟨_, m, none, _, rfl, ?_, fun _ => ?_⟩
    · by_cases q : cmdMain b = cmdBypass b
      · show bitAt (setBit _ (cmdBypass b) _) _ = _
        rw [q]; exact bitAt_setBit_same _ _ _
      · show bitAt (setBit _ (cmdBypass b) _) _ = _
        rw [bitAt_setBit_ne _ _ q]; exact bitAt_setBit_same _ _ _
    · exact bitAt_setBit_same _ _ _

/-- Entering a state the converter is in restarts its step. -/
theorem enterDown_same (st : ConvState) (b : Block) (g : b.seq.state = st) : enterDown st b = portsToDiscovery { b with seq := { b.seq with step := 0 } } := by
  unfold enterDown; dsimp only; rw [if_pos g]; unfold setConv; rw [if_pos g]

/-- Entering DISCHARGE, FAULT or READY from another state. -/
theorem enterDown_new (st : ConvState) (b : Block) (g : ¬ b.seq.state = st) : enterDown st b =
    portsToDiscovery (raise evSeqState { b with seq := { b.seq with stepAt := b.now, step := 0, state := st } }) := by
  unfold enterDown; dsimp only; rw [if_neg g]; unfold setConv; rw [if_neg g]

/-- Ports that leave service change ports and raise events only. -/
theorem portsToDiscovery_keeps (b : Block) : { portsToDiscovery b with ports := b.ports, ev := b.ev } = b ∧
    ∀ e ∈ b.ev.raised, e ∈ (portsToDiscovery b).ev.raised := by
  have hr : ∀ c e (t : Block), { raiseIf c e t with ports := b.ports, ev := b.ev } = { t with ports := b.ports, ev := b.ev } ∧
      ∀ x ∈ t.ev.raised, x ∈ (raiseIf c e t).ev.raised := fun c e t => by
    unfold raiseIf; split
    · exact ⟨rfl, fun x hx => List.mem_append.2 (.inl hx)⟩
    · exact ⟨rfl, fun x hx => hx⟩
  unfold portsToDiscovery
  refine ⟨(kept_forEach (fun t : Block => { t with ports := b.ports, ev := b.ev }) _ (fun p t => ?_) _ _).trans rfl, fun e he => ?_⟩
  · dsimp only
    split
    · exact (hr _ _ _).1.trans rfl
    · rfl
  · refine forEach_keeps (fun t : Block => e ∈ t.ev.raised) _ (fun p t ht => ?_) _ _ he
    dsimp only
    split
    · exact (hr _ _ _).2 e ht
    · exact ht

/-- What entering a state without switching leaves: outputs, arms and the fault registers. -/
theorem enterDown_spec (st : ConvState) (b : Block) : (enterDown st b).seq.state = st ∧ (enterDown st b).seq.step = 0 ∧ (enterDown st b).arms = b.arms ∧
    (enterDown st b).seq.faultLast = b.seq.faultLast ∧ (enterDown st b).seq.faultCause = b.seq.faultCause ∧ (enterDown st b).seq.faultItem = b.seq.faultItem ∧
    (enterDown st b).seq.cmdLevel = b.seq.cmdLevel ∧ { enterDown st b with seq := b.seq, ports := b.ports, ev := b.ev } = b ∧
    (∀ e ∈ b.ev.raised, e ∈ (enterDown st b).ev.raised) := by
  have key : ∀ t : Block, t.seq.state = st → t.seq.step = 0 → { t with seq := b.seq, ev := b.ev } = b →
      t.seq.faultLast = b.seq.faultLast → t.seq.faultCause = b.seq.faultCause → t.seq.faultItem = b.seq.faultItem → t.seq.cmdLevel = b.seq.cmdLevel →
      (∀ e ∈ b.ev.raised, e ∈ t.ev.raised) → _ := fun t h1 h2 h3 h4 h5 h6 h7 h8 => by
    obtain ⟨p1, p2⟩ := portsToDiscovery_keeps t
    have q : ∀ {β : Type} (f : Block → β), f { portsToDiscovery t with ports := t.ports, ev := t.ev } = f t := fun f => congrArg f p1
    show (portsToDiscovery t).seq.state = st ∧ (portsToDiscovery t).seq.step = 0 ∧ (portsToDiscovery t).arms = b.arms ∧
      (portsToDiscovery t).seq.faultLast = b.seq.faultLast ∧ (portsToDiscovery t).seq.faultCause = b.seq.faultCause ∧ (portsToDiscovery t).seq.faultItem = b.seq.faultItem ∧
      (portsToDiscovery t).seq.cmdLevel = b.seq.cmdLevel ∧ { portsToDiscovery t with seq := b.seq, ports := b.ports, ev := b.ev } = b ∧
      (∀ e ∈ b.ev.raised, e ∈ (portsToDiscovery t).ev.raised)
    have hs : (portsToDiscovery t).seq = t.seq := q Block.seq
    rw [hs]
    refine ⟨h1, h2, (q Block.arms).trans (by have := congrArg Block.arms h3; exact this), h4, h5, h6, h7, ?_, fun e he => p2 e (h8 e he)⟩
    have := congrArg (fun u : Block => { u with seq := b.seq, ports := b.ports, ev := b.ev }) p1
    have h := congrArg (fun u : Block => { u with ports := b.ports }) h3
    exact Eq.trans (by exact this) h
  by_cases g : b.seq.state = st
  · rw [enterDown_same st b g]
    exact key { b with seq := { b.seq with step := 0 } } g rfl rfl rfl rfl rfl rfl (fun e he => he)
  · rw [enterDown_new st b g]
    exact key (raise evSeqState { b with seq := { b.seq with stepAt := b.now, step := 0, state := st } }) rfl rfl rfl rfl rfl rfl rfl
      (fun e he => List.mem_append.2 (.inl he))

end Sys2Proof.Machine
end

