-- ==== Sys2Proof/Laws/Lists.lean ====
section
/-!
SUPPORT. Keys found in tables, bits of masks, runs and filters of memory, and loops by index.
-/

namespace Sys2Proof.Machine

/-- A deleted key is not found. -/
theorem tfind_tdel_same {α : Type} (t : Tab α) (k : Nat) : tfind (tdel t k) k = none := by
  induction t with
  | nil => rfl
  | cons p t ih => obtain ⟨j, v⟩ := p; simp only [tdel]; split; exact ih; simp [tfind, *]

/-- Deleting a key leaves the others. -/
theorem tfind_tdel_ne {α : Type} (t : Tab α) {k i : Nat} (h : i ≠ k) : tfind (tdel t k) i = tfind t i := by
  induction t with
  | nil => rfl
  | cons p t ih =>
    obtain ⟨j, v⟩ := p; simp only [tdel]; split
    · rename_i e; subst e; rw [ih]; simp [tfind, Ne.symm h]
    · simp [tfind, ih]

/-- A key put is found. -/
theorem tfind_tput_same {α : Type} (t : Tab α) (k : Nat) (x : α) : tfind (tput k x t) k = some x := by
  induction t with
  | nil => simp [tput, tfind]
  | cons p t ih => obtain ⟨j, v⟩ := p; simp only [tput]; split; · simp [tfind]
                   · split; · simp [tfind]
                     · simp [tfind, ih, *]

/-- Putting a key leaves the others. -/
theorem tfind_tput_ne {α : Type} (t : Tab α) {k i : Nat} (x : α) (h : i ≠ k) : tfind (tput k x t) i = tfind t i := by
  induction t with
  | nil => simp [tput, tfind, Ne.symm h]
  | cons p t ih =>
    obtain ⟨j, v⟩ := p; simp only [tput]; split
    · rename_i e; subst e; simp [tfind, Ne.symm h]
    · split
      · simp [tfind, Ne.symm h]
      · simp [tfind, ih]

/-- The bits set one after another are the bits of the list. -/
theorem testBit_foldl_setBit (l : List Nat) (w i : Nat) : (l.foldl (fun w k => setBit w k true) w).testBit i = (w.testBit i || decide (i ∈ l)) := by
  induction l generalizing w with
  | nil => simp
  | cons k t ih =>
    show (t.foldl _ (setBit w k true)).testBit i = _
    rw [ih]
    by_cases hk : i = k
    · subst hk; simp [testBit_setBit_same]
    · rw [testBit_setBit_ne _ _ hk]; simp [hk]

/-- The mask of a list has exactly its bits. -/
theorem testBit_maskOf (l : List Nat) (i : Nat) : (maskOf l).testBit i = decide (i ∈ l) := by
  unfold maskOf; rw [testBit_foldl_setBit]; simp

/-- A byte that a filter of the memory keeps reads as before. -/
theorem memRead_filter_kept (p : Nat → Bool) (m : List Host.Cell) (a : Nat) (h : p a = true) : memRead (m.filter fun c => p c.1) a = memRead m a := by
  induction m with
  | nil => rfl
  | cons c t ih =>
    obtain ⟨j, v⟩ := c
    rw [List.filter_cons]
    by_cases hj : j = a
    · subst hj
      rw [if_pos h]
      simp [memRead, tget]
    · by_cases hp : p j = true
      · rw [if_pos hp]
        simp only [memRead, tget, hj, if_false]
        exact ih
      · rw [if_neg hp]
        have : memRead ((j, v) :: t) a = memRead t a := by simp [memRead, tget, hj]
        rw [this]; exact ih

/-- A byte that a filter of the memory drops reads 0. -/
theorem memRead_filter_dropped (p : Nat → Bool) (m : List Host.Cell) (a : Nat) (h : p a = false) : memRead (m.filter fun c => p c.1) a = 0#8 := by
  induction m with
  | nil => rfl
  | cons c t ih =>
    obtain ⟨j, v⟩ := c
    rw [List.filter_cons]
    by_cases hj : j = a
    · subst hj
      rw [if_neg (by rw [h]; decide)]; exact ih
    · by_cases hp : p j = true
      · rw [if_pos hp]
        simp only [memRead, tget, hj, if_false]
        exact ih
      · rw [if_neg hp]; exact ih

/-- Writing two runs of bytes one after the other writes their concatenation. -/
theorem memWriteBytes_append (l k : List W8) (m : List Host.Cell) (a : Nat) : memWriteBytes m a (l ++ k) = memWriteBytes (memWriteBytes m a l) (a + l.length) k := by
  induction l generalizing m a with
  | nil => rfl
  | cons b t ih =>
    show memWriteBytes (memWrite m a b) (a + 1) (t ++ k) = _
    rw [ih]
    show memWriteBytes (memWriteBytes (memWrite m a b) (a + 1) t) (a + 1 + t.length) k = memWriteBytes (memWriteBytes (memWrite m a b) (a + 1) t) (a + (t.length + 1)) k
    rw [show a + 1 + t.length = a + (t.length + 1) by omega]

/-- The number of bytes of a little-endian word. -/
theorem leBytes_length (n w : Nat) : (leBytes n w).length = n := by
  induction n generalizing w with
  | zero => rfl
  | succ n ih => simp [leBytes, ih]

/-- The ones of a word below a bit number. -/
theorem mem_onesBelow (w n c : Nat) : c ∈ onesBelow w n ↔ c < n ∧ bitAt w c = true := by
  unfold onesBelow bitAt; simp [List.mem_filter]

/-- A loop whose body updates its own entry by a function of the index. -/
theorem read_forEach_indexed {β : Type} (get : Block → Nat → β) (upd : Nat → Block → Block) (f : Nat → β → β)
    (same : ∀ k s, get (upd k s) k = f k (get s k)) (other : ∀ j k s, j ≠ k → get (upd k s) j = get s j)
    (l : List Nat) (hl : l.Nodup) (s : Block) (j : Nat) :
    get (forEach l upd s) j = if j ∈ l then f j (get s j) else get s j := by
  induction l generalizing s with
  | nil => rfl
  | cons k t ih =>
    obtain ⟨hk, ht⟩ := List.nodup_cons.1 hl
    show get (forEach t upd (upd k s)) j = _
    rw [ih ht]
    by_cases hj : j = k
    · subst hj; simp [hk, same]
    · simp [hj, other j k s hj]

end Sys2Proof.Machine
end

