-- ==== Sys2Proof/Laws/Engines.lean ====
section
/-!
SUPPORT. Queues, DMA channels, the twin state and PTP messages: what each shared operation can change.
-/

namespace Sys2Proof.Machine

/-- The queue accesses of a new fabric cycle begin with none (R374). -/
theorem queueFresh_spec (q : Nat) (b : Block) : ∀ d, d = queueFresh q b →
    (queue d q).fill = (queue b q).fill ∧ (queue d q).fillMax = (queue b q).fillMax ∧ (queue d q).head = (queue b q).head ∧
    ((queue b q).accAt ≠ fabric b.now + 1 → (queue d q).entered = []) ∧ ((queue b q).accAt = fabric b.now + 1 → d = b) ∧
    (∀ j, j ≠ q → queue d j = queue b j) ∧ d.mem = b.mem ∧ d.ev = b.ev ∧
    ∀ x y z, { d with dam := { d.dam with queues := x }, mem := y, ev := z } = { b with dam := { b.dam with queues := x }, mem := y, ev := z } := by
  intro d hd
  unfold queueFresh at hd
  by_cases h : (queue b q).accAt = fabric b.now + 1
  · rw [if_pos h] at hd; subst hd
    exact ⟨rfl, rfl, rfl, fun g => absurd h g, fun _ => rfl, fun _ _ => rfl, rfl, rfl, fun _ _ _ => rfl⟩
  · rw [if_neg h] at hd; subst hd
    have e := queue_modQueue_same q (fun x => { x with accAt := fabric b.now + 1, entered := [], taken := [], refused := [] }) b
    refine ⟨?_, ?_, ?_, fun _ => ?_, fun g => absurd g h, fun j hj => queue_modQueue_ne _ b hj, rfl, rfl, fun _ _ _ => rfl⟩ <;> rw [e]

/-- R373: what an entry entering a queue changes; where none entered before it in the fabric cycle it lies at the queue's end. -/
theorem queueEnter_spec (q : Nat) (p : QPost) (b : Block) : ∀ d, d = queueEnter q p b →
    (queue d q).fill = (queue b q).fill + 1 ∧ (queue d q).fillMax = max (queue b q).fillMax ((queue b q).fill + 1) ∧
    (∀ j, j ≠ q → queue d j = queue b j) ∧ d.ev.raised = b.ev.raised ++ [evQueuePost q] ∧
    { d with dam := { d.dam with queues := b.dam.queues }, mem := b.mem, ev := b.ev } = b ∧
    ((queue b q).accAt ≠ fabric b.now + 1 ∨ (queue b q).entered = [] →
      d.mem = memWriteBytes b.mem (qSlot b q (queue b q).fill) (entryBytes p.w) ∧ (queue d q).entered = [p]) := by
  intro d hd
  unfold queueEnter at hd
  obtain ⟨f1, f2, f3, f4, f5, f6, f7, f8, f9⟩ := queueFresh_spec q b _ rfl
  have hq : ∀ k, qSlot (queueFresh q b) q k = qSlot b q k := fun k => by
    have hp : (queueFresh q b).par = b.par := by have := congrArg Block.par (f9 [] [] {}); exact this
    unfold qSlot qBase qDepth parN parW; rw [f3, hp]
  have he : (queue b q).accAt ≠ fabric b.now + 1 ∨ (queue b q).entered = [] → (queue (queueFresh q b) q).entered = [] := by
    rintro (h | h)
    · exact f4 h
    · by_cases g : (queue b q).accAt = fabric b.now + 1
      · rw [f5 g]; exact h
      · exact f4 g
  generalize queueFresh q b = A at *
  dsimp only at hd
  generalize hx : queue A q = x at hd
  generalize hk : (List.takeWhile (fun y => decide (y.rank ≤ p.rank)) x.entered).length = k at hd
  generalize hl : x.entered.take k ++ p :: x.entered.drop k = l at hd
  generalize hb : x.fill - x.entered.length = base at hd
  generalize hBd : forEach (mapIdx (fun i (y : QPost) => (i, y)) k (l.drop k)) (fun x s => writeBytes (qSlot s q (base + x.1)) (entryBytes x.2.w) s) A = B at hd
  have hB : (∀ j, queue B j = queue A j) ∧ B.ev = A.ev ∧
      (∀ u v w, { B with dam := { B.dam with queues := u }, mem := v, ev := w } = { A with dam := { A.dam with queues := u }, mem := v, ev := w }) :=
    by
      have key : ∀ {β : Type} (g : Block → β), (∀ a l t, g (writeBytes a l t) = g t) → g B = g A := fun g hg => by
        rw [← hBd]; exact kept_forEach g _ (fun _ _ => hg _ _ _) _ _
      exact ⟨fun j => key (fun t => queue t j) (fun _ _ _ => rfl), key Block.ev (fun _ _ _ => rfl), fun u v w =>
        key (fun t : Block => { t with dam := { t.dam with queues := u }, mem := v, ev := w }) (fun _ _ _ => rfl)⟩
  have hm : x.entered = [] → B.mem = memWriteBytes A.mem (qSlot A q x.fill) (entryBytes p.w) ∧ l = [p] := fun h => by
    rw [h] at hk hl hb
    have hk : k = 0 := hk.symm
    have hl : l = [p] := by rw [← hl]; simp
    have hb : base = x.fill := hb.symm
    refine ⟨?_, hl⟩
    rw [← hBd, hk, hl, hb]; rfl
  have hs := queue_modQueue_same q (fun x => { x with fill := x.fill + 1, fillMax := max x.fillMax (x.fill + 1), entered := l }) B
  subst hd
  refine ⟨?_, ?_, fun j hj => ?_, ?_, ?_, fun h => ⟨?_, ?_⟩⟩
  · refine (congrArg QueueSt.fill hs).trans ?_; show (queue B q).fill + 1 = _; rw [hB.1, f1]
  · refine (congrArg QueueSt.fillMax hs).trans ?_; show max (queue B q).fillMax ((queue B q).fill + 1) = _; rw [hB.1, f1, f2]
  · refine (queue_modQueue_ne _ B hj).trans ?_; rw [hB.1, f6 j hj]
  · show B.ev.raised ++ _ = _; rw [hB.2.1, f8]
  · have := hB.2.2 b.dam.queues b.mem b.ev
    exact Eq.trans (by exact this) (f9 _ _ _)
  · show B.mem = _; rw [(hm (hx ▸ he h)).1, hq, f7, ← hx, f1]
  · refine (congrArg QueueSt.entered hs).trans ?_; exact (hm (hx ▸ he h)).2

/-- R388: what a DMA halt changes. -/
theorem dmaHalt_spec (c k a r : Nat) (b : Block) : ∀ d, d = dmaHalt c k a r b → dma d c = { dma b c with st := .halted, outcome := 3, cause := k, faultAddr := a, residual := r, fetching := false } ∧
    (∀ j, j ≠ c → dma d j = dma b j) ∧ d.ev.raised = b.ev.raised ++ [evDmaFault] ∧ { d with dam := { d.dam with dma := b.dam.dma }, ev := b.ev } = b := by
  intro d hd
  subst hd
  refine ⟨?_, fun j hj => ?_, rfl, rfl⟩
  · exact tget_tmod_same {} b.dam.dma c (fun x => { x with st := .halted, outcome := 3, cause := k, faultAddr := a, residual := r, fetching := false })
  · exact tget_tmod_ne {} b.dam.dma (fun x => { x with st := .halted, outcome := 3, cause := k, faultAddr := a, residual := r, fetching := false }) hj

/-- A change of the twin state changes nothing else. -/
theorem modTw_keeps (f : TwinSt → TwinSt) (b : Block) : (modTw f b).ev = b.ev ∧ ∀ x y, { modTw f b with tw := x, ev := y } = { b with tw := x, ev := y } := ⟨rfl, fun _ _ => rfl⟩

/-- Raising an event changes the events only. -/
theorem raise_keeps (e : Nat) (b : Block) : (raise e b).tw = b.tw ∧ (raise e b).ev.raised = b.ev.raised ++ [e] ∧ ∀ x y, { raise e b with tw := x, ev := y } = { b with tw := x, ev := y } := ⟨rfl, rfl, fun _ _ => rfl⟩

/-- R585: the partner is absent; nothing else of the twin changes but the event. -/
theorem setAbsent_spec (b : Block) : (setAbsent b).tw.link = b.tw.link ∧ (setAbsent b).tw.partnerAbsent = true ∧ (setAbsent b).tw.role = b.tw.role ∧ (∀ e ∈ b.ev.raised, e ∈ (setAbsent b).ev.raised) ∧
    ∀ x y, { setAbsent b with tw := x, ev := y } = { b with tw := x, ev := y } := by
  unfold setAbsent
  split
  · rename_i h; exact ⟨rfl, h, rfl, fun _ he => he, fun _ _ => rfl⟩
  · exact ⟨rfl, rfl, rfl, fun _ he => List.mem_append.2 (.inl he), fun _ _ => rfl⟩

/-- Raising an event leaves the time. -/
theorem raiseIf_time (c : Bool) (e : Nat) (b : Block) : (raiseIf c e b).time = b.time ∧ (raiseIf c e b).now = b.now ∧ (raiseIf c e b).free = b.free := by
  unfold raiseIf; split <;> exact ⟨rfl, rfl, rfl⟩

/-- Sending a PTP message changes the messages sent only. -/
theorem ptpSend_spec (k : PtpKind) (x : PtpTx) (b : Block) : (ptpSend k x b).time.txSeq = b.time.txSeq ∧ (ptpSend k x b).time.sent = tset {} b.time.sent (ptpKindNo k) x ∧
  (ptpSend k x b).time.delayReq = b.time.delayReq ∧ (ptpSend k x b).time.pdelayReq = b.time.pdelayReq ∧
  ∀ q s d p, { ptpSend k x b with time := { (ptpSend k x b).time with txSeq := q, sent := s, delayReq := d, pdelayReq := p } } = { b with time := { b.time with txSeq := q, sent := s, delayReq := d, pdelayReq := p } } :=
  ⟨rfl, rfl, rfl, rfl, fun _ _ _ _ => rfl⟩

end Sys2Proof.Machine
end

