-- ==== Sys2Proof/Laws/Mailbox.lean ====
section
/-!
SUPPORT. The start and the end of a mailbox command (R633 to R642).
-/

namespace Sys2Proof.Machine

/-- What a mailbox command does once its request may run: it completes with its answer or waits. -/
theorem runOp_of_asked {s : State} {m code : Nat} (h : s.asked m code) (f : Nat → MbxReq → Block → OpRes × Block) :
    runOp code f m s.toBlock = (if (f m (s.request m) (s.runs m)).1.wait then (f m (s.request m) (s.runs m)).2
      else mbxDone m (f m (s.request m) (s.runs m)).1.status (f m (s.request m) (s.runs m)).1.detail (f m (s.request m) (s.runs m)).1.item
        (f m (s.request m) (s.runs m)).1.payload (f m (s.request m) (s.runs m)).2) := by
  obtain ⟨_, hm, h1, h2, h3, h4⟩ := h
  have hp : s.rst.phase = .up := by simp only [fwServes, Bool.and_eq_true, decide_eq_true_eq] at h3; exact h3.1.1
  have hr : romServes s.toBlock = false := by simp [romServes, hp]
  have hs : serves s.toBlock = true := by simp [serves, h3]
  have h2' : (mbx s.toBlock m).req.opcode = code := h2
  simp only [runOp, hm, h1, h2', hs, h4, hr, decide_true, Bool.and_self, Bool.false_and, Bool.false_eq_true, if_false, if_true]
  rfl

/-- A mailbox command whose operation answers completes with that answer. -/
theorem mail_completes {s : State} {m code : Nat} (i : Instr) (hw : i.wf = true) (h : s.asked m code) (f : Nat → MbxReq → Block → OpRes × Block)
    {st d it : Nat} {pl : List W8} {b : Block} (e : f m (s.request m) (s.runs m) = ({ status := st, detail := d, item := it, payload := pl }, b)) :
    act i (runOp code f m) s = completed s m st d it pl b := by
  rw [act_live i _ s h.1 hw, runOp_of_asked h, e]; rfl

/-- A mailbox command whose operation waits leaves the state the operation gives. -/
theorem mail_waits {s : State} {m code : Nat} (i : Instr) (hw : i.wf = true) (h : s.asked m code) (f : Nat → MbxReq → Block → OpRes × Block)
    {r : OpRes} {b : Block} (hr : r.wait = true) (e : f m (s.request m) (s.runs m) = (r, b)) :
    act i (runOp code f m) s = .next (ended s b) := by
  rw [act_live i _ s h.1 hw, runOp_of_asked h, e]; simp [hr]

/-- R635: a request of the length needed goes on. -/
theorem needLen_carried {n : Nat} {s : State} {m : Nat} (h : s.carries m n) (b : Block) (k : OpRes × Block) : needLen n (s.request m) b k = k := by
  simp [needLen, h.1, h.2]

/-- R635: a request of another length is refused. -/
theorem needLen_refused {n : Nat} {s : State} {m : Nat} (h : ¬ s.carries m n) (b : Block) (k : OpRes × Block) : needLen n (s.request m) b k = opErr 5 b := by
  simp only [needLen]; rw [if_neg h]

/-- R625: which channels touch host memory does not depend on the mailboxes. -/
theorem dmaTouchesHost_modMbx (m : Nat) (f : MbxSt → MbxSt) (b : Block) : dmaTouchesHost (modMbx m f b) = dmaTouchesHost b := by
  have hc : ∀ n a, chainHost (modMbx m f b) n a = chainHost b n a := by
    intro n
    induction n with
    | zero => intro a; rfl
    | succ n ih =>
      intro a
      have hr : readBytes (modMbx m f b) a 32 = readBytes b a 32 := rfl
      unfold chainHost
      rw [hr]; simp only [ih]
  funext c
  have hd : dma (modMbx m f b) c = dma b c := rfl
  have hf : fwOwned (modMbx m f b) c = fwOwned b c := rfl
  have hm : (modMbx m f b).mem = b.mem := rfl
  unfold dmaTouchesHost
  simp only [hd, hf, hm, hc]

end Sys2Proof.Machine
end

