-- ==== Sys2Proof/Laws/Safe.lean ====
section
/-!
SUPPORT. The Safe Pulse Block: what entering a state changes (R541 to R549).
-/

namespace Sys2Proof.Machine

/-- Driving the SO outputs sets them as the state asks and changes nothing else. -/
theorem driveSo_spec (b : Block) : (driveSo b).spb.soCmd = soOf b b.spb.st ∧ (driveSo b).spb.st = b.spb.st ∧
    { (driveSo b).spb with soCmd := b.spb.soCmd, soAt := b.spb.soAt } = b.spb ∧ { driveSo b with spb := b.spb } = b := ⟨rfl, rfl, rfl, rfl⟩

/-- R547: the BLOCK sets are launched now; the arms stay. -/
theorem spbBlockSets_spec (b : Block) : (spbBlockSets b).spb = { b.spb with lastBlock := b.now } ∧ (spbBlockSets b).par = b.par ∧
    (spbBlockSets b).model = b.model ∧ (spbBlockSets b).arms = b.arms := by
  unfold spbBlockSets
  exact ⟨kept_forEach Block.spb _ (fun p u => (blockPort_keeps p u).1) _ _, kept_forEach Block.par _ (fun p u => (blockPort_keeps p u).2.1) _ _,
    kept_forEach Block.model _ (fun p u => (blockPort_keeps p u).2.2.1) _ _, kept_forEach Block.arms _ (fun p u => (blockPort_keeps p u).2.2.2) _ _⟩

/-- The SO outputs asked for depend on the parameters and the inputs only. -/
theorem soOf_congr {b c : Block} (st : SpbState) (h1 : b.par = c.par) (h2 : b.spb.siDem = c.spb.siDem) (h3 : b.spb.siFault = c.spb.siFault) : soOf b st = soOf c st := by
  unfold soOf soEnabled siDemand siMask siEnabled parB parN parW
  rw [h1, h2, h3]

/-- The Safe Pulse Block with what entering a state may change set back. -/
def spbRest (x y : SpbSt) : SpbSt :=
  { x with st := y.st, soCmd := y.soCmd, soAt := y.soAt, demandCnt := y.demandCnt, reactLast := y.reactLast, reactMax := y.reactMax, lastBlock := y.lastBlock }

/-- Entering a state of the Safe Pulse Block (Table 15-4): the state, its outputs, the arms blocked and the demand count. -/
theorem spbEnter_spec (st : SpbState) (b : Block) : (spbEnter st b).spb.st = st ∧ (spbEnter st b).spb.soCmd = soOf b st ∧
    spbRest (spbEnter st b).spb b.spb = b.spb ∧
    (b.spb.st ≠ st → st ≠ .normal → ∀ a, a < 12 → armEnabled b a = true → (arm (spbEnter st b) a).sw = false) ∧
    (b.spb.st ≠ st → st = .demand ∨ st = .safe → (spbEnter st b).spb.demandCnt = satInc 16 b.spb.demandCnt) ∧
    (b.spb.st ≠ st → st ≠ .normal → (spbEnter st b).spb.lastBlock = b.now) := by
  unfold spbEnter
  extract_lets old t1 t2 r t3 t4
  by_cases h : old = st
  · rw [if_pos h]
    refine ⟨h, ?_, ?_, fun g => absurd h g, fun g => absurd h g, fun g => absurd h g⟩
    · show soOf b b.spb.st = _; rw [show b.spb.st = st from h]
    · rfl
  · rw [if_neg h]
    have h1 : t1.spb.st = st ∧ t1.spb.soCmd = soOf b st ∧ t1.par = b.par ∧ t1.model = b.model ∧ t1.arms = b.arms ∧
      t1.spb.demandCnt = b.spb.demandCnt ∧ t1.now = b.now ∧
      { t1.spb with st := b.spb.st, soCmd := b.spb.soCmd, soAt := b.spb.soAt } = b.spb := ⟨rfl, rfl, rfl, rfl, rfl, rfl, rfl, rfl⟩
    clear_value t1
    by_cases hn : st = .normal
    · rw [if_pos hn]
      refine ⟨h1.1, h1.2.1, ?_, fun _ g => absurd hn g, fun _ g => ?_, fun _ g => absurd hn g⟩
      · have := h1.2.2.2.2.2.2.2
        exact congrArg (fun x : SpbSt => { x with demandCnt := b.spb.demandCnt, reactLast := b.spb.reactLast, reactMax := b.spb.reactMax, lastBlock := b.spb.lastBlock }) this
      · rw [hn] at g; exact absurd g (by decide)
    · rw [if_neg hn]
      have h2 : t2.spb = t1.spb ∧ t2.par = t1.par ∧ t2.model = t1.model ∧ t2.arms = t1.arms ∧ t2.now = t1.now :=
        ⟨raiseIf_keeps Block.spb (fun _ _ => rfl) _ _ _, raiseIf_keeps Block.par (fun _ _ => rfl) _ _ _, raiseIf_keeps Block.model (fun _ _ => rfl) _ _ _,
         raiseIf_keeps Block.arms (fun _ _ => rfl) _ _ _, raiseIf_keeps Block.now (fun _ _ => rfl) _ _ _⟩
      clear_value t2
      have h3 : t3.spb.st = t1.spb.st ∧ t3.spb.soCmd = t1.spb.soCmd ∧ t3.par = t1.par ∧ t3.arms = t1.arms ∧ t3.now = t1.now ∧
          (st = .demand ∨ st = .safe → t3.spb.demandCnt = satInc 16 t1.spb.demandCnt) ∧
          { t3.spb with demandCnt := t1.spb.demandCnt, reactLast := t1.spb.reactLast, reactMax := t1.spb.reactMax } = t1.spb := by
        by_cases hd : st = .demand ∨ st = .safe
        · have e : t3 = useFree (modSpb (fun x => { x with demandCnt := satInc 16 x.demandCnt, reactLast := r, reactMax := max x.reactMax r }) t2) := if_pos hd
          rw [e]
          simp only [useFree, modSpb, h2]
          exact ⟨trivial, trivial, trivial, trivial, trivial, fun _ => trivial, trivial⟩
        · have e : t3 = t2 := if_neg hd
          rw [e, h2.1]
          exact ⟨rfl, rfl, h2.2.1, h2.2.2.2.1, h2.2.2.2.2, fun g => absurd g hd, rfl⟩
      clear_value t3
      have h4 : t4.spb = { t3.spb with lastBlock := t3.now } ∧ t4.par = t3.par ∧ t4.arms = t3.arms := by
        have := spbBlockSets_spec t3; exact ⟨this.1, this.2.1, this.2.2.2⟩
      clear_value t4
      have h5 := blockArms_spec ((enabledArms t4).filter fun a => switching t4 a || (arm t4 a).deblockWait.isSome) 2 t4
      refine ⟨?_, ?_, ?_, ?_, ?_, ?_⟩
      · rw [h5.1, h4.1]; exact h3.1.trans h1.1
      · rw [h5.1, h4.1]; exact h3.2.1.trans h1.2.1
      · rw [h5.1, h4.1]
        have a1 := h3.2.2.2.2.2.2
        have a2 := h1.2.2.2.2.2.2.2
        have b1 := congrArg (fun x : SpbSt => { x with st := b.spb.st, soCmd := b.spb.soCmd, soAt := b.spb.soAt, demandCnt := b.spb.demandCnt, reactLast := b.spb.reactLast, reactMax := b.spb.reactMax, lastBlock := b.spb.lastBlock }) a1
        have b2 := congrArg (fun x : SpbSt => { x with demandCnt := b.spb.demandCnt, reactLast := b.spb.reactLast, reactMax := b.spb.reactMax, lastBlock := b.spb.lastBlock }) a2
        exact b1.trans b2
      · intro _ _ a ha he
        have hm : t4.par = b.par := h4.2.1.trans (h3.2.2.1.trans h1.2.2.1)
        have he4 : armEnabled t4 a = true := by unfold armEnabled parB parN parW at he ⊢; rw [hm]; exact he
        by_cases hs : (arm t4 a).sw = true
        · refine h5.2.2.2.1 a ?_ he4
          rw [List.mem_filter]
          refine ⟨?_, ?_⟩
          · unfold enabledArms; rw [List.mem_filter]; exact ⟨by simp [ha], he4⟩
          · unfold switching; rw [hs]; rfl
        · exact h5.2.2.2.2 a (by simpa using hs)
      · intro _ g
        rw [h5.1, h4.1]
        exact (h3.2.2.2.2.2.1 g).trans (by rw [h1.2.2.2.2.2.1])
      · intro _ _
        rw [h5.1, h4.1]
        exact h3.2.2.2.2.1.trans h1.2.2.2.2.2.2.1

end Sys2Proof.Machine
end

