-- ==== Sys2Proof/Laws/Signals.lean ====
section
/-!
SUPPORT. What writing graph signals does: the four bytes of each, and nothing else but the note of this fabric cycle's old
values.
-/

namespace Sys2Proof.Machine

/-- Little-endian bytes read back as the number they were written from. -/
theorem le_leBytes (n w : Nat) : le n (leBytes n w) = w % 256 ^ n := by
  induction n generalizing w with
  | zero => simp [le, leBytes, Nat.mod_one]
  | succ n ih =>
    show (BitVec.ofNat 8 w).toNat + 256 * le n (leBytes n (w / 256)) = _
    have e : w % 256 ^ (n + 1) = w % 256 + 256 * (w / 256 % 256 ^ n) := by rw [Nat.pow_succ', Nat.mod_mul]
    rw [ih, BitVec.toNat_ofNat, e]

theorem memReadBytes_outside (l : List W8) (m : List Host.Cell) (a b n : Nat) (h : b + n ≤ a ∨ a + l.length ≤ b) :
    memReadBytes (memWriteBytes m a l) b n = memReadBytes m b n := by
  induction n generalizing b with
  | zero => rfl
  | succ n ih =>
    show memRead (memWriteBytes m a l) b :: memReadBytes (memWriteBytes m a l) (b + 1) n = memRead m b :: memReadBytes m (b + 1) n
    rw [ih (b + 1) (by omega), memRead_memWriteBytes_out _ _ _ _ (by omega)]

theorem memReadBytes_written (l : List W8) (m : List Host.Cell) (a : Nat) : memReadBytes (memWriteBytes m a l) a l.length = l := by
  induction l generalizing m a with
  | nil => rfl
  | cons x t ih =>
    show memRead (memWriteBytes (memWrite m a x) (a + 1) t) a :: memReadBytes (memWriteBytes (memWrite m a x) (a + 1) t) (a + 1) t.length = x :: t
    rw [ih]
    have h := memRead_memWriteBytes_in (x :: t) m a 0 (by simp)
    simp only [Nat.add_zero, List.getElem_cons_zero] at h
    exact congrArg (· :: t) h

/-- A signal written reads as the value. -/
theorem sigRead_written (n : Nat) (v : W32) (s : Block) : sigRead (sigWrite n v s) n = v := by
  unfold sigRead sigWrite readBytes writeBytes
  have h := memReadBytes_written (leBytes 4 v.toNat) s.mem (sigAddr n)
  rw [leBytes_length] at h
  show BitVec.ofNat 32 (le 4 (memReadBytes (memWriteBytes s.mem (sigAddr n) (leBytes 4 v.toNat)) (sigAddr n) 4)) = v
  rw [h, le_leBytes]
  apply BitVec.eq_of_toNat_eq
  rw [BitVec.toNat_ofNat]
  have := v.isLt
  omega

/-- Another signal keeps its value. -/
theorem sigRead_other {n m : Nat} (v : W32) (s : Block) (h : m ≠ n) : sigRead (sigWrite n v s) m = sigRead s m := by
  unfold sigRead sigWrite readBytes writeBytes
  show BitVec.ofNat 32 (le 4 (memReadBytes (memWriteBytes s.mem (sigAddr n) (leBytes 4 v.toNat)) (sigAddr m) 4)) = _
  rw [memReadBytes_outside _ _ _ _ _ (by rw [leBytes_length]; unfold sigAddr; omega)]

/-- What a block end writes to a signal (R325, R328). -/
theorem sigPut_spec (t n : Nat) (v : W32) (s : Block) : sigRead (sigPut t n v s) n = sigNorm s n v ∧
    (∀ m, m ≠ n → sigRead (sigPut t n v s) m = sigRead s m) ∧ (∀ m x, sigNorm (sigPut t n v s) m x = sigNorm s m x) ∧
    (∀ a, (a < sigAddr n ∨ sigAddr n + 4 ≤ a) → memRead (sigPut t n v s).mem a = memRead s.mem a) ∧
    ∀ x y z, { sigPut t n v s with mem := x, graph := { (sigPut t n v s).graph with sigAt := y, sigOld := z } } = { s with mem := x, graph := { s.graph with sigAt := y, sigOld := z } } := by
  refine ⟨sigRead_written _ _ _, fun m h => (sigRead_other _ _ h).trans rfl, fun _ _ => rfl, fun a h => ?_, fun _ _ _ => rfl⟩
  show memRead (memWriteBytes s.mem (sigAddr n) (leBytes 4 (sigNorm s n v).toNat)) a = _
  exact memRead_memWriteBytes_out _ _ _ _ (by rw [leBytes_length]; omega)

/-- Writing signals in a row, each with a value: every one reads as its value, no other byte of memory changes. -/
theorem writePins_row (t : Nat) (f : Nat → W32) (sig k n : Nat) (s : Block) (h : sig + k + n ≤ 0xFFFF) (l : List (Nat × Option W32))
    (hl : l = (List.range' k n).map fun i => (sig + i, some (f i))) :
    (∀ i, k ≤ i → i < k + n → sigRead (writePins t l s) (sig + i) = sigNorm s (sig + i) (f i)) ∧
    (∀ m, (m < sig + k ∨ sig + k + n ≤ m) → sigRead (writePins t l s) m = sigRead s m) ∧ (∀ m x, sigNorm (writePins t l s) m x = sigNorm s m x) ∧
    (∀ a, (a < sigAddr (sig + k) ∨ sigAddr (sig + k + n) ≤ a) → memRead (writePins t l s).mem a = memRead s.mem a) ∧
    ∀ x y z, { writePins t l s with mem := x, graph := { (writePins t l s).graph with sigAt := y, sigOld := z } } = { s with mem := x, graph := { s.graph with sigAt := y, sigOld := z } } := by
  induction n generalizing k s l with
  | zero =>
    have : l = [] := by rw [hl]; rfl
    subst this
    exact ⟨fun i h1 h2 => by omega, fun _ _ => rfl, fun _ _ => rfl, fun _ _ => rfl, fun _ _ _ => rfl⟩
  | succ n ih =>
    have hl' : l = (sig + k, some (f k)) :: (List.range' (k + 1) n).map fun i => (sig + i, some (f i)) := by rw [hl]; rfl
    have e : writePins t l s = writePins t ((List.range' (k + 1) n).map fun i => (sig + i, some (f i))) (sigPut t (sig + k) (f k) s) := by
      rw [hl']
      show writePins t _ (if sig + k = 0xFFFF then s else sigPut t (sig + k) (f k) s) = _
      rw [if_neg (by omega)]
    obtain ⟨p1, p2, p3, p4, p5⟩ := sigPut_spec t (sig + k) (f k) s
    obtain ⟨i1, i2, i3, i4, i5⟩ := ih (k + 1) (sigPut t (sig + k) (f k) s) (by omega) _ rfl
    rw [e]
    refine ⟨fun i h1 h2 => ?_, fun m hm => ?_, fun m x => (i3 m x).trans (p3 m x), fun a ha => ?_, fun x y z => (i5 x y z).trans (p5 x y z)⟩
    · rcases Nat.eq_or_lt_of_le h1 with g | g
      · subst g; rw [i2 _ (.inl (by omega)), p1]
      · rw [i1 i (by omega) (by omega), p3]
    · rw [i2 m (by omega), p2 m (by omega)]
    · rw [i4 a (by unfold sigAddr at *; omega), p4 a (by unfold sigAddr at *; omega)]

end Sys2Proof.Machine
end

