-- ==== Sys2Proof/Machine/Package.lean ====
section
/-!
DEFINITION. The ball map of the package (R772 to R777): what each of the 2,704 balls carries. No command acts on it.
-/

namespace Sys2Proof.Machine

/-- The supplies and grounds of Table 21-2. -/
inductive Rail where
  | gnd | agnd | vddCore | vddSram | vddSds | vddPll | vddIo18 | vddIo33 | vana
deriving DecidableEq, Repr

/-- What a ball carries. `neg` names the N ball of a pair; `list` is a signal of Table 21-11 with its number. -/
inductive Ball where
  | rail (r : Rail)
  | cellTx (port : Nat) (neg : Bool)
  | cellRx (port : Nat) (neg : Bool)
  | txdis (port : Nat)
  | twinTx (lane : Nat) (neg : Bool)
  | twinRx (lane : Nat) (neg : Bool)
  | rbias (k : Nat)
  | list (name : String) (k : Nat)
deriving DecidableEq, Repr

/-- Regions P0 and P1: group g has its rectangle from row r0 on, in the lower or upper half of the columns (R773). -/
def portBall (g r0 row col : Nat) : Ball :=
  let c := (col - 11) % 16
  let p := 16 * g + 8 * ((row - r0) / 3) + c / 2
  match (row - r0) % 3 with
  | 0 => .cellTx p (c % 2 = 1)
  | 1 => .rail .gnd
  | _ => .cellRx p (c % 2 = 1)

/-- Names numbered from 0 to n - 1. -/
def numbered (name : String) (n : Nat) : List Ball := (List.range n).map (.list name)
/-- Pairs numbered from 0 to n - 1, P before N. -/
def pairs (p q : String) (n : Nat) : List Ball := (List.range n).flatMap fun k => [.list p k, .list q k]

/-- The signals of regions SE, W and E in their listing order (Table 21-11), each followed by its fill list (Table 21-10). -/
def listSE : List Ball :=
  pairs "PCIE_TXP" "PCIE_TXN" 4 ++ pairs "PCIE_RXP" "PCIE_RXN" 4 ++ pairs "PCIE_REFCLKP" "PCIE_REFCLKN" 1 ++
    (List.range 2).flatMap (fun e => [.list "ETH_TXP" e, .list "ETH_TXN" e, .list "ETH_RXP" e, .list "ETH_RXN" e]) ++
    pairs "ETH_REFCLKP" "ETH_REFCLKN" 1 ++ numbered "PCIE_PERST_N" 1 ++ List.replicate 24 (.rail .vddSds)
def listW : List Ball :=
  pairs "AINP" "AINN" 48 ++ (List.range 16).map (fun k => .list "AIN" (48 + k)) ++ numbered "REFIN" 1 ++ numbered "CREF" 4 ++
    List.replicate 32 (.rail .vana)
def listE : List Ball :=
  numbered "TRIP" 16 ++ pairs "SIA" "SIB" 8 ++ numbered "SPT" 2 ++ numbered "FB" 8 ++ numbered "SO" 4 ++ numbered "SC" 16 ++
    numbered "CMD" 8 ++ ["PORST_N", "RST_N", "RESET_OUT_N", "TWIN_ID"].map (.list · 0) ++ numbered "BOOT_STRAP" 8 ++
    ["TCK", "TMS", "TDI", "TDO", "TRST_N", "FL_CS_N", "FL_SCLK", "FL_DQS"].map (.list · 0) ++ numbered "FL_DQ" 8 ++
    numbered "VID" 5 ++ ["PMB_SCL", "PMB_SDA", "PMB_ALERT_N", "REFCLK"].map (.list · 0) ++
    List.replicate 24 (.rail .vddIo33) ++ List.replicate 24 (.rail .vddIo18) ++ List.replicate 8 (.rail .vddPll)

/-- A region filled in reading order over its free columns; its other balls, and those past the list, are a ground (R776). -/
def listBall (l : List Ball) (free : List Nat) (ground : Rail) (r0 row col : Nat) : Ball :=
  match free.idxOf? col with
  | some i => (l[(row - r0) * free.length + i]?).getD (.rail ground)
  | none => .rail ground

/-- The corner regions NW and SW: TXDIS of 64 ports from row r1 on, RBIAS at its row, VDD_SDS and ground (R774). -/
def txdisBall (first r1 rbiasRow k row col : Nat) : Ball :=
  if 9 ≤ col then .rail .vddSds
  else if r1 ≤ row ∧ row < r1 + 8 then .txdis (first + 8 * (row - r1) + (col - 1))
  else if row = rbiasRow ∧ col = 1 then .rbias k
  else .rail .gnd

/-- Region NE: the twin lanes (R775). -/
def twinBall (row col : Nat) : Ball :=
  if col ≤ 44 then .rail .gnd
  else if row = 12 ∧ col = 52 then .rbias 2
  else if row ≤ 8 then
    let l := 4 * ((row - 1) / 2) + (col - 45) / 2
    let neg := decide ((col - 45) % 2 = 1)
    if row % 2 = 1 then .twinTx l neg else .twinRx l neg
  else .rail .vddSds

/-- The core region (R777). -/
def coreBall (row col : Nat) : Ball :=
  if (row + col) % 2 = 0 then .rail .gnd
  else if row ≤ 14 ∨ 39 ≤ row then .rail .vddSds
  else if col ≤ 14 ∨ 39 ≤ col then .rail .vddSram
  else .rail .vddCore

/-- The ball at a row and column, both 1 to 52 (Table 21-10). -/
def ballAt (row col : Nat) : Option Ball :=
  if row = 0 ∨ 52 < row ∨ col = 0 ∨ 52 < col then none
  else
    let odd := if 27 ≤ col then 1 else 0
    some (
      if col ≤ 10 then
        if row ≤ 12 then txdisBall 0 1 12 0 row col
        else if row ≤ 40 then listBall listW [2, 3, 5, 6, 8, 9] .agnd 13 row col
        else txdisBall 64 45 41 1 row col
      else if col ≤ 42 then
        if row ≤ 6 then portBall odd 1 row col
        else if row ≤ 12 then portBall (2 + odd) 7 row col
        else if row ≤ 40 then coreBall row col
        else if row ≤ 46 then portBall (6 + odd) 41 row col
        else portBall (4 + odd) 47 row col
      else if row ≤ 12 then twinBall row col
      else if row ≤ 40 then listBall listE [44, 45, 46, 47, 48, 49, 50, 51] .gnd 13 row col
      else listBall listSE [44, 45, 47, 48, 50, 51] .gnd 41 row col)

end Sys2Proof.Machine
end

