-- ==== Sys2Proof/Tests/Slice0.lean ====
section
/-!
SUPPORT. Small tests of single commands, and for every statement with hypotheses a state that meets them.
-/

namespace Sys2Proof.Machine

/-- A unit that has started: role SOLO, firmware ready. -/
def up : State := { State.reset with rst := { phase := .up }, tw := { role := .solo }, host := { fwReady := true } }

/-- `up` with an accepted request in mailbox 7. -/
def asking (r : MbxReq) : State := { up with host := { fwReady := true, mbx := [(7, { mstate := 1, req := r })] } }

/-- No mailbox goes before mailbox 7 in `asking` (R637). -/
theorem asking_turn (r : MbxReq) : mbxTurn (asking r).toBlock 7 = true := by
  simp [mbxTurn, asking, up, startsBefore, mbx, tget, upto, List.range, List.range.loop]

/-! ### The check values of Table 4-5 and the worked examples of chapters 5 and 8 -/

/-- ASCII "123456789". -/
def digits : List W8 := [0x31, 0x32, 0x33, 0x34, 0x35, 0x36, 0x37, 0x38, 0x39]

set_option maxRecDepth 20000 in
theorem test_crc8 : crc8 digits = 0xD0 := by decide
set_option maxRecDepth 20000 in
theorem test_crc16 : crc16 0 digits = 0x6F91 := by decide
set_option maxRecDepth 20000 in
theorem test_crc32c : crc32c digits = 0xE3069283 := by decide

/-- Table 5-1: cells 3.10 and 7.22 under a ceiling of 2,600 V. -/
theorem test_vterm : vterm 33304 41600 = 3357862 ∧ vterm 33120 41600 = 3339311 := by decide

/-- The parameters of the selection worked through in chapter 5. -/
def selection : Block :=
  { up.toBlock with par := { val := [(0x2040, 0x3F800000#32), (0x2060, 0x42A00000#32), (0x2070, 0x3F800000#32)] } }

theorem test_hold_band : holdBand selection 0 = 41943 := by decide
theorem test_wear_penalty : penalty selection 0 (70 * 16) 32768 false false = 20972 := by decide

/-! ### Single steps -/

/-- R671 and the reset values of the registers: the instant PORST_N is released. -/
theorem test_reset : State.reset.now = 0 ∧ State.reset.rst.cause = 1 ∧ State.reset.seq.state = .await ∧ State.reset.pending = [] := by decide

set_option maxRecDepth 50000 in
/-- An empty queue lets one tick of 2 ns pass. -/
theorem test_idle_ticks : (match step up with | .next t => t.now | _ => 0) = 8 := by decide

set_option maxRecDepth 50000 in
/-- The first of two waiting commands runs, the second waits. -/
theorem test_front_runs : (match step { up with pending := [.readback 3 7, .recTap 2 5] } with
    | .next t => (tget 0#32 t.host.readback 3, tget 0#32 t.graph.taps 2, t.pending.length) | _ => (0, 0, 0)) = (7, 0, 1) := by decide

/-- An ill-formed command changes nothing. -/
theorem test_ill_formed_step : step { up with pending := [.recTap 64 5] } = .next up := rfl

/-! ### A term that each check of WellFormed refuses -/

theorem test_ill_formed_0 : ([
    .reportFrame 128 [], .reportDeadline 12, .reportCrcErrorLimit 6144, .rankDone 12,
    .blockExecute 16 0, .blockExecute 0 4, .blockSourceWaitEnd 16, .armInsert 12 0 0,
    .armInsert 0 2 0, .pscSink 12 none none, .pscCommit 12, .carrierBoundary 12 none,
    .pairOrphan 12, .frameLaunch 128, .keepAlive 12, .govCall 8 0,
    .govCall 0 3, .govInjDone 8, .rpcCall 16 0 false false, .rampPost 32 0 0 0,
    .rampPost 0 16 0 0, .ftDroop 4 0] : List Instr).all (fun i => !i.wf) = true := by decide
theorem test_ill_formed_1 : ([
    .eventPost 159, .eventPost 224, .recTap 64 0, .readback 256 0,
    .queueTake 64 0, .queueTake 0 16375, .queuePostBlock 64 0 (List.replicate 8 0), .queuePostBlock 0 16 (List.replicate 8 0),
    .queuePostBlock 0 0 [], .queuePostWaitEnd 64, .taskCancel 256, .taskRearm 256,
    .taskRearmClear 256, .hwSourceRetry 64, .dmaDescriptorFetch 32 0 (List.replicate 32 0), .dmaDescriptorFetch 0 3 (List.replicate 32 0),
    .dmaDescriptorFetch 0 0 [], .dmaGranuleRead 32 0 (List.replicate 32 0), .dmaGranuleRead 0 3 (List.replicate 32 0), .dmaGranuleRead 0 0 [],
    .train 128 0, .train 0 64] : List Instr).all (fun i => !i.wf) = true := by decide
theorem test_ill_formed_2 : ([
    .seekSettle 128, .upstreamLock 128, .upstreamLockLost 128 0, .ringBreak 128,
    .linkLoss 128, .segmentAbsent 6144, .reportEndShort 128, .echo 128 0 0,
    .echo 0 48 0, .timeMark 128, .discoverLimit 128, .bypassUnconf 6144,
    .retUnconf 6144, .memUncorr 9, .tripAssert 16, .tripRelease 16,
    .blankingEnd 32, .ftStreamStep 4, .ftLock 4, .gearArm 4,
    .gearCancel 4, .rampMove 32 0 0] : List Instr).all (fun i => !i.wf) = true := by decide
theorem test_ill_formed_3 : ([
    .rampStop 32, .rampFlush 32, .rampSet 32 0, .injStart 8,
    .injAbort 8, .adcConversion 4 0 0, .adcStreamSample 64 0, .adcStreamSample 0 128,
    .injGroupStart 4, .injGo 4, .refReady 4, .adcRefFault 4,
    .vanaBad 4, .spareSliceRotation 4 0, .spareSliceRotation 0 65536, .calStart 4,
    .calAbort 4, .calStateEnd 4 false, .cmpInputCross 16 0, .cmpLevel1 16,
    .bufferRelease 8, .deblockArm 16] : List Instr).all (fun i => !i.wf) = true := by decide
theorem test_ill_formed_4 : ([
    .blockArm 16, .contactDebounce 16, .contactUnsettled 16, .siChange 8 false false,
    .discrepancy 8, .soReadback 4 false, .feedback 8, .twinLaneLoss 16,
    .dTw 131072, .relayLaunch 128, .setpointWrite 64 0, .registerWrite 5 0 [],
    .evtPendClear 8 0, .mbxRing 8, .mbxAbort 8, .mbxRelease 8,
    .nop 8, .identify 8, .paramRead 8, .paramWrite 8,
    .paramInfo 8, .paramFind 8] : List Instr).all (fun i => !i.wf) = true := by decide
theorem test_ill_formed_5 : ([
    .cfgOpen 8, .cfgCommit 8, .cfgClose 8, .cfgLoad 8,
    .cfgInfo 8, .cfgRead 8, .cellState 8, .cellStatus 8,
    .cellRecordRead 8, .cellRecordWrite 8, .cellService 8, .portDark 8,
    .ringRejoin 8, .taskCtrl 8, .dmaStart 8, .dmaAbort 8,
    .dmaStatus 8, .queueStatus 8, .queuePost 8, .spbAck 8,
    .spbLogRead 8, .relinquish 8] : List Instr).all (fun i => !i.wf) = true := by decide
theorem test_ill_formed_6 : ([
    .logRead 8, .selfTest 8, .fwUpdate 8 false 0, .udpRequest 2 0 [],
    .mpLoad 1001, .announceTimeout 2, .ethLinkLoss 2, .pwrWake 6,
    .twinLaneLock 16, .fbChange 8 false, .scRawChange 16 false, .evtEnWrite false 64 0,
    .vectorUnmask 64, .windowStart 12, .blankingStart 12, .vanaReturn 4] : List Instr).all (fun i => !i.wf) = true := by decide

/-- The worked example after R777: port 37, AIN05 and SO0. -/
theorem test_ball_map : [ballAt 7 21, ballAt 7 22, ballAt 8 21, ballAt 9 22, ballAt 5 6, ballAt 14 8, ballAt 14 9, ballAt 18 46] =
    [some (.cellTx 37 false), some (.cellTx 37 true), some (.rail .gnd), some (.cellRx 37 true), some (.txdis 37),
      some (.list "AINP" 5), some (.list "AINN" 5), some (.list "SO" 0)] := by decide

/-! ### Witnesses: Every command and every step -/

theorem wit_empty_queue_idles_low : ({ up with rst := { porstLow := true } } : State).pending = [] ∧
    ({ up with rst := { porstLow := true } } : State).rst.porstLow = true := by decide
theorem wit_empty_queue_idles_high : up.pending = [] ∧ up.live := ⟨rfl, rfl⟩

theorem wit_exec_keeps_queue : exec .adcReady up = .next (ended up (adcReadyStep up.toBlock)) := rfl

theorem wit_reset_pins_hold_the_block : inReset ({ up with rst := { rstLow := true } } : State).toBlock = true := by decide

theorem wit_ill_formed : (Instr.train 128 3).wf = false := by decide

theorem wit_events_settled : up.toBlock.eventsSettled = true := by decide

theorem wit_memory_read_after_write : memWf ([(3, 5#8), (7, 1#8)] : List Host.Cell) = true := by decide

/-! ### Witnesses: The PCI Express function, register accesses, events and doorbells -/

theorem wit_live : up.live := rfl

theorem wit_function_resets : up.live ∧ (mbx ({ up with host := { fwReady := true, mbx := [(0, { mstate := 1 }), (1, { mstate := 2 })] } } : State).toBlock 1).mstate = 2 := by decide
theorem wit_function_resets_dma : dmaTouchesHost ({ up with dam := { dma := [(31, { st := .running, src := 0x800000000000 })] } } : State).toBlock 31 = true := by rfl

theorem wit_setpoint_active : up.live ∧ (63 : Nat) < 64 ∧ up.tw.role = .solo := by decide
theorem wit_setpoint_standby : ({ up with tw := { role := .standby } } : State).tw.role ≠ .solo ∧
    ({ up with tw := { role := .standby } } : State).tw.role ≠ .active := by decide

theorem wit_event_registers : up.live ∧ (7 : Nat) < 8 ∧ (63 : Nat) < 64 := by decide

theorem wit_doorbell (k : Nat) : (mbx ({ up with host := { fwReady := true, mbx := [(7, { mstate := k, wrIgn := 1 })] } } : State).toBlock 7).mstate = k ∧
    (mbx ({ up with host := { fwReady := true, mbx := [(7, { mstate := k, wrIgn := 1 })] } } : State).toBlock 7).discard = false ∧
    (mbx ({ up with host := { fwReady := true, mbx := [(7, { mstate := k, wrIgn := 1 })] } } : State).toBlock 7).cls = 0 := ⟨rfl, rfl, rfl⟩

theorem wit_register_writes : (Instr.registerWrite 0 0xFFC ([1#8, 0#8, 0#8, 0#8] : List W8)).wf = true ∧
    (Instr.stagingWrite 0x7FFFFF ([1#8] : List W8)).wf = true := by decide
theorem wit_register_writes_session : ({ up with host := { session := true } } : State).host.committing = false := rfl
theorem wit_register_writes_time : up.time.state ≠ .uncalibrated ∧ up.time.state ≠ .slave ∧
    ({ up with time := { state := .slave } } : State).time.state = .slave := by decide
theorem wit_set_go_rate : (∀ r fc, up.time.rateWas = some (r, fc) → fabric fc ≠ fabric up.now) ∧
    ({ up with time := { rateWas := some (0, 7) } } : State).time.rateWas = some (0, 7) ∧
    fabric 7 = fabric ({ up with time := { rateWas := some (0, 7) } } : State).now := ⟨nofun, rfl, rfl⟩

/-! ### Witnesses: Reset, boot and start-up -/

theorem wit_warm_reset_killed : ({ up with spb := { st := .killed } } : State).live ∧ ({ up with spb := { st := .killed } } : State).spb.st = .killed := by decide
theorem wit_warm_reset_pins : ({ up with rst := { porstLow := true } } : State).rst.rstLow = false ∧ ({ up with rst := { rstLow := true } } : State).rst.rstLow = true := by decide

theorem wit_release : ({ up with rst := { porstLow := true } } : State).rst.porstLow = true ∧ up.rst.porstLow = false ∧
    ({ up with rst := { rstLow := true } } : State).rst.rstLow = true ∧ up.rst.rstLow = false := by decide

theorem wit_rom_boot : State.reset.live ∧ State.reset.rst.phase = .waiting ∧ State.reset.rst.retried = false ∧ up.rst.phase ≠ .waiting := by decide
theorem wit_rom_boot_debug : bitAt (strapsOf ({ State.reset with host := { straps := 32 } } : State).toBlock) 5 = true := by decide

theorem wit_start_up : ({ up with rst := { phase := .starting, retried := true } } : State).rst.retried = true ∧
    ({ up with rst := { phase := .starting } } : State).rst.retried = false := by decide
theorem wit_autoload_empty : up.rst.phase = .up ∧ up.seq.state = .await ∧ bitAt (strapsOf up.toBlock) 3 = false ∧
    up.host.committing = false ∧ (slotOf up.toBlock 0).set = none ∧ (slotOf up.toBlock 1).set = none := by decide
theorem wit_debug : ({ up with rst := { challenge := some 0 } } : State).rst.challenge.isSome = true ∧ up.rst.challenge = none := by decide

/-! ### Witnesses: Mailbox commands and the UDP transport -/

theorem wit_mailbox_completes (k : Nat) (d : Bool) : (mbx ({ up with host := { mbx := [(3, { mstate := k, discard := d })] } } : State).toBlock 3).mstate = k ∧
    (mbx ({ up with host := { mbx := [(3, { mstate := k, discard := d })] } } : State).toBlock 3).discard = d := ⟨rfl, rfl⟩
theorem wit_mailbox_aborted : abortDue (mbx ({ up with now := 8, host := { mbx := [(3, { mstate := 2, abortAt := some 0 })] } } : State).toBlock 3).abortAt 8 = true ∧
    abortDue (mbx up.toBlock 3).abortAt 8 = false := by decide

theorem wit_only_accepted : up.live ∧ (mbx up.toBlock 7).mstate ≠ 1 ∧
    ({ up with rst := { phase := .failed }, host := { mbx := [(7, { mstate := 1, req := { opcode := 1 } })] } } : State).live ∧
    (({ up with rst := { phase := .failed }, host := { mbx := [(7, { mstate := 1, req := { opcode := 1 } })] } } : State).request 7).opcode = 1 := by decide

theorem wit_reads (code : Nat) : (asking { opcode := code }).asked 7 code ∧ (asking { opcode := code }).carries 7 0 ∧
    ¬ (asking { opcode := code, len := 1 }).carries 7 0 := ⟨⟨rfl, by decide, rfl, rfl, rfl, asking_turn _⟩, ⟨rfl, rfl⟩, fun h => absurd h.1 (by decide : ¬ (1 : Nat) = 0)⟩
theorem wit_param_read : (asking { opcode := 0x10, arg0 := 1, len := 4, payload := [0x10, 0, 0, 0] }).asked 7 0x10 ∧
    (asking { opcode := 0x10, arg0 := 1, len := 4, payload := [0x10, 0, 0, 0] }).carries 7 (pad4 2) ∧
    (paramRow (leAt ([0x10, 0, 0, 0] : List W8) 0 2)).isSome = true := by decide
theorem wit_param_find : (asking { opcode := 0x13, len := 4, payload := [0x61, 0, 0, 0] }).asked 7 0x13 ∧
    0#8 ∈ ((asking { opcode := 0x13, len := 4, payload := [0x61, 0, 0, 0] }).request 7).payload := by decide

/-! ### Witnesses: Mailbox commands that act -/

theorem wit_param_write : (asking { opcode := 0x11, arg0 := 1, len := 8, payload := [0x31, 0x10, 4, 0, 8, 2, 0, 0] }).asked 7 0x11 ∧
    itemsOf ((asking { opcode := 0x11, arg0 := 1, len := 8, payload := [0x31, 0x10, 4, 0, 8, 2, 0, 0] }).request 7).payload =
      ([{ idx := 0x1031, len := 4, val := [8, 2, 0, 0] }], none) := by decide
theorem wit_param_write_ok : firstBad ((asking { opcode := 0x11, arg0 := 1, len := 8, payload := [0x31, 0x10, 4, 0, 8, 2, 0, 0] }).runs 7)
      [{ idx := 0x1031, len := 4, val := [8, 2, 0, 0] }] = none := by decide
theorem wit_param_write_scalar : isScalar 0x1031 = true ∧ (paramRow 0x1031).isSome = true := by decide

/-- `asking` in a unit whose arm 0 has a cell 0 in this state. -/
def askingCell (r : MbxReq) (c : CState) (sw : Bool) : State :=
  { asking r with cells := [(0, { st := c })], arms := [(0, { sw := sw })] }
theorem wit_cell_state : (askingCell { opcode := 0x30, arg1 := 1 } .available false).asked 7 0x30 ∧
    (askingCell { opcode := 0x30, arg1 := 1 } .available false).carries 7 0 ∧
    (cell (askingCell { opcode := 0x30, arg1 := 1 } .available false).toBlock 0).st ≠ .none ∧ stateOfCode 1 = some .reserve ∧
    switching (askingCell { opcode := 0x30, arg1 := 1 } .available false).toBlock 0 = false := by decide
theorem wit_cell_state_refused : (askingCell { opcode := 0x30, arg1 := 0 } .faulted true).asked 7 0x30 ∧
    switching (askingCell { opcode := 0x30, arg1 := 0 } .faulted true).toBlock (cellArm (askingCell { opcode := 0x30, arg1 := 0 } .faulted true).toBlock 0) = true := by decide
/-- A block with one self-ring on ports 0 and 1 in arm 0. -/
def ringUp (r : MbxReq) (x : PortSt) (sw : Bool) : State :=
  { asking r with model := { ports := [(0, 3), (1, 7)] }, ports := [(0, x)], arms := [(0, { sw := sw })] }
theorem wit_port_dark : (ringUp { opcode := 0x35, arg1 := 1 } {} false).asked 7 0x35 ∧ portUsed (ringUp { opcode := 0x35, arg1 := 1 } {} false).toBlock 0 = true ∧
    switching (ringUp { opcode := 0x35, arg1 := 1 } {} false).toBlock (strArm (ringUp { opcode := 0x35, arg1 := 1 } {} false).toBlock 0) = false ∧
    switching (ringUp { opcode := 0x35, arg1 := 1 } {} true).toBlock (strArm (ringUp { opcode := 0x35, arg1 := 1 } {} true).toBlock 0) = true := by decide
theorem wit_ring_rejoin : (ringUp { opcode := 0x36 } { brk := true } false).asked 7 0x36 ∧
    portRing (ringUp { opcode := 0x36 } { brk := true } false).toBlock 0 = true ∧ (port (ringUp { opcode := 0x36 } { brk := true } false).toBlock 0).brk = true := by decide

/-- `asking` with one parameter and one channel. -/
def askingUnit (r : MbxReq) (i : Nat) (v : W32) (d : DmaState) : State :=
  { asking r with par := { val := [(i, v)] }, dam := { dma := [(0, { st := d })] } }
theorem wit_dma : fwOwned (askingUnit { opcode := 0x41, len := 8, payload := [0, 0, 0, 0, 0, 0, 0, 0] } 0x6300 0xFFFF#32 .running).toBlock 0 = true ∧
    (askingUnit { opcode := 0x41, len := 8, payload := [0, 0, 0, 0, 0, 0, 0, 0] } 0x6300 0xFFFF#32 .running).asked 7 0x41 ∧
    (askingUnit { opcode := 0x41, len := 8, payload := [0, 0, 0, 0, 0, 0, 0, 0] } 0x6300 0xFFFF#32 .running).carries 7 8 ∧
    (dma (askingUnit { opcode := 0x41 } 0x6300 0xFFFF#32 .running).toBlock 0).st = .running ∧
    (dma (askingUnit { opcode := 0x41 } 0x6300 0xFFFF#32 .idle).toBlock 0).st = .idle := by decide
theorem wit_queue_post : qSrc (askingUnit { opcode := 0x45 } 0x6080 3#32 .idle).toBlock 0 = 3 ∧
    qSrc (askingUnit { opcode := 0x45 } 0x6080 0#32 .idle).toBlock 0 ≠ 3 ∧ (asking { opcode := 0x45 }).asked 7 0x45 := by decide
theorem wit_task_ctrl : 0 < imgTasks ({ asking { opcode := 0x40, arg1 := 1 } with graph := { image := leBytes 16 0 ++ leBytes 4 1 } } : State).toBlock ∧
    ({ asking { opcode := 0x40, arg1 := 1 } with graph := { image := leBytes 16 0 ++ leBytes 4 1 } } : State).asked 7 0x40 := by decide

/-- `asking` with an open session of mailbox 7. -/
def inSession (r : MbxReq) : State :=
  { up with host := { fwReady := true, mbx := [(7, { mstate := 1, req := r })], session := true, sessionMbx := 7, setInForce := some {}, slots := [(0, { set := some {} })] } }
theorem wit_session (code : Nat) : (inSession { opcode := code }).asked 7 code ∧ (inSession { opcode := code }).carries 7 0 ∧
    (inSession { opcode := code }).host.session = true ∧ (inSession { opcode := code }).host.sessionMbx = 7 ∧
    (slotOf (inSession { opcode := code }).toBlock 0).set = some {} := ⟨⟨rfl, by decide, rfl, rfl, rfl,
    by simp [mbxTurn, inSession, up, startsBefore, mbx, tget, upto, List.range, List.range.loop]⟩, ⟨rfl, rfl⟩, rfl, rfl, rfl⟩
theorem wit_cfg_store : ({ up with now := 8, host := { storing := some ⟨0, 0, 0, true⟩, setInForce := some {} } } : State).host.storing = some ⟨0, 0, 0, true⟩ ∧
    fabric 0 < fabric ({ up with now := 8, host := { storing := some ⟨0, 0, 0, true⟩, setInForce := some {} } } : State).now := ⟨rfl, by decide⟩
theorem wit_cfg_apply : ({ up with host := { waiting := some {}, waitMbx := 7, waitState := .await } } : State).seq.state = .await ∧
    ({ up with host := { waiting := some {}, waitMbx := 7, waitState := .await } } : State).live := ⟨rfl, rfl⟩

theorem wit_spb_ack : (asking { opcode := 0x50 }).asked 7 0x50 ∧ (asking { opcode := 0x50 }).carries 7 0 ∧ (asking { opcode := 0x50 }).spb.mpWdLost = false ∧
    ({ asking { opcode := 0x50 } with spb := { mpWdLost := true } } : State).spb.mpWdLost = true := by decide
/-- An active unit with an eligible partner. -/
def activeAsking (r : MbxReq) : State := { asking r with tw := { role := .active, partnerRole := 4 } }
theorem wit_relinquish : (activeAsking { opcode := 0x60 }).asked 7 0x60 ∧ (activeAsking { opcode := 0x60 }).carries 7 0 ∧
    partnerEligible (activeAsking { opcode := 0x60 }).toBlock = true ∧ (activeAsking { opcode := 0x60 }).tw.declAt = none ∧
    (activeAsking { opcode := 0x60 }).seq.state = .await := by decide
theorem wit_fw_update : (inSession { opcode := 0x72 }).asked 7 0x72 ∧ (inSession { opcode := 0x72 }).host.session = true ∧
    (inSession { opcode := 0x72 }).host.sessionMbx = 7 ∧ (inSession { opcode := 0x72 }).host.committing = false := by decide
theorem wit_udp : let s : State := { up with par := { val := [(0xD000, 1#32), (0xD003, 0x0A000001#32), (0xD009, 1#32)] } }
    parB s.toBlock 0xD000 = true ∧ parN s.toBlock 0xD002 = 0 ∧ parN s.toBlock (0xD008 + 1) ≠ 0 ∧
    (0x0A000001#32).toNat &&& parN s.toBlock 0xD004 = parN s.toBlock 0xD003 &&& parN s.toBlock 0xD004 ∧ leAt ([0x40] : List W8) 0 2 ∉ udpOps := by decide
theorem wit_mp_restart : up.live ∧ up.rst.phase = .up ∧ up.host.mpRestarting = false ∧
    ({ up with host := { mpRestarting := true } } : State).host.mpRestarting = true := by decide

/-! ### Witnesses: The measurement units and the window comparators -/

/-- `up` with unit 3 in this state. -/
def withUnit (x : AdcUnit) : State := { up with adc := { units := [(3, x)] } }
theorem wit_adc_ready : (withUnit { calAt := 1 }).live ∧ (adcUnit (withUnit { calAt := 1 }).toBlock 3).on = true ∧
    (adcUnit (withUnit { calAt := 1 }).toBlock 3).refReady = false ∧ (adcUnit (withUnit { refReady := true, calState := 7 }).toBlock 3).refReady = true ∧
    (adcUnit (withUnit { refReady := true, calState := 7 }).toBlock 3).calState = 7 ∧ verifyEnds (adcUnit (withUnit { refReady := true, calState := 7 }).toBlock 3) 0 = false ∧ (adcUnit (withUnit { refReady := true, calState := 7 }).toBlock 3).calHeld = false ∧
    (withUnit { refReady := true }).seq.state = .await := by decide
theorem wit_adc_spare : bgCalOn ({ withUnit { calAt := 1 } with par := { val := [(0x700B, 1#32)] } } : State).toBlock 3 = true ∧
    bgCalOn ({ withUnit { calState := 2 } with par := { val := [(0x700B, 1#32)] } } : State).toBlock 3 = false := by decide

/-- A started rhythm of N 32 with unit 0 in this state and input 0 in its sequence. -/
def sampling (x : AdcUnit) (v : List (Nat × W32)) : State :=
  { up with cyc := { started := true, t0 := 64000, n := 32, lastLen := 64000 }, adc := { units := [(0, x)] }, par := { val := v } }
theorem wit_conversion : (sampling { refReady := true } [(0x7004, 1#32), (0x7100, 0#32)]).live ∧
    (adcUnit (sampling { refReady := true } [(0x7004, 1#32), (0x7100, 0#32)]).toBlock 0).conv = none ∧
    (0 + 20 * tcU (sampling { refReady := true } [(0x7004, 1#32), (0x7100, 0#32)]).toBlock - 64000) % 20 = 0 ∧
    inSeq (sampling { refReady := true } [(0x7004, 1#32), (0x7100, 0#32)]).toBlock 0 = true := by decide
theorem wit_group (p : Option InjPend) (c : Option InjConv) : (adcUnit (sampling { refReady := true, pend := p, conv := c } []).toBlock 0).pend = p ∧
    (adcUnit (sampling { refReady := true, pend := p, conv := c } []).toBlock 0).conv = c := ⟨rfl, rfl⟩
theorem wit_inj_go : injTrig (sampling { refReady := true } [(0x7200, 0#32), (0x7204, 1#32)]).toBlock 0 = 1 ∧
    injInputs (sampling { refReady := true } [(0x7200, 0#32), (0x7204, 1#32)]).toBlock 0 ≠ [] ∧
    injHeld (sampling { refReady := true } [(0x7200, 0#32), (0x7204, 1#32)]).toBlock 0 = false := by decide
theorem wit_comparator : cmpP ({ up with par := { val := [(0x74F0, 1#32)] }, adc := { cmps := [(15, { l1 := some 5 })] } } : State).toBlock 15 0 ≠ 0#32 ∧
    (tget {} ({ up with par := { val := [(0x74F0, 1#32)] }, adc := { cmps := [(15, { l1 := some 5 })] } } : State).adc.cmps 15 : CmpSt).l1 = some 5 := by decide

/-! ### Witnesses: Cycles, reports, windows and trips -/

theorem wit_rhythm : let s : State := { up with cyc := { started := true, n := 32, setWrites := [(5, 7#32, 0), (5, 8#32, 80)], t0 := 64000 } }
    s.live ∧ s.rst.phase = .up ∧ s.cyc.newRhythm = none ∧ isActive s.toBlock = true ∧ fabric 0 < fabric s.cyc.t0 ∧
    (beginCycle (keepCurrents s.toBlock)).pwr.state ≠ .doze ∧ (beginCycle (keepCurrents s.toBlock)).pwr.state ≠ .off := by decide
theorem wit_rhythm_doze : (beginCycle (keepCurrents ({ up with pwr := { state := .doze } } : State).toBlock)).pwr.state = .doze ∧
    State.reset.rst.phase ≠ .up := by decide

theorem wit_adc_values : ({ up with cyc := { started := true } } : State).cyc.adcReady = false ∧
    ({ up with cyc := { started := true } } : State).live := ⟨rfl, rfl⟩
/-- Arm 0 with a cell 0 on port 0, a string of one half-bridge cell. -/
def oneCell (c : CellSt) (x : ArmSt) (st : ConvState) : State :=
  { up with
    model := { ports := [(0, 0x01010001)] }, cells := [(0, c)], arms := [(0, x)], seq := { state := st },
    par := { val := [(0x1010, 1#32)] }, cyc := { started := true, t0 := 64000, n := 32 }, ports := [(0, { st := .serve })] }
theorem wit_report : portUsed (oneCell { st := .available } {} .run).toBlock 0 = true ∧ (port (oneCell { st := .available } {} .run).toBlock 0).st = .serve ∧
    (oneCell { st := .available } {} .run).tw.splitCnt = none ∧ isActive (oneCell { st := .available } {} .run).toBlock = true ∧ repForm [] = false := by decide
theorem wit_deadline : armEnabled (oneCell { st := .available } {} .ready).toBlock 0 = true ∧ (arm (oneCell { st := .available } {} .ready).toBlock 0).repDone = false ∧
    deadlineU (oneCell { st := .available } {} .ready).toBlock 0 ≤ tcU (oneCell { st := .available } {} .ready).toBlock ∧
    switching (oneCell { st := .available } {} .ready).toBlock 0 = false := by decide
theorem wit_crc_limit : r781 (oneCell { st := .available, crcRun := 3 } {} .run).toBlock = true ∧ inService (cell (oneCell { st := .available, crcRun := 3 } {} .run).toBlock 0) = true ∧
    r781 (oneCell { st := .available, crcRun := 3 } {} .ready).toBlock = false := by decide
theorem wit_rank : (arm (oneCell { st := .available } { repDone := true } .run).toBlock 0).repDone = true ∧
    (arm (oneCell { st := .available } { repDone := true } .run).toBlock 0).rankDone = false := by decide

theorem wit_arm_insert : armEnabled (oneCell { st := .available } { sw := true } .run).toBlock 0 = true ∧ isActive (oneCell { st := .available } { sw := true } .run).toBlock = true ∧
    switching (oneCell { st := .available } { sw := true } .run).toBlock 0 = true ∧ isFinite32 0x3F800000#32 = true ∧ isFinite32 0x7F800000#32 = false ∧
    feq (arm (oneCell { st := .available } { sw := true } .run).toBlock 0).vMean f32Zero = true ∧
    feq (arm (oneCell { st := .available } { sw := true, vMean := 0x3F800000#32 } .run).toBlock 0).vMean f32Zero = false ∧
    isFinite32 (fdiv 0x3F800000#32 0x3F800000#32) = true := by decide
theorem wit_psc : pscPeriodOk (oneCell { st := .available } { sw := true } .run).toBlock 0x42C80000#32 = true ∧
    pscPeriodOk (oneCell { st := .available } { sw := true } .run).toBlock 0#32 = false ∧ isNaN32 0x3F000000#32 = false := by decide
theorem wit_carrier : parN ({ oneCell { st := .available } { sw := true, psc := { set := [0], heldPeriod := some 0#32 } } .run with par := { val := [(0x1010, 1#32), (0x3000, 1#32)] } } : State).toBlock 0x3000 = 1 ∧
    (arm (oneCell { st := .available } { sw := true, psc := { set := [0], heldPeriod := some 0#32 } } .run).toBlock 0).psc.heldPeriod.isSome = true := by decide
theorem wit_frame (f : Frame) : (port ({ up with ports := [(0, { frames := [f] })] } : State).toBlock 0).frames = [f] := rfl

theorem wit_trip : bitAt up.trip.raw 15 = false ∧ bitAt up.trip.blanked 15 = false ∧ matrixOn up.toBlock = true ∧ tripHas up.toBlock 15 2 = false ∧
    tripHas up.toBlock 15 3 = false ∧ bitAt ({ up with trip := { raw := 0x8000 } } : State).trip.raw 15 = true ∧
    tripBlankedNow ({ up with trip := { blanked := 0x8000 } } : State).toBlock 15 = true ∧
    matrixOn ({ up with pwr := { state := .doze } } : State).toBlock = false := by decide
theorem wit_blanking : tget [] ({ up with trip := { sched := [(11, [9, 5])] }, par := { val := [(0x3240, 0x3F800000#32), (0x3260, 0x800#32)] } } : State).trip.sched 11 = [9, 5] ∧
    parDur ({ up with par := { val := [(0x3240, 0x3F800000#32), (0x3260, 0x800#32)] } } : State).toBlock 0x3240 4000 ≠ 0 ∧
    bitAt (parN ({ up with par := { val := [(0x3240, 0x3F800000#32), (0x3260, 0x800#32)] } } : State).toBlock 0x3260) 11 = true := by decide
theorem wit_blanking_end : bitAt ({ up with trip := { blanked := 2 ^ 31, raw := 2 ^ 31 } } : State).trip.blanked 31 = true ∧
    bitAt ({ up with trip := { blanked := 2 ^ 31, raw := 2 ^ 31 } } : State).trip.acted 31 = false := by decide

/-! ### Witnesses: The recorder -/

def recorderAt (st : Nat) (c : Option RecCap) (r : RecSt := {}) : State := { up with recd := { r with st := st, cap := c } }
/-- A capture of one pre row and two post rows, with `n` rows recorded. -/
def aCap (n : Nat) : RecCap :=
  { div := 1, capRows := 4, preRows := 1, postRows := 2, clamped := false, rearm := true, manual := true, chans := [], trgs := [], rows := n }
theorem wit_rec_idle : (recorderAt 0 none).live ∧ freeBuf (recorderAt 0 none).toBlock 0 = some 0 ∧
    (armCheck (recorderAt 0 none).toBlock (recChans (recorderAt 0 none).toBlock) (recSize (recorderAt 0 none).toBlock) (recTrgs (recorderAt 0 none).toBlock)).1 ≠ 0 := by
  decide
/-- One channel with the arm-time checks passed. -/
def armable : State := { up with cyc := { started := true, n := 100 }, par := { val := [(0x8001, 1#32), (0x8002, 0x3F000000#32), (0x8003, 4#32), (0x8100, 1#32), (0x8200, 1#32), (0x8206, 1#32)] } }
theorem wit_rec_arm : freeBuf armable.toBlock 0 = some 0 ∧ armable.recd.st = 0 ∧ armable.recd.cap = none ∧ (armCheck armable.toBlock (recChans armable.toBlock) (recSize armable.toBlock) (recTrgs armable.toBlock)).1 = 0 := by
  set_option maxRecDepth 20000 in decide
theorem wit_rec_full : freeBuf (recorderAt 0 none { bufs := [(0, { bstate := 2 })], fullWait := true, rearmAt := some (0, 1) }).toBlock 0 = none ∧
    0 < recBufs (recorderAt 0 none).toBlock ∧ 2 ≤ (recBuf (recorderAt 0 none { bufs := [(0, { bstate := 2 })] }).toBlock 0).bstate := by decide
theorem wit_rec_run : (recorderAt 3 (some (aCap 3))).recd.st = 3 ∧ endRow (aCap 3) ≤ (aCap 3).rows ∧ (aCap 1).rows < endRow (aCap 1) ∧
    (aCap 1).preRows ≤ (aCap 1).rows ∧ (aCap 0).rows < (aCap 0).preRows := by decide

/-! ### Witnesses: Tentering and the silicon -/

def plan (x : SiSt) : State := { up with si := x }
theorem wit_plan_start : powered up.toBlock = true ∧ up.si.planning = false ∧ up.host.mpOverload = false ∧ up.pwr.throttle < 2 := by decide
theorem wit_plan_short : qlt (qi (worstSlack { up.toBlock with par := { val := [(0x9100, 0x41A00000#32)] } }).1) (slackNeed { up.toBlock with par := { val := [(0x9100, 0x41A00000#32)] } }) = true ∧
    siVmax { up.toBlock with par := { val := [(0x9100, 0x41A00000#32), (0x9102, 0x3F4CCCCD#32)] } } ≠ 0 := by decide
theorem wit_plan_step : (plan { planning := true, lowering := true, steps := [true] }).si.steps.getLast? = some true ∧
    (plan { planning := true }).si.planning = true ∧ (plan {}).si.planning = false := by decide

/-! ### Witnesses: Power states, the arbiter and the supply -/

theorem wit_power_conflict : up.pwr.phase = .steady ∧ up.pwr.toRun = false ∧ up.rst.phase = .up ∧ up.pwr.state ≠ .hold ∧
    switching { up.toBlock with arms := [(0, { sw := true })] } 0 = true := by decide

def power (x : PwrSt) : State := { up with pwr := x, par := { val := [(0xF003, 31#32)] } }
theorem wit_power_request : up.rst.phase = .up ∧ up.pwr.phase = .steady ∧ up.pwr.toRun = false ∧ pwrBadState up.toBlock .hold = false ∧
    pwrBadState (power { state := .doze }).toBlock .run = false ∧ pwrBadState (power { state := .hold }).toBlock .run = false := by decide
theorem wit_power_entry : (power { phase := .entering, step := 7, target := .off }).pwr.step = 7 ∧
    pwrRefuser (power { phase := .entering, step := 5 }).toBlock 5 none = none ∧
    pwrRefuser { (power { phase := .entering, step := 2 }).toBlock with eng := { fant := [(0, { armed := some 0 })] } } 2 none = some (5, false) ∧
    pwrRefuser { (power { phase := .entering, step := 5 }).toBlock with dam := {} } 5 (some 3) = some (21, true) := by decide
theorem wit_power_wake : (decide (1 ≤ 3 ∧ 3 ≤ 5) && bitAt (parN (power { state := .doze }).toBlock 0xF003) 2) = true := by decide

theorem wit_wake : (power { phase := .waking, retained := 1 }).pwr.phase = .waking := rfl
theorem wit_estimate :
    qlt (qsub (centiW 0x42C80000#32) (centiW 0x40A00000#32)) (qi (5 : Nat)) = false ∧ qlt (qi (5 : Nat)) (qsub (centiW 0x42C80000#32) (qmul (qi 2) (centiW 0x40A00000#32))) = true := by decide
theorem wit_regulator : (power { vrWait := some 800000, vrTries := 2 }).pwr.vrWait = some 800000 ∧ 3 ≤ (power { vrTries := 2 }).pwr.vrTries + 1 := by decide

/-! ### Witnesses: Ports and their cells -/

/-- Port 2 used by arm 0 with a string of two cells (topology top), its state x. -/
def onePort (top : Nat) (x : PortSt) : State :=
  { up with model := { ports := [(2, 0x0201 + 2 * top)] }, ports := [(2, x)], seq := { state := .run } }
theorem wit_train : portUsed (onePort 0 { st := .serve }).toBlock 2 = true ∧ strCells (onePort 0 { st := .serve }).toBlock 2 < 3 ∧
    (port (onePort 0 { st := .serve }).toBlock 2).st = .serve ∧ (port (onePort 0 { st := .seek, training := true }).toBlock 2).training = true ∧
    (port (onePort 0 { st := .dark }).toBlock 2).st = .dark := by decide
theorem wit_ring_break : portRing (onePort 1 { st := .serve, lostAt := some 0 }).toBlock 2 = true ∧ ringMate (onePort 1 {}).toBlock 2 = some 3 ∧
    ringMate (onePort 2 {}).toBlock 2 = none ∧ (port (onePort 1 { st := .serve, lostAt := some 0 }).toBlock 2).lostAt = some 0 := by decide
theorem wit_chain : portTopo (onePort 0 { st := .serve, lostAt := some 0 }).toBlock 2 = 0 ∧ r781 (onePort 0 {}).toBlock = true := by decide

/-- Cell 96 on port 2 with its constants read. -/
def oneEcho (n : Nat) (l : List Int) (st : PState) : State :=
  { onePort 0 { st := st, cellsFound := 2 } with cells := [(96, { st := .available, calA := { consts := some 5#32, echoes := n, samples := l } })] }
theorem wit_echo : cellAtHop (oneEcho 15 [] .serve).toBlock 2 0 = 96 ∧ 0 < strCells (oneEcho 15 [] .serve).toBlock 2 ∧
    (calOf (oneEcho 15 [] .serve).toBlock 2 (cell (oneEcho 15 [] .serve).toBlock 96)).consts = some 5#32 ∧
    (calOf (oneEcho 15 [] .serve).toBlock 2 (cell (oneEcho 15 [] .serve).toBlock 97)).consts = none ∧ portUsed (oneEcho 15 [] .serve).toBlock 2 = true ∧
    echoLeft (oneEcho 15 [] .serve).toBlock 2 0 10 = true ∧ stopped (oneEcho 15 [] .serve).toBlock 6 = false := by decide
theorem wit_discover_limit : (port (oneEcho 0 [] .discover).toBlock 2).st = .discover ∧ r781 (oneEcho 0 [] .discover).toBlock = true := by decide
theorem wit_unconf : (cell ({ up with cells := [(0, { bypReq := some 5, bypRet := true })] } : State).toBlock 0).bypReq = some 5 := rfl

/-! ### Witnesses: The Safe Pulse Block -/

/-- The Safe Pulse Block in a state, input 0 enabled with manual clearing, ports 0 and 1. -/
def safePulse (x : SpbSt) : State := { up with spb := x, par := { val := [(0xB000, 1#32)] }, ports := [(0, { st := .serve }), (1, {})] }
theorem wit_spb_states : (safePulse { st := .normal, latched := 0 }).spb.st ≠ .startup ∧ siDemandNow (safePulse { st := .normal }).toBlock 0 = true ∧
    siEnabled (safePulse { st := .normal }).toBlock 0 = true ∧ siDemandNow (safePulse { siContact := 3 }).toBlock 0 = false := by decide
theorem wit_spb_inputs : inWindow (safePulse { st := .normal, window := 1 }).toBlock false = true ∧ inWindow (safePulse { st := .normal }).toBlock false = false ∧
    tfind (safePulse { st := .normal, disc := [(0, 7)] }).spb.disc 0 = some 7 ∧ ((safePulse {}).ports.map (·.1)).Nodup := by decide

theorem wit_spb_readback : true ≠ bitAt (safePulse { st := .normal }).spb.soCmd 0 ∧ (safePulse { st := .normal }).spb.st ≠ .killed := by decide
theorem wit_spb_feedback : fbDiffers { (safePulse { st := .normal, fbState := 1 }).toBlock with par := { val := [(0xB038, 1#32)] } } 0 = true := by decide
theorem wit_spb_challenge : (safePulse { challenge := some 5#16, mpBad := 2 }).spb.challenge = some 5#16 ∧ 2 ≤ (safePulse { mpBad := 2 }).spb.mpBad := by decide
theorem wit_spb_startup : (safePulse {}).spb.st = .startup ∧ (safePulse {}).spb.flash = none ∧ (safePulse { flash := some ([], []) }).spb.flash.isSome = true := by decide

/-! ### Witnesses: Governor, injections, repetitive controllers, Fantails and ramps -/

theorem wit_gov_call : (engineOf { up.toBlock with gov := { eng := [(0, { queue := [{ loop := 0, x := 0#32, ff := 0#32, lo := 0#32, hi := 0#32, reset := false, hold := false, resp := 0#32, swap := 255, core := 0, task := 0, blk := 0, at_ := 0, t0 := 0 }] })] } } 0).queue.length = 1 := by decide
theorem wit_injection : injStartOk { up.toBlock with cyc := { n := 32 } } 0 = true ∧ injBusy (engineOf { up.toBlock with gov := { eng := [(0, { st := .running })] } } 0) = true ∧
    injEnd { up.toBlock with par := { val := [(0x4406, 0x3F800000#32)] } } 0 ≠ none := by decide
theorem wit_rpc : (rpc up.toBlock 0).last = none ∧ (rpc { up.toBlock with eng := { rpc := [(0, { last := some (0, 5#32) })] } } 0).last = some (up.cyc.t0, 5#32) := by decide

def engines (x : EngSt) : State := { up with eng := x, par := { val := [(0x5000, 1#32), (0x5005, 1#32)] } }
theorem wit_stream : ftMode (engines {}).toBlock 0 = 1 ∧ (fant (engines {}).toBlock 0).form = false ∧ (ftW (engines {}).toBlock 0 5).toNat = 1 ∧
    (fant (engines { fant := [(0, { lockFrom := some 3 })] }).toBlock 0).lockFrom = some 3 := by decide
theorem wit_ramp : isFinite32 0x3F800000#32 = true ∧ flt f32Zero 0x3F800000#32 = true ∧ isFinite32 0x7F800000#32 = false ∧
    (ramp (engines {}).toBlock 3).queue.length + (ramp (engines {}).toBlock 3).posted.length < 8 ∧
    8 ≤ (ramp (engines { ramp := [(3, { queue := List.replicate 8 (0#64, 0#64) })] }).toBlock 3).queue.length := by decide

/-! ### Witnesses: The converter sequence and the station contacts -/

/-- Arms 0 and 1 enabled, in a converter state, as a SOLO unit. -/
def sequence (st : ConvState) (x : List (Nat × ArmSt)) : State := { up with par := { val := [(0x1010, 1#32), (0x1011, 1#32)] }, seq := { state := st }, arms := x }
theorem wit_sequence_states : (sequence .ready []).pwr.state = .run ∧ isActive (sequence .ready []).toBlock = true ∧
    isActive ({ up with tw := { role := .wait } } : State).toBlock = false ∧ deblockState (sequence .run []).toBlock = true ∧ deblockState (sequence .await []).toBlock = false := by decide
theorem wit_sequence_deblock : enabledArms (sequence .run []).toBlock = [0, 1] ∧ switching (sequence .run []).toBlock 0 = false ∧
    deblockRefusal (sequence .run []).toBlock 0 ≠ 0 ∧ armEnabled (sequence .run []).toBlock 2 = false := by decide
theorem wit_fault_reset : (sequence .fault []).seq.state = .fault ∧ cellsDischarged (sequence .fault []).toBlock = true ∧ breakersOpen (sequence .fault []).toBlock = true := by decide

theorem wit_fault_states : isActive (sequence .energize []).toBlock = true ∧ isActive ({ up with tw := { role := .wait } } : State).toBlock = false ∧ charged (sequence .run []).toBlock = false ∧
    enabledArms (sequence .run []).toBlock = [0, 1] ∧ ({ state := .energize, step := 3, mainConfirmed := some 5, opening := some 4 } : SeqSt).step = 3 := by decide
theorem wit_stuck : mainOn (sequence .ready []).toBlock = false ∧ scClosed { (sequence .ready []).toBlock with seq := { state := .ready, scState := 1 } } 0 = true ∧
    bitAt (sequence .ready []).seq.stuck 0 = false ∧ mainAux (sequence .ready []).toBlock = 0 := by decide
theorem wit_first_fault : (sequence .run []).seq.faultCause = 0 ∧ fabric ({ faultCause := 3, faultAt := 0 } : SeqSt).faultAt = fabric (0 : Nat) := by decide

/-- Contact 0 with a history. -/
def contact0 (x : ContactSt) : State := { up with seq := { state := .energize, step := 1, contacts := [(0, x)], scRaw := 1 } }
theorem wit_contact : isActive (contact0 {}).toBlock = true ∧ mainAux (contact0 {}).toBlock = 0 ∧ (tget {} (contact0 { moving := true }).seq.contacts 0).moving = true ∧
    bitAt (contact0 {}).seq.scRaw 0 ≠ scClosed (contact0 {}).toBlock 0 ∧ bitAt (contact0 {}).seq.scRaw 2 = scClosed (contact0 {}).toBlock 2 ∧ scUnrel (contact0 {}).toBlock 0 = false ∧
    (tget {} (contact0 { unsettledFrom := some 4 }).seq.contacts 0).unsettledFrom = some 4 ∧ bypassAux (contact0 {}).toBlock ≠ 2 := by decide
theorem wit_contact_closed : scClosed { (contact0 {}).toBlock with seq := { state := .energize, step := 1, scState := 1 } } 0 = true := by decide

/-! ### Witnesses: Station time and PTP -/

/-- A PTP message of clock 5 port 1 on station port 0. -/
def message (q : Nat) (two : Bool) : PtpMsg := { port := 0, src := 5, srcPort := 1, seq := q, domain := 0, twoStep := two, stamp := 100, corr := 0 }
/-- A running PTP clock. -/
def clock (x : TimeSt) (l : Tab W32) : State := { up with time := x, par := { val := (0xE000, 2#32) :: l } }
theorem wit_ptp_master : fromMaster (clock { state := .slave, master := some (5, 1) } []).toBlock (message 3 true) = true ∧
    fromMaster (clock { state := .slave } []).toBlock (message 3 true) = false ∧ (clock { state := .slave, sync := some (3, 10, 0), delayReq := some (3, 4), lastSync := some (1, 2, true) } []).time.sync = some (3, 10, 0) := by decide
theorem wit_ptp_peer : peerMsg (clock { state := .listening, pdelayReq := some (3, 4), pdelay := some (3, 5, 6) } [(0xE001, 1#32)]).toBlock (message 3 true) = true ∧
    ptpRuns (clock { state := .master } []).toBlock = true ∧ ptpP2P (clock { state := .master } []).toBlock = false ∧ (message 3 true).domain = parN (clock { state := .master } []).toBlock 0xE003 := by decide
theorem wit_servo_cases : ({ holdover := true, qual := 1 } : TimeSt).holdover = true ∧ parN (clock {} [(0xE015, 1#32)]).toBlock 0xE015 ≤ 0 + 1 ∧ 0 + 1 < parN (clock {} [(0xE015, 5#32)]).toBlock 0xE015 ∧
    offAbove 0 (parW (clock {} []).toBlock 0xE010) 1000 = false ∧ offAbove 5000000000000000000 (parW (clock {} []).toBlock 0xE010) 1000 = true := by decide

/-- The data set of a master heard on a port. -/
def heard (p : Nat) : PtpAnn := { port := p, src := 5, srcPort := 1, domain := 0, gm := 5, prio1 := 1, cls := 6, acc := 0x20, var := 0, prio2 := 1, steps := 0, utcValid := true, utc := 37 }
theorem wit_announce : ptpRuns (clock { state := .listening } []).toBlock = true ∧ (heard 0).port < 2 ∧ (heard 0).domain = parN (clock {} []).toBlock 0xE003 ∧ (heard 0).port = ptpPrimary (clock {} []).toBlock ∧
    ptpBackup (clock {} [(0xE005, 0#32)]).toBlock = false ∧ ptpMode (clock {} []).toBlock ≠ 3 ∧ (heard 1).port ≠ ptpPrimary (clock {} []).toBlock := by decide
theorem wit_lose : (bestForeign (clock { foreign := [(1, [{ ann := heard 1, last := 0, runFrom := 0, count := 2 }])] } [(0xE005, 1#32)]).toBlock 1).isSome = true ∧
    ptpBackup (clock {} [(0xE005, 1#32)]).toBlock = true ∧ (clock { state := .listening } []).time.state ≠ .disabled ∧ (clock { rateNew := some (5, 9) } []).time.rateNew = some (5, 9) ∧
    ptpSends (clock { state := .master } []).toBlock .sync = true ∧ ptpSends (clock { state := .listening } []).toBlock .sync = false := by decide
theorem wit_choice : ∀ c, c = clock { foreign := [(0, [{ ann := heard 0, last := 0, runFrom := 0, count := 2 }])] } [] →
    (ptpChoice { c.toBlock with par := { val := [(0xE000, 1#32)] } }).isSome = true ∧
    ptpChoice { c.toBlock with par := { val := [(0xE000, 1#32), (0xE006, 0#32)] } } = none ∧
    (bestForeign { c.toBlock with par := { val := [(0xE000, 1#32), (0xE006, 0#32)] } } 0).isSome = true ∧
    foreignOk { c.toBlock with time := { primaryLost := true } } { ann := heard 1, last := 0, runFrom := 0, count := 2 } = true := by
  rintro c rfl; decide
theorem wit_mp_restart_loss : ptpRuns ({ clock { state := .listening } [] with host := { mpRestarting := true } } : State).toBlock = false := by decide

theorem wit_rate_waits : (clock { rateNew := some (5, 9) } []).time.rateNew = some (5, 9) ∧ (clock {} []).time.rateNew = none := by decide

/-! ### Witnesses: The twin pair -/

/-- A twin unit in a role. -/
def twin (r : Role) (x : TwinSt) : State := { up with tw := { x with role := r } }
theorem wit_link : (twin .active { link := 2, lanes := 0xFFFF, allAt := some 4, dTw := 80 }).tw.role ≠ .solo ∧ halfLocked 0xFF = true ∧ halfLocked 0x7F = false ∧
    (twin .standby { link := 1 }).tw.link ≠ 2 ∧ (twin .wait {}).tw.role = .wait := by decide
theorem wit_time_word : (twin .standby { link := 2, loaded := true, sinceTrim := 7 }).tw.link ≠ 0 ∧ 187 < (-300 : Int).natAbs ∧ (twin .sync { link := 1 }).tw.loaded = false ∧
    (twin .standby { hbRx := false }).tw.hbRx = false := by decide

set_option maxRecDepth 20000 in
theorem wit_heartbeat : crc16 0 [0#8, 0#8, 0#8, 0#8, 0#8, 0#8, 0#8, 0#8] = leAt [0#8, 0#8, 0#8, 0#8, 0#8, 0#8, 0#8, 0#8, 0x8c#8, 0x7c#8] 8 2 := by decide
theorem wit_roles : (twin .offline { offCause := 1 }).tw.offCause = 1 ∧ causeExists (twin .offline {}).toBlock = false ∧ (twin .active { waitImage := true, splitCnt := some 2 }).tw.splitCnt = some 2 ∧
    revertConds { (twin .standby { frcLock := true, cfgMatch := true, revertFrom := some 3 }).toBlock with par := { val := [(0xC002, 0#32)] } } = true ∧ (twin .sync {}).tw.role = .sync ∧
    ({ twin .active { splitCnt := some 2 } with ports := [(0, { lock := true })] } : State).ports.any (fun p => p.2.lock) = true := by decide

theorem wit_relay : isActive (twin .standby {}).toBlock = false ∧ isActive (twin .active {}).toBlock = true ∧
    (twin .standby { relayFrames := [(3, 4, [])] }).tw.relayFrames.find? (fun x => x.1 = 3) = some (3, 4, []) ∧
    ([(0, true, false, 3), (1, true, false, 4)] : List (Nat × Bool × Bool × Nat)).Pairwise (fun a c => a.1 ≠ c.1) ∧ bitAt (leAt [0#8] 0 8) 7 = false := by decide

/-! ### Witnesses: Single rules of the manual -/

def askingDark (sw : Bool) : State :=
  { asking { opcode := 0x35, arg0 := 3, arg1 := 1 } with model := { ports := [(3, 0x0101)] }, arms := [(0, { sw := sw })] }
theorem wit_port_dark_rule : (askingDark true).asked 7 0x35 ∧ (askingDark true).carries 7 0 ∧ ((askingDark true).request 7).arg0 = 3 ∧
    portUsed (askingDark true).toBlock 3 = true ∧ switching (askingDark true).toBlock (strArm (askingDark true).toBlock 3) = true ∧
    switching (askingDark false).toBlock (strArm (askingDark false).toBlock 3) = false := ⟨⟨rfl, by decide, rfl, rfl, ⟨rfl, asking_turn _⟩⟩, ⟨rfl, rfl⟩, rfl, by decide, by decide, by decide⟩

theorem wit_trigger_lost : (injInputs { up.toBlock with par := { val := [(0x7200, 5#32), (0x7201, 255#32), (0x7204, 1#32)] } } 0).length ≠ 0 ∧
    (adcUnit { up.toBlock with adc := { units := [(0, { on := true })] } } 0).on = true ∧
    (adcUnit { up.toBlock with adc := { units := [(0, { on := true })] } } 0).refReady = false ∧
    injTrig { up.toBlock with par := { val := [(0x7204, 1#32)] } } 0 = 1 := by decide

/-! ### Witnesses: Tasks, queues and DMA -/

/-- A queue 0 of depth 2. -/
def oneQueue (x : QueueSt) : State := { up with par := { val := [(0x6000, 2#32)] }, dam := { queues := [(0, x)], cores := [(1, { task := some 3 })] } }
theorem wit_queue : (queue (oneQueue { fill := 1 }).toBlock 0).fill ≠ 0 ∧ (queue (oneQueue { fill := 1 }).toBlock 0).accAt ≠ fabric (oneQueue {}).now + 1 ∧
    queueFull (oneQueue { fill := 1 }).toBlock 0 = false ∧ queueFull (oneQueue { fill := 2 }).toBlock 0 = true ∧ queueBehind (oneQueue { fill := 2 }).toBlock 0 4 = none ∧
    queueBehind (oneQueue { fill := 2, accAt := fabric up.now + 1, entered := [{ rank := 3, who := 0, w := [] }] }).toBlock 0 2 = some { rank := 3, who := 0, w := [] } ∧
    (core (oneQueue {}).toBlock 1).task = some 3 ∧ (core (oneQueue {}).toBlock 0).task = none ∧ (queue (oneQueue { waiting := [(3, [])] }).toBlock 0).waiting = [(3, [])] ∧
    (queue (oneQueue { hwHeld := some [] }).toBlock 0).hwHeld = some [] ∧ tget 0 (oneQueue {}).dam.posted 160 ≠ fabric (oneQueue {}).now + 1 := by decide
theorem wit_queue_put : (queuePut 0 { rank := 2, who := 0, w := [] } (oneQueue { fill := 1 }).toBlock).1 = true ∧ (queuePut 0 { rank := 2, who := 0, w := [] } (oneQueue { fill := 2 }).toBlock).1 = false := by decide

/-- A task 0 of the image in a state, on core 1. -/
def oneTask (x : TaskSt) (c : CoreSt) : State := { up with dam := { tasks := [(0, x)], cores := [(1, c)] } }
theorem wit_task_states : (task (oneTask { st := .ready } {}).toBlock 0).st = .ready ∧ (core (oneTask {} { task := some 0 }).toBlock 1).task = some 0 ∧ (core (oneTask {} { task := some 0 }).toBlock 1).wait = .none ∧
    (core (oneTask {} { wait := .published }).toBlock 1).wait = .published ∧ (core (oneTask {} { task := some 0, begun := true }).toBlock 1).begun = true ∧ cancelRefused (oneTask {} {}).toBlock 0 = false := by decide
/-- A graph of one REC_TAP block of task 0. -/
def oneBlock : State := { oneTask {} { task := some 0 } with graph := { image := leBytes 14 0 ++ leBytes 2 1 ++ leBytes 8 1 ++ leBytes 8 0x20 ++ leBytes 16 0x65 } }
theorem wit_task_image : (taskBlocks (img oneBlock.toBlock) 0)[0]? = some 0 ∧ 0 < imgTasks oneBlock.toBlock ∧ blkType (img oneBlock.toBlock) 0 = 0x65 ∧ sourceWait oneBlock.toBlock 0 = .none ∧
    (taskBlocks (img oneBlock.toBlock) 0)[1]? = none ∧ imgTasks (oneTask {} {}).toBlock ≤ 0 ∧ cancelRefused oneBlock.toBlock 0 = false := by decide

/-- DMA channel 0 in a state. -/
def oneDma (x : DmaSt) : State := { up with dam := { dma := [(0, x)] } }
theorem wit_dma_moves : (dma (oneDma { st := .running, fetching := true }).toBlock 0).fetching = true ∧ readCause (oneDma {}).toBlock 0 0x30000000 0 4 6 ≠ none ∧ readCause (oneDma {}).toBlock 0 0x10000000 0 4 6 = none ∧
    (dma (oneDma { st := .running, fetching := false }).toBlock 0).st = .running ∧ writeCause (oneDma {}).toBlock 0 0x10000000 = none ∧ writeCause (oneDma {}).toBlock 0 0x30000000 ≠ none ∧
    (dma (oneDma { st := .halted }).toBlock 0).st = .halted ∧ bitAt ({ ctrl := 3 } : DmaSt).ctrl 0 = true := by decide

end Sys2Proof.Machine
end

section
/-!
PROOFS. How every command acts, and the commands that name no unit (log entry 1).
-/

namespace Sys2Proof.Machine

/-- Every command acts as `act` or, for the reset pins and the boundary scan, as `actAlways` says. -/
theorem exec_is_act (c : Instr) : ∃ f, (∀ s, exec c s = act c f s) ∨ (∀ s, exec c s = actAlways c f s) := by
  cases c with
  | porstNAssert | porstNRelease | rstNAssert | rstNRelease | jtagInstruction => exact ⟨_, .inr fun _ => rfl⟩
  | _ => exact ⟨_, .inl fun _ => rfl⟩

theorem act_of_not_wf {c : Instr} (h : c.wf = false) (f : Block → Block) (s : State) : act c f s = .next s := by
  simp [act, h]

theorem actAlways_of_not_wf {c : Instr} (h : c.wf = false) (f : Block → Block) (s : State) : actAlways c f s = .next s := by
  simp [actAlways, h]

/-- Settles O6: both ways in which a command acts look at its operands first. -/
theorem illFormedCommandsChangeNothing : Obligations.ill_formed_commands_change_nothing := by
  intro c s h
  obtain ⟨f, hf | hf⟩ := exec_is_act c
  · rw [hf, act_of_not_wf h]
  · rw [hf, actAlways_of_not_wf h]

/-- A command in operation ends in the block that its effect gives. -/
theorem act_ended {i : Instr} {f : Block → Block} {s : State} (h : s.live) (hw : i.wf = true) {b : Block} (e : f s.toBlock = b) :
    act i f s = .next (ended s b) := by
  rw [act_live i f s h hw, e]

end Sys2Proof.Machine
end

section
/-!
PROOFS. Host register writes, the staging window and SET_GO (R627, R651, R678, R680).
-/

namespace Sys2Proof.Machine

/-! ### Writes to BAR0 (R627, Table 17-3) -/

theorem bar0Write_setpoint {k : Nat} (hk : k < 64) (v : W32) (b : Block) :
    bar0Write (0x3400 + 4 * k) v b = setpointWriteStep k v b := by
  have hlow : ∀ n, n ≤ 0x3400 → ¬ 0x3400 + 4 * k < n := fun n h => by omega
  simp [bar0Write, writeArms, hlow, show 0x3400 + 4 * k < 0x3500 by omega]

theorem bar0Write_doorbell {m : Nat} (hm : m < 8) (v : W32) (b : Block) :
    bar0Write (0x404 + 16 * m) v b = doorbellWrite m v b := by
  have hlow : ∀ n, n ≤ 0x400 → ¬ 0x404 + 16 * m < n := fun n h => by omega
  have hne : ∀ n, n < 0x400 → 0x404 + 16 * m ≠ n := fun n h => by omega
  have hcol : (0x404 + 16 * m) % 16 = 4 := by omega
  have hrow : (0x404 + 16 * m - 0x400) / 16 = m := by omega
  have hwin : 0x400 ≤ 0x404 + 16 * m ∧ 0x404 + 16 * m < 0x480 := by omega
  simp [bar0Write, writeEngines, hlow, hne, show 0x404 + 16 * m < 0x800 by omega, hwin, hcol, hrow]

theorem bar0Write_setLo (v : W32) (b : Block) : bar0Write 0x1034 v b = { b with time := { b.time with setLo := v } } := rfl

theorem bar0Write_setHi (v : W32) (b : Block) : bar0Write 0x1038 v b = { b with time := { b.time with setHi := v } } := rfl

theorem bar0Write_reserved {off : Nat} (h1 : 0xA00 ≤ off) (h2 : off < 0x1000) (v : W32) (b : Block) : bar0Write off v b = b := by
  simp [bar0Write, show ¬ off < 0x100 by omega, show ¬ off < 0x800 by omega, show ¬ off < 0xA00 by omega, h2]

/-- R627: a single aligned word goes to the register map. -/
theorem registerWriteStep_word {off : Nat} {l : List W8} (hl : l.length = 4) (ha : off % 4 = 0) (b : Block) :
    registerWriteStep 0 off l b = bar0Write off (BitVec.ofNat 32 (leAt l 0 4)) b :=
  if_pos ⟨hl, ha⟩

/-- R627, R9: another length, an unaligned address and a reserved one are ignored. -/
theorem registerWriteStep_ignored {off : Nat} {l : List W8} (h : l.length ≠ 4 ∨ off % 4 ≠ 0 ∨ (0xA00 ≤ off ∧ off < 0x1000)) (b : Block) :
    registerWriteStep 0 off l b = b := by
  by_cases hw : l.length = 4 ∧ off % 4 = 0
  · obtain ⟨hl, ha⟩ := hw
    obtain ⟨h1, h2⟩ : 0xA00 ≤ off ∧ off < 0x1000 := by simpa [hl, ha] using h
    rw [registerWriteStep_word hl ha, bar0Write_reserved h1 h2]
  · exact if_neg hw

/-! ### The staging window (R651) -/

theorem stagingWriteStep_open {off : Nat} {l : List W8} {b : Block} (ho : stagingOpen b = true) (hf : off + l.length ≤ stagingSize) :
    stagingWriteStep off l b = { b with mem := memWriteBytes b.mem (stagingBase + off) l } := by
  simp [stagingWriteStep, ho, hf, writeBytes]

theorem stagingWriteStep_closed {off : Nat} {l : List W8} {b : Block} (ho : stagingOpen b = false) : stagingWriteStep off l b = b := by
  simp [stagingWriteStep, ho]

theorem stagingOpen_eq_true {b : Block} (h1 : b.host.session = true) (h2 : b.host.committing = false) : stagingOpen b = true := by
  simp [stagingOpen, h1, h2]

theorem stagingOpen_eq_false {b : Block} (h : b.host.session = false ∨ b.host.committing = true) : stagingOpen b = false := by
  rcases h with h | h <;> simp [stagingOpen, h]

/-! ### SET_GO (R680) -/

/-- The value of SET_HI:SET_LO. -/
def setValue (t : TimeSt) : Int := (t.setHi.toNat * 2 ^ 32 + t.setLo.toNat : Nat)

/-- Station time once SET_GO has set the base to SET_HI:SET_LO at the tick f. -/
def setTime (f : Nat) (t : TimeSt) : TimeSt :=
  { t with
    base := setValue t * 2 ^ 32, fB := f, stepSeq := (t.stepSeq + 1) % 2 ^ 16, timeValid := true, everLocked := false, setRef := false }

/-- R674 from the new base: the value set, and the ticks since then at the rate r. -/
theorem stAt_setTime (f fc : Nat) (r : Int) (t : TimeSt) :
    stAt { setTime f t with rate := r } fc = setValue t + ((fc : Int) - f) * (2 ^ 40 + r) / 2 ^ 42 := by
  unfold stAt setTime
  rw [Int.mul_ediv_cancel _ (by decide)]

theorem setGoStep_setsRef {b : Block} (h : b.time.state = .uncalibrated ∨ b.time.state = .slave) :
    setGoStep b = { b with time := { b.time with setRef := true } } := by
  simp [setGoStep, h, modTime]

theorem setGoStep_steps {b : Block} (h1 : b.time.state ≠ .uncalibrated) (h2 : b.time.state ≠ .slave) :
    setGoStep b = rateAfterSet { b with time := setTime (tickNow b) b.time } := by
  simp [setGoStep, h1, h2, modTime, stepTime, setTime, setValue]

/-- Without a rate change in this fabric cycle the new base stands. -/
theorem rateAfterSet_eq_self {b : Block} (h : ∀ r fc, b.time.rateWas = some (r, fc) → fabric fc ≠ fabric b.now) : rateAfterSet b = b := by
  unfold rateAfterSet
  split
  case h_1 r fc hw => exact if_neg (h r fc hw)
  case h_2 => rfl

/-- A rate change of this fabric cycle, at fc from the old rate r, moves the new base to fc. -/
theorem rateAfterSet_setTime {b : Block} {f fc : Nat} {r : Int} (hw : b.time.rateWas = some (r, fc)) (hf : fabric fc = fabric b.now) :
    rateAfterSet { b with time := setTime f b.time } = { b with time := { setTime f b.time with
      base := (setValue b.time + ((fc : Int) - f) * (2 ^ 40 + r) / 2 ^ 42) * 2 ^ 32, fB := fc } } := by
  rw [← stAt_setTime f fc r b.time]
  simp [rateAfterSet, setTime, hw, hf, modTime]

/-- Settles O16: each clause is the effect of its command in operation, read from the lemmas above. -/
theorem registerAndStagingWrites : Obligations.register_and_staging_writes := by
  intro s h
  refine ⟨fun k l hk hl => ?_, fun l hl => ?_, fun l hl => ?_, fun m l hm hl => ?_, fun off l _ ho => ?_,
    fun off l _ hf => ⟨fun h1 h2 => ?_, fun hc => ?_⟩, ?_, fun h1 h2 => ⟨fun hn => ?_, fun r fc hw hf => ?_⟩, fun hs => ?_⟩
  · exact act_ended h rfl ((registerWriteStep_word hl (by omega) _).trans (bar0Write_setpoint hk _ _))
  · exact act_ended h rfl ((registerWriteStep_word hl (by decide) _).trans (bar0Write_setLo _ _))
  · exact act_ended h rfl ((registerWriteStep_word hl (by decide) _).trans (bar0Write_setHi _ _))
  · exact act_ended h rfl ((registerWriteStep_word hl (by omega) _).trans (bar0Write_doorbell hm _ _))
  · exact act_ended h rfl (registerWriteStep_ignored ho _)
  · exact act_ended h rfl (stagingWriteStep_open (stagingOpen_eq_true h1 h2) hf)
  · exact act_ended h rfl (stagingWriteStep_closed (stagingOpen_eq_false hc))
  · exact ⟨frcLoReadStep s.toBlock, act_ended h rfl rfl, rfl, rfl, rfl⟩
  · exact act_ended h rfl ((setGoStep_steps h1 h2).trans (rateAfterSet_eq_self hn))
  · exact act_ended h rfl ((setGoStep_steps h1 h2).trans (rateAfterSet_setTime hw hf))
  · exact act_ended h rfl (setGoStep_setsRef hs)

end Sys2Proof.Machine
end

section
/-!
PROOFS. PARAM_WRITE: the parameters an applied item leaves, and the answers (R10, R644, R645, R655).
-/

namespace Sys2Proof.Machine

/-! ### PARAM_WRITE: what an item does to the parameters -/

theorem parW_congr {b c : Block} (h : b.par = c.par) (i : Nat) : parW b i = parW c i := by
  unfold parW; rw [h]

/-- A scalar put in force reads back, also one that equals its default. -/
theorem parW_parSet_same (i : Nat) (v : W32) (b : Block) : parW (parSet i v b) i = v := by
  unfold parW parSet
  by_cases h : v = paramDefault i
  · simp [h, tfind_tdel_same]
  · simp [h, tfind_tput_same]

theorem parW_parSet_ne {i j : Nat} (v : W32) (b : Block) (h : j ≠ i) : parW (parSet i v b) j = parW b j := by
  unfold parW parSet
  by_cases hv : v = paramDefault i
  · simp [hv, tfind_tdel_ne _ h]
  · simp [hv, tfind_tput_ne _ v h]

@[simp] theorem raiseIf_par (c : Bool) (e : Nat) (b : Block) : (raiseIf c e b).par = b.par :=
  raiseIf_keeps Block.par (fun _ _ => rfl) c e b

@[simp] theorem addItem_par (x : VarItem) (b : Block) : (addItem x b).par = b.par := by
  unfold addItem; split <;> rfl

@[simp] theorem addItem_now (x : VarItem) (b : Block) : (addItem x b).now = b.now := by
  unfold addItem; split <;> rfl

/-- A write that the twin's image may carry keeps the parameters and the instant. -/
theorem addItem_unless_par (p : Prop) [Decidable p] (x : VarItem) (b : Block) : (if p then b else addItem x b).par = b.par := by
  split <;> simp

theorem addItem_unless_now (p : Prop) [Decidable p] (x : VarItem) (b : Block) : (if p then b else addItem x b).now = b.now := by
  split <;> simp

@[simp] theorem requestSwap_par (l : Nat) (x host : Bool) (b : Block) : (requestSwap l x host b).par = b.par := by
  unfold requestSwap; dsimp only; split <;> rfl

@[simp] theorem gearWritten_par (i : Nat) (b : Block) : (gearWritten i b).par = b.par := by
  unfold gearWritten; dsimp only; repeat' split
  all_goals rfl

@[simp] theorem commitRhythm_par (b : Block) : (commitRhythm b).par = b.par := by
  unfold commitRhythm; dsimp only; split <;> rfl

@[simp] theorem driveHost_par (b : Block) : (driveHost b).par = b.par := by
  unfold driveHost; split
  · exact kept_forEach Block.par (fun k b => driveCmd k (bitAt b.seq.cmdHost k) b) (fun _ _ => rfl) _ _
  · rfl

@[simp] theorem rolesChanged_par (b : Block) : (rolesChanged b).par = b.par := by
  unfold rolesChanged; split
  · exact driveHost_par _
  · rfl

@[simp] theorem rpcSparse_par (b : Block) : (rpcSparse b).par = b.par :=
  kept_forEach Block.par _ (fun r b => by simp [rpcStatus]) _ _

@[simp] theorem setRole_par (r : Role) (b : Block) : (setRole r b).par = b.par := by
  unfold setRole; split <;> rfl

@[simp] theorem commitTwin_par (was : Bool) (b : Block) : (commitTwin was b).par = b.par := by
  unfold commitTwin
  extract_lets on t b1
  have h1 : b1.par = b.par := rfl
  clear_value b1
  repeat' split
  all_goals simp [h1]

@[simp] theorem ptpRestart_par (b : Block) : (ptpRestart b).par = b.par := rfl

/-- What follows a scalar's coming into force changes no parameter. -/
theorem paramInForce_par (i : Nat) (v : W32) (b : Block) : (paramInForce i v b).par = (parSet i v b).par := by
  unfold paramInForce
  dsimp only
  repeat' split
  all_goals simp

theorem setScalar_par (i : Nat) (v : W32) (b : Block) : (setScalar i v b).par = (parSet i v b).par := by
  unfold setScalar
  dsimp only
  repeat' split
  all_goals simp [paramInForce_par]

/-- A scalar item is written as its row's effect says (R10). -/
theorem applyWrite_scalar {i : PItem} (h : isScalar i.idx = true) (m last k : Nat) (b : Block) :
    applyWrite m last (k, i) b = scalarItem i b := by
  simp only [isScalar, Bool.not_eq_true', Bool.or_eq_false_iff] at h
  obtain ⟨⟨⟨hb, hw⟩, hc⟩, hi⟩ := h
  simp [applyWrite, hb, hw, hc, hi]

/-- R10, R645: a NEXT CYCLE scalar waits and leaves the values in force. -/
theorem scalarItem_par_of_nextCycle {i : PItem} {r : PRow} {x y : Nat} (hr : paramRow i.idx = some (r, x, y))
    (he : r.eff = .nextCycle) (b : Block) : (scalarItem i b).par = (pendScalar i.idx (heldItem i) b).par := by
  unfold scalarItem
  extract_lets v b1
  have h1 : (pendScalar i.idx v b1).par = (pendScalar i.idx v b).par := by
    have hp : b1.par = b.par := addItem_unless_par _ _ _
    have hn : b1.now = b.now := addItem_unless_now _ _ _
    simp only [pendScalar, hp, hn]
  clear_value b1
  simp only [hr, he, if_true]
  split
  · exact (requestSwap_par _ _ _ _).trans h1
  · exact h1

/-- R10: any other scalar is put in force. -/
theorem scalarItem_par_of_now {i : PItem} {r : PRow} {x y : Nat} (hr : paramRow i.idx = some (r, x, y))
    (he : r.eff ≠ .nextCycle) (b : Block) : (scalarItem i b).par = (parSet i.idx (heldItem i) b).par := by
  unfold scalarItem
  extract_lets v b1
  have hp : b1.par = b.par := addItem_unless_par _ _ _
  clear_value b1
  simp only [hr, he, if_false, setScalar_par]
  simp only [parSet, hp, v]

/-! ### PARAM_WRITE: the answer -/

theorem opParamWrite_of_badCount {r : MbxReq} (h : r.arg0 = 0 ∨ 64 < r.arg0) (m : Nat) (b : Block) :
    opParamWrite m r b = ({ status := 6 }, b) := by
  simp [opParamWrite, h, opErr]

theorem opParamWrite_of_committing {r : MbxReq} {b : Block} (h1 : 1 ≤ r.arg0) (h2 : r.arg0 ≤ 64) (hc : b.host.committing = true)
    (m : Nat) : opParamWrite m r b = ({ status := 0xD }, b) := by
  simp [opParamWrite, show ¬ (r.arg0 = 0 ∨ 64 < r.arg0) by omega, hc, opErr]

theorem opParamWrite_of_badLength {r : MbxReq} {b : Block} (h1 : 1 ≤ r.arg0) (h2 : r.arg0 ≤ 64) (hc : b.host.committing = false)
    (hl : (itemsOf r.payload).2 ≠ none ∨ (itemsOf r.payload).1.length ≠ r.arg0 ∨ r.payload.length ≠ r.len) (m : Nat) :
    opParamWrite m r b = ({ status := 5 }, b) := by
  rw [← Option.isSome_iff_ne_none] at hl
  simp only [opParamWrite, show ¬ (r.arg0 = 0 ∨ 64 < r.arg0) by omega, hc, if_false, Bool.false_eq_true]
  rw [if_pos hl]
  rfl

/-- The payload of a PARAM_WRITE that passes the checks on its form (R644, R655). -/
structure WritesItems (r : MbxReq) (b : Block) (l : List PItem) : Prop where
  least : 1 ≤ r.arg0
  most : r.arg0 ≤ 64
  idle : b.host.committing = false
  items : itemsOf r.payload = (l, none)
  count : l.length = r.arg0
  whole : r.payload.length = r.len

section
variable {r : MbxReq} {b : Block} {l : List PItem} (h : WritesItems r b l)
include h

/-- R644: a failing item ends the command; only BUSY marks the ramp channel whose queue was full. -/
theorem opParamWrite_of_firstBad {k st : Nat} (hb : firstBad b l = some (k, st)) (hs : st ≠ 0xD) (m : Nat) :
    opParamWrite m r b = ({ status := st, detail := k, item := ((l[k]?).map (·.idx)).getD 0 }, b) := by
  obtain ⟨h1, h2, hc, hi, hn, hw⟩ := h
  have hidx : ((l[k]?).getD { idx := 0, len := 0, val := [] }).idx = ((l[k]?).map (·.idx)).getD 0 := by
    cases l[k]? <;> rfl
  simp only [opParamWrite, show ¬ (r.arg0 = 0 ∨ 64 < r.arg0) by omega, hc, hi, hn, hw, hb, hs, hidx, if_false, Bool.false_eq_true,
    Option.isSome_none, ne_eq, not_true_eq_false, or_self]
  split <;> rfl

/-- R644: a cross-check that fails names the first item with which it fails. -/
theorem opParamWrite_of_crossBad (hb : firstBad b l = none) (hx : crossBad b l = true) {k : Nat}
    (hk : ((upto l.length).find? fun k => crossBad b (l.take (k + 1))) = some k) (m : Nat) :
    opParamWrite m r b = ({ status := 8, detail := k, item := ((l[k]?).map (·.idx)).getD 0 }, b) := by
  obtain ⟨h1, h2, hc, hi, hn, hw⟩ := h
  rw [hn] at hk
  simp [opParamWrite, show ¬ (r.arg0 = 0 ∨ 64 < r.arg0) by omega, hc, hi, hn, hw, hb, hx, hk]

/-- R645: items that pass every check apply in order; the command ends unless a bank record waits for an image. -/
theorem opParamWrite_of_good (hb : firstBad b l = none) (hx : crossBad b l = false) (m : Nat) :
    opParamWrite m r b = ({ wait := partnerPresent b && b.tw.role = .active && l.any fun i => isBankIdx i.idx },
      forEach (mapIdx (fun k i => (k, i)) 0 l) (applyWrite m (lastBank l)) b) := by
  obtain ⟨h1, h2, hc, hi, hn, hw⟩ := h
  simp [opParamWrite, show ¬ (r.arg0 = 0 ∨ 64 < r.arg0) by omega, hc, hi, hn, hw, hb, hx]
end

/-- No bank record waits for an image. -/
theorem bankWait_eq_false {b : Block} {l : List PItem}
    (h : partnerPresent b = false ∨ b.tw.role ≠ .active ∨ ∀ i ∈ l, isBankIdx i.idx = false) :
    (partnerPresent b && b.tw.role = .active && l.any fun i => isBankIdx i.idx) = false := by
  rcases h with h | h | h
  · simp [h]
  · simp [h]
  · have : (l.any fun i => isBankIdx i.idx) = false := by simpa using h
    simp [this]

/-- PARAM_WRITE completes with the answer of its operation. -/
theorem paramWrite_completes {s : State} {m : Nat} (h : s.asked m 0x11) {st d it : Nat} {b : Block}
    (e : opParamWrite m (s.request m) (s.runs m) = ({ status := st, detail := d, item := it }, b)) :
    exec (.paramWrite m) s = completed s m st d it [] b :=
  have ⟨_, hm, _⟩ := h
  mail_completes (.paramWrite m) (decide_eq_true hm) h opParamWrite e

/-- Settles O25: the answers of `opParamWrite` by the checks in their order, then the parameters an applied scalar leaves. -/
theorem paramWriteIsAllOrNothing : Obligations.param_write_is_all_or_nothing := by
  intro s m ha
  refine ⟨fun h => ?_, fun h1 h2 hc => ?_, fun h1 h2 hc hl => ?_, fun l h1 h2 hc hi hn hw => ?_, ?_⟩
  · exact paramWrite_completes ha (opParamWrite_of_badCount h m _)
  · exact paramWrite_completes ha (opParamWrite_of_committing (b := s.runs m) h1 h2 hc m)
  · exact paramWrite_completes ha (opParamWrite_of_badLength (b := s.runs m) h1 h2 hc hl m)
  · have w : WritesItems (s.request m) (s.runs m) l := ⟨h1, h2, hc, hi, hn, hw⟩
    refine ⟨fun k st hb hs => ?_, fun hb hx k hk => ?_, fun hb hx hwait => ?_⟩
    · exact paramWrite_completes ha (opParamWrite_of_firstBad w hb hs m)
    · exact paramWrite_completes ha (opParamWrite_of_crossBad w hb hx hk m)
    · have e := opParamWrite_of_good w hb hx m
      rw [bankWait_eq_false (b := s.runs m) hwait] at e
      exact paramWrite_completes ha e
  · intro b last k i r x y hs hr
    rw [applyWrite_scalar hs]
    refine ⟨fun he => scalarItem_par_of_nextCycle hr he b, fun he => ?_⟩
    have hp := scalarItem_par_of_now hr he b
    refine ⟨?_, fun j hj => ?_, ?_⟩
    · rw [parW_congr hp, parW_parSet_same]
    · rw [parW_congr hp, parW_parSet_ne _ _ hj]
    · rw [hp]; rfl

end Sys2Proof.Machine
end

section
/-!
PROOFS. The mailbox commands on cells and ports: CELL_STATE, CELL_RECORD_WRITE, CELL_SERVICE, PORT_DARK and RING_REJOIN (R36, R38,
R116, R124, R492, R641).
-/

namespace Sys2Proof.Machine

/-! ### The change a CELL_STATE asks for (R36, R489) -/

theorem stateOfCode_dest {k : Nat} {d : CState} (h : stateOfCode k = some d) : d = .available ∨ d = .reserve ∨ d = .bypassed := by
  unfold stateOfCode at h
  split at h <;> simp at h <;> simp [← h]

theorem stateOfCode_eq_none {k : Nat} (h : 3 ≤ k) : stateOfCode k = none := by
  obtain ⟨j, rfl⟩ := Nat.exists_eq_add_of_le' h
  rfl

theorem configured_eq_true {b : Block} {g : Nat} (hg : g < 6144) (hc : (cell b g).st ≠ .none) : configured b g = true := by
  simp [configured, hg, hc]

/-- R36: any cell may be bypassed; a bypassed or faulted one comes back while its arm does not switch, and one in service changes
to the other of its two states. -/
theorem changeAllowed_iff {b : Block} {g k : Nat} {d : CState} (hd : stateOfCode k = some d) :
    changeAllowed b g d = true ↔
      d = .bypassed ∨ ((cell b g).st = .bypassed ∨ (cell b g).st = .faulted) ∧ switching b (cellArm b g) = false ∨
        ((cell b g).st = .available ∨ (cell b g).st = .reserve) ∧ (cell b g).st ≠ d := by
  rcases stateOfCode_dest hd with rfl | rfl | rfl <;> cases hst : (cell b g).st <;> simp [changeAllowed, inService, hst]

/-- R36: a cell is not asked into service where it is already so, nor out of BYPASSED or FAULTED while its arm switches. -/
theorem changeAllowed_eq_false {b : Block} {g k : Nat} {d : CState} (hd : stateOfCode k = some d) (hb : d ≠ .bypassed)
    (h : (cell b g).st = d ∨ ((cell b g).st = .bypassed ∨ (cell b g).st = .faulted) ∧ switching b (cellArm b g) = true) :
    changeAllowed b g d = false := by
  rw [← Bool.not_eq_true, changeAllowed_iff hd]
  rcases h with rfl | ⟨hst | hst, hsw⟩
  · rcases stateOfCode_dest hd with h | h | h
    · simp [h]
    · simp [h]
    · exact absurd h hb
  · simp [hb, hst, hsw]
  · simp [hb, hst, hsw]

/-- R489 holds back only a retired cell worn to retire_wear that is asked into service. -/
theorem wornBack_eq_false {b : Block} {g : Nat} {d : CState}
    (h : d = .bypassed ∨ (cell b g).tent.retired = false ∨ (cell b g).tent.w < parN b (0x90A0 + cellArm b g)) :
    ((d = .available || d = .reserve) && (cell b g).tent.retired && decide (parN b (0x90A0 + cellArm b g) ≤ (cell b g).tent.w)) = false := by
  rcases h with rfl | h | h <;> simp [*]

/-! ### The operations on cells -/

section
variable {s : State} {m g : Nat} {b : Block}

theorem opCellState_of_badCode (hl : s.carries m 0) (hg : (s.request m).arg0 = g) (hc : stateOfCode (s.request m).arg1 = none) :
    opCellState m (s.request m) b = ({ status := 6, item := g }, b) := by
  simp only [opCellState, needLen_carried hl, hc, hg]

section
variable {d : CState} (hl : s.carries m 0) (hg : (s.request m).arg0 = g) (hd : stateOfCode (s.request m).arg1 = some d)
include hl hg hd

theorem opCellState_of_notAllowed (ha : changeAllowed b g d = false) :
    opCellState m (s.request m) b = ({ status := 6, item := g }, b) := by
  simp [opCellState, needLen_carried hl, hd, hg, ha]

variable (hc : configured b g = true) (ha : changeAllowed b g d = true)
  (hw : d = .bypassed ∨ (cell b g).tent.retired = false ∨ (cell b g).tent.w < parN b (0x90A0 + cellArm b g))
include hc ha hw

/-- R38: too few AVAILABLE cells would stay in a switching arm. -/
theorem opCellState_of_tooFew (hn : d ≠ .available) (hst : (cell b g).st = .available) (hsw : switching b (cellArm b g) = true)
    (hf : availAfter b g < minAvail b (cellArm b g)) :
    opCellState m (s.request m) b = ({ status := 0x14, item := g }, b) := by
  have hf : (d ≠ .available && (cell b g).st = .available && switching b (cellArm b g) &&
      decide (availAfter b g < minAvail b (cellArm b g))) = true := by simp [hn, hst, hsw, hf]
  simp only [opCellState, needLen_carried hl, hd, hg, hc, ha, wornBack_eq_false hw, hf, Bool.not_true, Bool.or_self, Bool.false_eq_true,
    if_false, if_true]

theorem opCellState_of_granted (hf : d = .available ∨ (cell b g).st ≠ .available ∨ switching b (cellArm b g) = false ∨
      minAvail b (cellArm b g) ≤ availAfter b g) :
    opCellState m (s.request m) b = ({ wait := true }, addChange (.host g d m) b) := by
  have hf : (d ≠ .available && (cell b g).st = .available && switching b (cellArm b g) &&
      decide (availAfter b g < minAvail b (cellArm b g))) = false := by
    rcases hf with h | h | h | h <;> simp [h]
  simp only [opCellState, needLen_carried hl, hd, hg, hc, ha, wornBack_eq_false hw, hf, Bool.not_true, Bool.or_self, Bool.false_eq_true,
    if_false]
end

section
variable (hg : (s.request m).arg0 = g) (hc : configured b g = true)
include hg hc

section
variable (hi : b.host.committing = false)
  (hsw : switching b (cellArm b g) = false ∨ (cell b g).st = .bypassed ∨ (cell b g).st = .faulted)
include hi hsw

/-- R491: a reset takes the record the cell starts with. -/
theorem opCellRecordWrite_reset (h1 : (s.request m).arg1 = 1) (hl : s.carries m 0) :
    opCellRecordWrite m (s.request m) b =
      opOk { b with tentNext := b.tentNext ++ [{ cell := g, val := freshRecord b g, fresh := true }] } := by
  rcases hsw with h | h | h <;> simp [opCellRecordWrite, needLen_carried hl, h1, hg, hi, hc, h]

/-- R492: a restored ceiling is at most V_CEIL. -/
theorem opCellRecordWrite_restore (h1 : (s.request m).arg1 = 0) (hl : s.carries m 24) :
    opCellRecordWrite m (s.request m) b =
      opOk { b with tentNext := b.tentNext ++ [{ cell := g, val := { recordOf (s.request m).payload with
        ceil := min (recordOf (s.request m).payload).ceil (freshRecord b g).ceil }, fresh := true }] } := by
  rcases hsw with h | h | h <;> simp [opCellRecordWrite, needLen_carried hl, h1, hg, hi, hc, h]
end

/-- R641: the port that serves the cell takes the register access. -/
theorem opCellService_of_served (hl : s.carries m 4) (ha : (s.request m).arg1 < 512) {p : Nat} (hp : servingPort b g = some p) :
    opCellService m (s.request m) b = ({ wait := true }, svcAdd p g (bitAt (s.request m).arg1 8) ((s.request m).arg1 % 256)
      (BitVec.ofNat 32 (le 4 (s.request m).payload)) m b) := by
  simp [opCellService, needLen_carried hl, hg, hc, ha, hp]
end

end

/-! ### The operations on ports -/

section
variable {s : State} {m p : Nat} {b : Block} (hl : s.carries m 0) (hp : (s.request m).arg0 = p)
include hl hp

section
variable (hlt : p < 128) (hu : portUsed b p = true)
include hlt hu

theorem opPortDark_of_switching (h1 : (s.request m).arg1 ≤ 1) (hsw : switching b (strArm b p) = true) :
    opPortDark m (s.request m) b = ({ status := 0x12, item := p }, b) := by
  simp [opPortDark, needLen_carried hl, hp, hlt, hu, h1, hsw]

variable (hsw : switching b (strArm b p) = false)
include hsw

theorem opPortDark_force (h1 : (s.request m).arg1 = 1) :
    opPortDark m (s.request m) b = opOk (modPort p (fun x => { x with forced := true }) (enterDark p (portDarkBreak p b))) := by
  simp [opPortDark, needLen_carried hl, hp, hlt, hu, h1, hsw]

/-- A released port whose group works leaves DARK for SEEK (R91, R121). -/
theorem opPortDark_release (h1 : (s.request m).arg1 = 0) (hf : (port b p).forced = true)
    (hg : bitAt b.rst.pgFailed (p / 16) = false) (hs : bitAt b.model.pgStopped (p / 16) = false) :
    opPortDark m (s.request m) b = opOk (enterSeek p (modPort p (fun x => { x with forced := false }) b)) := by
  simp [opPortDark, needLen_carried hl, hp, hlt, hu, h1, hsw, hf, hg, hs]

theorem opPortDark_notForced (h1 : (s.request m).arg1 = 0) (hf : (port b p).forced = false) :
    opPortDark m (s.request m) b = opOk b := by
  simp [opPortDark, needLen_carried hl, hp, hlt, hu, h1, hsw, hf]
end

theorem opRingRejoin_of_noRing (h : 128 ≤ p ∨ portRing b p = false) : opRingRejoin m (s.request m) b = ({ status := 6, item := p }, b) := by
  simp [opRingRejoin, needLen_carried hl, hp, h]

variable (hlt : p < 128) (hr : portRing b p = true)
include hlt hr

theorem opRingRejoin_of_whole (hb : (port b p).brk = false) : opRingRejoin m (s.request m) b = opOk b := by
  simp [opRingRejoin, needLen_carried hl, hp, hlt, hr, hb]

theorem opRingRejoin_of_notRepaired (hb : (port b p).brk = true) (hx : ringRepaired b p = false) :
    opRingRejoin m (s.request m) b = ({ status := 0x1B, item := p }, b) := by
  simp [opRingRejoin, needLen_carried hl, hp, hlt, hr, hb, hx]

/-- R116: a switching arm rejoins the ring at its next window start. -/
theorem opRingRejoin_of_repaired (hb : (port b p).brk = true) (hx : ringRepaired b p = true) :
    opRingRejoin m (s.request m) b = opOk (if switching b (strArm b p) = true then
      modArm (strArm b p) (fun x => { x with rejoin := insertNat p x.rejoin }) b else b) := by
  by_cases hsw : switching b (strArm b p) = true
  · simp [opRingRejoin, needLen_carried hl, hp, hlt, hr, hb, hx, hsw]
  · simp [opRingRejoin, needLen_carried hl, hp, hlt, hr, hb, hx, hsw]
end

/-- A port forced dark is in DARK with its transmitter disabled (R124, R121). -/
theorem port_forcedDark (p : Nat) (b : Block) {c : Block} (h : c = modPort p (fun x => { x with forced := true }) (enterDark p b)) :
    (port c p).forced = true ∧ (port c p).st = .dark ∧ (port c p).txdis = true := by
  rw [h, port_modPort_same, enterDark, port_modPort_same]
  exact ⟨rfl, rfl, rfl⟩

/-! ### The commands -/

section
variable {s : State} {m : Nat}

/-- CELL_STATE completes with the answer of its operation. -/
theorem cellState_completes (h : s.asked m 0x30) {st it : Nat}
    (e : opCellState m (s.request m) (s.runs m) = ({ status := st, item := it }, s.runs m)) :
    exec (.cellState m) s = completed s m st 0 it [] (s.runs m) :=
  have ⟨_, hm, _⟩ := h
  mail_completes (.cellState m) (decide_eq_true hm) h opCellState e

/-- CELL_RECORD_WRITE completes with the answer of its operation. -/
theorem cellRecordWrite_completes (h : s.asked m 0x33) {b : Block}
    (e : opCellRecordWrite m (s.request m) (s.runs m) = opOk b) :
    exec (.cellRecordWrite m) s = completed s m 0 0 0 [] b :=
  have ⟨_, hm, _⟩ := h
  mail_completes (.cellRecordWrite m) (decide_eq_true hm) h opCellRecordWrite e

/-- PORT_DARK completes with the answer of its operation. -/
theorem portDark_completes (h : s.asked m 0x35) {st it : Nat} {b : Block}
    (e : opPortDark m (s.request m) (s.runs m) = ({ status := st, item := it }, b)) :
    exec (.portDark m) s = completed s m st 0 it [] b :=
  have ⟨_, hm, _⟩ := h
  mail_completes (.portDark m) (decide_eq_true hm) h opPortDark e

/-- RING_REJOIN completes with the answer of its operation. -/
theorem ringRejoin_completes (h : s.asked m 0x36) {st it : Nat} {b : Block}
    (e : opRingRejoin m (s.request m) (s.runs m) = ({ status := st, item := it }, b)) :
    exec (.ringRejoin m) s = completed s m st 0 it [] b :=
  have ⟨_, hm, _⟩ := h
  mail_completes (.ringRejoin m) (decide_eq_true hm) h opRingRejoin e
end

/-- Settles O26: each clause is the answer of its operation on the block while the mailbox is RUNNING, which differs from the
block before in the mailbox only. -/
theorem cellAndPortCommandsOfTheMailbox : Obligations.cell_and_port_commands_of_the_mailbox := by
  intro s m g p
  refine ⟨fun d ha hl hg hlt hst hd => ?_, fun ha hl hg hc => ?_, fun ha hg hlt hst hi hsw => ?_,
    fun ha hl hg hlt hst hr hp => ?_, fun ha hl hp hlt hu => ?_, fun ha hl hp => ?_⟩
  · have ⟨_, hm, _⟩ := ha
    have hc : configured (s.runs m) g = true := configured_eq_true hlt hst
    refine ⟨fun hch hw hf => ?_, fun hb h => ?_, fun hdest hav hw hsw hf => ?_⟩
    · exact mail_waits (.cellState m) (decide_eq_true hm) ha opCellState rfl
        (opCellState_of_granted hl hg hd hc ((changeAllowed_iff (b := s.runs m) hd).2 hch) hw hf)
    · exact cellState_completes ha (opCellState_of_notAllowed hl hg hd (changeAllowed_eq_false (b := s.runs m) hd hb h))
    · have hn : d ≠ .available := by rcases hdest with rfl | rfl <;> decide
      have hch : changeAllowed (s.runs m) g d = true := (changeAllowed_iff hd).2 (.inr (.inr ⟨.inl hav, fun e => hn (e ▸ hav)⟩))
      exact cellState_completes ha
        (opCellState_of_tooFew (b := s.runs m) hl hg hd hc hch (hw.imp_right .inl) hn hav hsw hf)
  · exact cellState_completes ha (opCellState_of_badCode hl hg (stateOfCode_eq_none hc))
  · have hc : configured (s.runs m) g = true := configured_eq_true hlt hst
    exact ⟨fun h1 hl => cellRecordWrite_completes ha (opCellRecordWrite_reset hg hc hi hsw h1 hl),
      fun h1 hl => cellRecordWrite_completes ha (opCellRecordWrite_restore hg hc hi hsw h1 hl)⟩
  · have ⟨_, hm, _⟩ := ha
    exact mail_waits (.cellService m) (decide_eq_true hm) ha opCellService rfl
      (opCellService_of_served (b := s.runs m) hg (configured_eq_true hlt hst) hl hr hp)
  · refine ⟨fun h1 hsw => ?_, fun h1 hsw => ?_, fun h1 hsw hf hpg hs => ?_, fun h1 hsw hf => ?_⟩
    · exact portDark_completes ha (opPortDark_of_switching (b := s.runs m) hl hp hlt hu h1 hsw)
    · obtain ⟨hforced, hdark, htx⟩ := port_forcedDark p (portDarkBreak p (s.runs m)) rfl
      exact ⟨_, portDark_completes ha (opPortDark_force (b := s.runs m) hl hp hlt hu hsw h1), hforced, hdark, htx, rfl⟩
    · exact portDark_completes ha (opPortDark_release (b := s.runs m) hl hp hlt hu hsw h1 hf hpg hs)
    · exact portDark_completes ha (opPortDark_notForced (b := s.runs m) hl hp hlt hu hsw h1 hf)
  · refine ⟨fun h => ?_, fun hlt hr => ⟨fun hb => ?_, fun hb hx => ?_, fun hb hx => ?_⟩⟩
    · exact ringRejoin_completes ha (opRingRejoin_of_noRing (b := s.runs m) hl hp h)
    · exact ringRejoin_completes ha (opRingRejoin_of_whole (b := s.runs m) hl hp hlt hr hb)
    · exact ringRejoin_completes ha (opRingRejoin_of_notRepaired (b := s.runs m) hl hp hlt hr hb hx)
    · exact ringRejoin_completes ha (opRingRejoin_of_repaired (b := s.runs m) hl hp hlt hr hb hx)

end Sys2Proof.Machine
end

section
/-!
PROOFS. The frame of the evaluation that ends every command (R64, R660).
-/

namespace Sys2Proof.Machine

/-- Settles O9: every part named is one that `settle` leaves alone. -/
theorem commandEndLeavesTheRest : Obligations.command_end_leaves_the_rest := by
  intro s b t
  exact ⟨fun a => congrArg (memRead · a) (settle_mem b), settle_par b, settle_model b, settle_cyc b, settle_changes b, settle_si b,
    settle_tentNext b, settle_gov b, settle_eng b, settle_spb b, settle_graph b, settle_time b, settle_rst b, settle_now b, rfl⟩

end Sys2Proof.Machine
end

section
/-!
PROOFS. CYC_START: the rhythm, the setpoints and the order of the work of a t0 (R48, R50, R65).
-/

namespace Sys2Proof.Machine

/-! ### The rhythm (R48) -/

theorem le_nextOn (n phase x : Nat) : x ≤ nextOn n phase x := Nat.le_add_right _ _

/-- The next instant of a rhythm, with the rest of a division by the cycle's length that leads to it. -/
theorem nextOn_eq {n : Nat} (hn : 1 ≤ n) (phase x : Nat) :
    (nextOn n phase x : Int) = x + (8 * (phase : Int) - x) % (2000 * n) := by
  have hmax : max 1 (2000 * n) = 2000 * n := by omega
  have hrest : 0 ≤ (8 * (phase : Int) - x) % (2000 * n) := Int.emod_nonneg _ (by omega)
  simp [nextOn, hmax, hrest]

theorem nextOn_lt {n : Nat} (hn : 1 ≤ n) (phase x : Nat) : nextOn n phase x < x + 2000 * n := by
  have hrest := Int.emod_lt_of_pos (8 * (phase : Int) - x) (b := 2000 * n) (by omega)
  have := nextOn_eq hn phase x
  omega

theorem nextOn_onRhythm {n : Nat} (hn : 1 ≤ n) (phase x : Nat) : ((nextOn n phase x : Int) - 8 * phase) % (2000 * n) = 0 := by
  refine Int.emod_eq_zero_of_dvd ⟨-((8 * (phase : Int) - x) / (2000 * n)), ?_⟩
  rw [nextOn_eq hn, Int.emod_def]
  ring

/-- R48, R50: without a change of rhythm the cycle that begins keeps N and phase, and time is carried to its t0. -/
theorem beginCycle_sameRhythm {b : Block} (hr : b.cyc.newRhythm = none) (hs : b.cyc.started = true) :
    (beginCycle b).cyc.t0 = nextOn b.cyc.n b.cyc.phase (max b.now (b.cyc.t0 + 1)) ∧ (beginCycle b).now = max b.now (beginCycle b).cyc.t0 ∧
    (beginCycle b).cyc.n = b.cyc.n ∧ (beginCycle b).cyc.phase = b.cyc.phase ∧ (beginCycle b).cyc.started = true := by
  have hnext : nextStart b = (nextOn b.cyc.n b.cyc.phase (max b.now (b.cyc.t0 + 1)), false) := by simp [nextStart, hr, hs]
  simp [beginCycle, hnext, hr, modTw, atTime]

/-! ### The setpoints (R65) -/

/-- Register writes entered one after the other into the table of latched values. -/
def latchAll (ws : List (Nat × W32 × Nat)) (t : Tab W32) : Tab W32 := ws.foldl (fun t w => tset 0#32 t w.1 w.2.1) t

theorem tget_latchAll_of_notWritten {k : Nat} {ws : List (Nat × W32 × Nat)} (h : ∀ w ∈ ws, w.1 ≠ k) (t : Tab W32) :
    tget 0#32 (latchAll ws t) k = tget 0#32 t k := by
  induction ws generalizing t with
  | nil => rfl
  | cons w ws ih =>
    obtain ⟨hw, hws⟩ := List.forall_mem_cons.1 h
    exact (ih hws _).trans (tget_tset_ne _ _ _ hw.symm)

theorem tget_latchAll_of_last {k : Nat} {r : List (Nat × W32 × Nat)} (h : ∀ w ∈ r, w.1 ≠ k) (l : List (Nat × W32 × Nat)) (v : W32) (u : Nat)
    (t : Tab W32) : tget 0#32 (latchAll (l ++ (k, v, u) :: r) t) k = v := by
  have hsplit : latchAll (l ++ (k, v, u) :: r) t = latchAll r (tset 0#32 (latchAll l t) k v) := by simp [latchAll]
  rw [hsplit, tget_latchAll_of_notWritten h, tget_tset_same]

/-- The writes of a list that precede an instant's fabric cycle. -/
def writesBefore (t0 : Nat) (ws : List (Nat × W32 × Nat)) : List (Nat × W32 × Nat) := ws.filter fun w => decide (fabric w.2.2 < fabric t0)

theorem notWritten_before {t0 k : Nat} {ws : List (Nat × W32 × Nat)} (h : ∀ w ∈ ws, w.1 = k → ¬ fabric w.2.2 < fabric t0) :
    ∀ w ∈ writesBefore t0 ws, w.1 ≠ k := fun w hw hk => by
  obtain ⟨hmem, hdue⟩ := List.mem_filter.1 hw
  exact h w hmem hk (of_decide_eq_true hdue)

theorem latchSetpoints_latched {b : Block} (h : isActive b = true) :
    (latchSetpoints b).cyc.latched = latchAll (writesBefore b.cyc.t0 b.cyc.setWrites) b.cyc.latched := by
  simp only [latchSetpoints, h, if_true]; rfl

theorem latchSetpoints_setWrites {b : Block} (h : isActive b = true) :
    (latchSetpoints b).cyc.setWrites = b.cyc.setWrites.filter (fun w => !decide (fabric w.2.2 < fabric b.cyc.t0)) := by
  simp only [latchSetpoints, h, if_true]

/-- R65: a register that no write before t0's fabric cycle names keeps its latched value. -/
theorem latchSetpoints_keeps {b : Block} (h : isActive b = true) {k : Nat}
    (hk : ∀ w ∈ b.cyc.setWrites, w.1 = k → ¬ fabric w.2.2 < fabric b.cyc.t0) :
    tget 0#32 (latchSetpoints b).cyc.latched k = tget 0#32 b.cyc.latched k := by
  rw [latchSetpoints_latched h, tget_latchAll_of_notWritten (notWritten_before hk)]

/-- R65: the last write before t0's fabric cycle is latched. -/
theorem latchSetpoints_takesLast {b : Block} (h : isActive b = true) {l r : List (Nat × W32 × Nat)} {k u : Nat} {v : W32}
    (hw : b.cyc.setWrites = l ++ (k, v, u) :: r) (hu : fabric u < fabric b.cyc.t0)
    (hr : ∀ w ∈ r, w.1 = k → ¬ fabric w.2.2 < fabric b.cyc.t0) : tget 0#32 (latchSetpoints b).cyc.latched k = v := by
  have hdue : writesBefore b.cyc.t0 b.cyc.setWrites = writesBefore b.cyc.t0 l ++ (k, v, u) :: writesBefore b.cyc.t0 r := by
    simp [writesBefore, hw, hu]
  rw [latchSetpoints_latched h, hdue, tget_latchAll_of_last (notWritten_before hr)]

/-! ### The work of a t0 -/

theorem cycStartStep_beforeStart {b : Block} (h : b.rst.phase ≠ .up) (smp : List (Nat × F32 × Bool)) : cycStartStep smp b = b :=
  if_pos h

/-- R696, R702: in DOZE and OFF the rhythm, the setpoints, the NEXT CYCLE values, power and the heartbeat go on. -/
theorem cycStartStep_withoutPower {b c : Block} (hup : b.rst.phase = .up) (hc : c = beginCycle (keepCurrents b))
    (hp : c.pwr.state = .doze ∨ c.pwr.state = .off) (smp : List (Nat × F32 × Bool)) :
    cycStartStep smp b = sendHb (pwrCycle { applyNext (latchSetpoints c) with time := { c.time with t0St := stNow c } }) := by
  subst hc
  exact (if_neg (not_not.2 hup)).trans (if_pos hp)

/-- In operation: the chain of R62 and R63, in the model's order (log entry 3), with a name for what each stage leaves. -/
theorem cycStartStep_inOperation {b t q u v c e d : Block} {smp : List (Nat × F32 × Bool)} (hup : b.rst.phase = .up)
    (ht : t = beginCycle (keepCurrents b)) (hdoze : t.pwr.state ≠ .doze) (hoff : t.pwr.state ≠ .off)
    (hq : q = lateDeadlines b.cyc.t0 (modTw (fun x => { x with quiet := false, waitImage := false }) t))
    (hu : u = cellChanges (perCycle (tentTakesEffect (queueCeilings (rpcItems (bgCommit
      (applyNext (latchSetpoints (chargeAccumulate (sampleOf smp) b.cyc.t0 q.cyc.t0 q)))))))))
    (hv : v = forEach (enabledArms u) deblockEffect u)
    (hc : c = tooShort (rejoinRings (portsReturn (dischargeCheck (roleUnreliable (if t.tw.quiet then handoverDeblocks v else v))))))
    (he : e = if stopped c 5 = true then c else rampItems c.eng.ramp (enginesCycle (sampleOf smp) c))
    (hd : d = cycleFrames (twinCycle (recCycle (adcCycle
      (if (stopped e 5 || decide (e.pwr.state = .hold)) = true then e else governorCycle e))))) :
    cycStartStep smp b = raise evCycStart (pwrCycle { d with time := { d.time with t0St := stNow d } }) := by
  have hsleep : ¬ (t.pwr.state = .doze ∨ t.pwr.state = .off) := not_or.2 ⟨hdoze, hoff⟩
  unfold cycStartStep
  simp only [hup, ne_eq, not_true_eq_false, if_false, ← ht, hsleep, ← hq, ← hu, ← hv, ← hc, ← he, ← hd]

/-- Settles O32: the rhythm, the latch and the cycle start are the lemmas above; in operation `cycStartStep` is the stated chain. -/
theorem cycleStartsMeetTheRhythm : Obligations.cycle_starts_meet_the_rhythm := by
  refine ⟨fun n phase x hn => ⟨le_nextOn n phase x, nextOn_lt hn phase x, nextOn_onRhythm hn phase x⟩,
    fun _ => beginCycle_sameRhythm,
    fun b ha => ⟨latchSetpoints_setWrites ha, fun _ => latchSetpoints_keeps ha, fun _ _ _ _ _ => latchSetpoints_takesLast ha⟩,
    fun s smp h => ⟨fun hp => ?_, fun hup b hb => ⟨fun hp => ?_, fun h1 h2 => ?_⟩⟩⟩
  · exact act_ended h rfl (cycStartStep_beforeStart hp smp)
  · exact act_ended h rfl (cycStartStep_withoutPower hup hb hp smp)
  · intro q hq u hu v hv c hc e he d hd
    exact act_ended h rfl (cycStartStep_inOperation hup hb h1 h2 hq hu hv hc he hd)

end Sys2Proof.Machine
end

section
/-!
PROOFS. Cycle values, report frames, the report deadline, the ranking and the window start (R54, R61, R116, R168, R184).
-/

namespace Sys2Proof.Machine

/-- A loop in which round k changes entry k by a function, while the blocks it passes keep a property. A round for an entry that
has had one is harmless if the function does nothing the second time. -/
theorem read_forEach_within {β : Type} (get : Block → Nat → β) (upd : Nat → Block → Block) (f : Nat → β → β) (P : Block → Prop)
    (keep : ∀ k s, P s → P (upd k s)) (same : ∀ k s, P s → get (upd k s) k = f k (get s k))
    (other : ∀ j k s, j ≠ k → get (upd k s) j = get s j) {l : List Nat} (hl : l.Nodup ∨ ∀ k x, f k (f k x) = f k x)
    {s : Block} (hs : P s) (j : Nat) : get (forEach l upd s) j = if j ∈ l then f j (get s j) else get s j := by
  induction l generalizing s with
  | nil => rfl
  | cons k t ih =>
    have ht : t.Nodup ∨ ∀ k x, f k (f k x) = f k x := hl.imp_left List.Nodup.of_cons
    have hrec := ih ht (keep k s hs)
    show get (forEach t upd (upd k s)) j = _
    by_cases hj : j = k
    · subst hj
      rw [hrec, same j s hs, if_pos List.mem_cons_self]
      split
      case isTrue hmem => exact hl.elim (fun hd => absurd hmem (List.nodup_cons.1 hd).1) (fun hi => hi j _)
      case isFalse => rfl
    · simp only [hrec, other j k s hj, List.mem_cons, hj, false_or]

theorem modArm_congr {a : Nat} {f g : ArmSt → ArmSt} {b : Block} (h : f (arm b a) = g (arm b a)) : modArm a f b = modArm a g b := by
  unfold arm at h
  simp only [modArm, tmod, h]

theorem arm_raise (e : Nat) (b : Block) (a : Nat) : arm (raise e b) a = arm b a := rfl

/-! ### ADC_READY (R54) -/

/-- The entry an input's mirror takes: its new cycle values in a regular sequence, otherwise the old ones without VALID. -/
def mirrored (b : Block) (k : Nat) (x : InSt) : InSt :=
  if inSeq b k then mirror b k x else
    { x with valid := false, calIn := false, nConv := 0, extrap := false, clip := false, opened := false, test := false, cycle := b.cyc.index }

/-- One input's round of ADC_READY. -/
def mirrorInput (k : Nat) (b : Block) : Block :=
  raiseIf ((mirrored b k (ainVal b k)).opened && !(ainVal b k).opened) evAdcOpenWire
    (raiseIf ((mirrored b k (ainVal b k)).clip && !(ainVal b k).clip) evAdcClip (modIn k (fun _ => mirrored b k (ainVal b k)) b))

theorem adcReadyStep_due {b : Block} (hs : b.cyc.started = true) (hr : b.cyc.adcReady = false) :
    adcReadyStep b = raise evAdcReady { forEach (upto 64) mirrorInput b with
      cyc := { (forEach (upto 64) mirrorInput b).cyc with adcReady := true } } := by
  unfold adcReadyStep
  rw [if_pos (by simp [hs, hr])]
  exact congrArg (fun f => raise evAdcReady { forEach (upto 64) f b with cyc := { (forEach (upto 64) f b).cyc with adcReady := true } })
    (show _ = mirrorInput from rfl)

theorem adcReadyStep_idle {b : Block} (h : b.cyc.started = false ∨ b.cyc.adcReady = true) : adcReadyStep b = b := by
  unfold adcReadyStep
  rcases h with h | h <;> simp [h]

/-- A block that differs from another in the inputs' mirror and the events only. -/
def sameButMirror (b c : Block) : Prop := { c with adc := { c.adc with inputs := b.adc.inputs }, ev := b.ev } = b

/-- What does not look at the mirror and the events reads alike in both. -/
theorem read_of_sameButMirror {α : Type} {b c : Block} (h : sameButMirror b c) (p : Block → α)
    (hp : ∀ (t : Block) i e, p { t with adc := { t.adc with inputs := i }, ev := e } = p t) : p c = p b :=
  (hp c _ _).symm.trans (congrArg p h)

theorem sameButMirror_refl (b : Block) : sameButMirror b b := rfl

theorem sameButMirror_ev {b c : Block} (h : sameButMirror b c) (e : EvSt) : sameButMirror b { c with ev := e } := h

theorem sameButMirror_raiseIf {b c : Block} (h : sameButMirror b c) (t : Bool) (e : Nat) : sameButMirror b (raiseIf t e c) := by
  unfold raiseIf
  split
  · exact sameButMirror_ev h _
  · exact h

theorem sameButMirror_modIn {b c : Block} (h : sameButMirror b c) (k : Nat) (f : InSt → InSt) : sameButMirror b (modIn k f c) := h

theorem sameButMirror_mirrorInput {b : Block} (k : Nat) (c : Block) (h : sameButMirror b c) : sameButMirror b (mirrorInput k c) :=
  sameButMirror_raiseIf (sameButMirror_raiseIf (sameButMirror_modIn h _ _) _ _) _ _

/-- The entry an input takes depends on its own old entry, not on those of other inputs. -/
theorem mirrored_congr {b c : Block} (h : sameButMirror b c) (k : Nat) (x : InSt) : mirrored c k x = mirrored b k x :=
  read_of_sameButMirror h (mirrored · k x) fun _ _ _ => rfl

theorem ainVal_raiseIf (t : Bool) (e : Nat) (b : Block) (k : Nat) : ainVal (raiseIf t e b) k = ainVal b k :=
  raiseIf_keeps (ainVal · k) (fun _ _ => rfl) t e b

theorem ainVal_mirrorInput_same (k : Nat) (b : Block) : ainVal (mirrorInput k b) k = mirrored b k (ainVal b k) := by
  rw [mirrorInput, ainVal_raiseIf, ainVal_raiseIf]
  exact tget_tmod_same _ _ _ _

theorem ainVal_mirrorInput_ne {j k : Nat} (b : Block) (h : j ≠ k) : ainVal (mirrorInput k b) j = ainVal b j := by
  rw [mirrorInput, ainVal_raiseIf, ainVal_raiseIf]
  exact tget_tmod_ne _ _ _ h

theorem sameButMirror_mirrorInputs (l : List Nat) (b : Block) : sameButMirror b (forEach l mirrorInput b) :=
  forEach_keeps (sameButMirror b) mirrorInput sameButMirror_mirrorInput l b (sameButMirror_refl b)

theorem ainVal_mirrorInputs (b : Block) (n k : Nat) :
    ainVal (forEach (upto n) mirrorInput b) k = if k < n then mirrored b k (ainVal b k) else ainVal b k := by
  rw [read_forEach_within ainVal mirrorInput (mirrored b) (sameButMirror b) sameButMirror_mirrorInput
    (fun k s hs => (ainVal_mirrorInput_same k s).trans (mirrored_congr hs k _)) (fun _ _ s h => ainVal_mirrorInput_ne s h)
    (.inl (nodup_upto n)) (sameButMirror_refl b)]
  simp only [mem_upto]

/-! ### REPORT_FRAME (R168) -/

/-- Outside the cycles after a takeover, and where no report is relayed, a report frame is taken as it comes. -/
theorem reportFrameStep_eq_reportIn {b : Block} {p : Nat} (hc : b.tw.splitCnt = none)
    (hr : isActive b = true ∨ (port b p).relayed = false) (l : List W8) : reportFrameStep p l b = reportIn p l b := by
  have hn : noteReport b = b := by simp [noteReport, hc]
  have hrel : (!isActive b && (port b p).relayed) = false := by rcases hr with h | h <;> simp [h]
  simp [reportFrameStep, hn, hrel]

theorem reportIn_ignored {b : Block} {p : Nat}
    (h : portUsed b p = false ∨ ((port b p).st ≠ .discover ∧ (port b p).st ≠ .serve ∧ (port b p).st ≠ .monitor)) (l : List W8) :
    reportIn p l b = b := by
  rcases h with h | ⟨h1, h2, h3⟩
  · simp [reportIn, h]
  · simp [reportIn, h1, h2, h3]

section
variable {b : Block} {p : Nat} (hu : portUsed b p = true)
  (hst : (port b p).st = .discover ∨ (port b p).st = .serve ∨ (port b p).st = .monitor)
include hu hst

/-- The end and the service slot of a frame of the right form come before its cells' slots (R114, R170). -/
theorem reportIn_taken {l : List W8} {c : Block} (hc : c = if repForm l = true then repService p l (repEnd p (repSlots l) b) else b) :
    reportIn p l b = reportCore p (cellAtHop c p) l c := by
  rcases hst with h | h | h <;> simp [reportIn, hu, h, hc]

theorem reportIn_otherStart {l : List W8} (hl : leAt l 0 1 ≠ 0xFD) :
    reportIn p l b = modPort p (fun x => { x with frameCrcErr := satInc 16 x.frameCrcErr }) b := by
  have hform : repForm l = false := by simp [repForm, hl]
  rw [reportIn_taken hu hst (c := b) (by simp [hform])]
  exact if_pos hl
end

/-! ### REPORT_DEADLINE (R61) -/

/-- What a missing report does to a cell at the deadline; its run of errors goes on in the states of R781. -/
def missReport (counts : Bool) (c : CellSt) : CellSt :=
  if expected c && !c.missed && !c.seen then { c with missed := true, crcRun := if counts then satInc 8 c.crcRun else 0 } else c

/-- A report counts as missing once a cycle. -/
theorem missReport_idem (counts : Bool) (c : CellSt) : missReport counts (missReport counts c) = missReport counts c := by
  by_cases h : (expected c && !c.missed && !c.seen) = true <;> simp [missReport, h]

theorem cell_reportError_same {b : Block} (hq : b.tw.quiet = false) (g : Nat) :
    cell (reportError g b) g = missReport (r781 b) (cell b g) := by
  by_cases h : (expected (cell b g) && !(cell b g).missed && !(cell b g).seen) = true <;> simp [reportError, missReport, hq, h]

theorem cell_reportError_ne {g j : Nat} (b : Block) (h : j ≠ g) : cell (reportError g b) j = cell b j := by
  unfold reportError
  dsimp only
  split
  · exact cell_modCell_ne _ _ h
  · rfl

/-- A block that differs from another in the cells only. -/
def sameButCells (b c : Block) : Prop := { c with cells := b.cells } = b

/-- What does not look at the cells reads alike in both. -/
theorem read_of_sameButCells {α : Type} {b c : Block} (h : sameButCells b c) (p : Block → α)
    (hp : ∀ (t : Block) l, p { t with cells := l } = p t) : p c = p b :=
  (hp c _).symm.trans (congrArg p h)

theorem sameButCells_reportError {b : Block} (g : Nat) (c : Block) (h : sameButCells b c) : sameButCells b (reportError g c) := by
  unfold reportError
  dsimp only
  split
  · exact h
  · exact h

theorem sameButCells_reportErrors (l : List Nat) (b : Block) : sameButCells b (forEach l reportError b) :=
  forEach_keeps (sameButCells b) reportError sameButCells_reportError l b rfl

theorem cell_reportErrors {b : Block} (hq : b.tw.quiet = false) (l : List Nat) (g : Nat) :
    cell (forEach l reportError b) g = if g ∈ l then missReport (r781 b) (cell b g) else cell b g := by
  refine read_forEach_within cell reportError (fun _ => missReport (r781 b)) (sameButCells b) sameButCells_reportError
    (fun k c hc => ?_) (fun _ _ c h => cell_reportError_ne c h) (.inr fun _ => missReport_idem _) rfl g
  have htw : c.tw = b.tw := read_of_sameButCells hc Block.tw fun _ _ => rfl
  have hstates : r781 c = r781 b := read_of_sameButCells hc r781 fun _ _ => rfl
  rw [cell_reportError_same (by rw [htw, hq]), hstates]

theorem reportDeadlineStep_late {a t : Nat} {l : List Nat} {r : List (Nat × List Nat)} {b : Block} (hl : (arm b a).lateDl = (t, l) :: r)
    (he : armEnabled b a = true) : reportDeadlineStep a b = repDoneLate a (forEach l reportErrorLate (atTime t b)) := by
  simp [reportDeadlineStep, hl, he]

theorem reportDeadlineStep_idle {a : Nat} {b : Block} (h : armEnabled b a = false ∨ (arm b a).lateDl = [] ∧
    ((arm b a).repDone = true ∨ b.tw.quiet = true ∨ tcU b < deadlineU b a)) : reportDeadlineStep a b = b := by
  rcases h with he | ⟨hl, h⟩
  · unfold reportDeadlineStep
    split <;> simp [he]
  · rcases h with h | h | h <;> simp [reportDeadlineStep, hl, h]

/-- An arm's report deadline has come and the reports still missing are counted. -/
def atDeadline (a : Nat) (b : Block) : Block :=
  forEach ((armCells b a).map (·.1)) reportError (atTime (b.cyc.t0 + deadlineU b a) b)

theorem sameButCells_atDeadline (a : Nat) (b : Block) : sameButCells (atTime (b.cyc.t0 + deadlineU b a) b) (atDeadline a b) :=
  sameButCells_reportErrors _ _

theorem cell_atDeadline {a : Nat} {b : Block} (hq : b.tw.quiet = false) (g : Nat) : cell (atDeadline a b) g =
    if g ∈ (armCells b a).map (·.1) then missReport (r781 b) (cell b g) else cell b g :=
  cell_reportErrors (b := atTime (b.cyc.t0 + deadlineU b a) b) hq _ g

theorem reportDeadlineStep_due {a : Nat} {b : Block} (hl : (arm b a).lateDl = []) (he : armEnabled b a = true)
    (hd : (arm b a).repDone = false) (hq : b.tw.quiet = false) (ht : deadlineU b a ≤ tcU b) :
    reportDeadlineStep a b = repDone a (atDeadline a b) := by
  simp [reportDeadlineStep, hl, he, hd, hq, ht]
  rfl

/-- R62: where the arm does not switch, REP_DONE only starts the ranking. -/
theorem repDone_notSwitching {a : Nat} {b : Block} (h : switching b a = false) :
    repDone a b = raise (evRepDone a) (modArm a (fun x => { x with repDone := true, repDoneAt := b.now }) b) := by
  have hsw : switching (raise (evRepDone a) (modArm a (fun x => { x with repDone := true, repDoneAt := b.now }) b)) a = false := by
    rw [switching, arm_raise, arm_modArm_same]
    exact h
  unfold repDone
  dsimp only
  rw [hsw]
  rfl

/-! ### REPORT_CRC_ERROR_LIMIT, RANK_DONE and WINDOW_START -/

theorem reportCrcErrorLimitStep_asks {g : Nat} {b : Block} (hr : r781 b = true) (h3 : 3 ≤ (cell b g).crcRun)
    (hi : inService (cell b g) = true) (ha : isActive b = true) :
    reportCrcErrorLimitStep g b = { b with changes := b.changes ++ [.faulted g 3] } := by
  simp [reportCrcErrorLimitStep, faultCell, addChange, hr, h3, hi, ha]

theorem reportCrcErrorLimitStep_idle {g : Nat} {b : Block}
    (h : r781 b = false ∨ (cell b g).crcRun < 3 ∨ inService (cell b g) = false ∨ isActive b = false) : reportCrcErrorLimitStep g b = b := by
  rcases h with h | h | h | h <;> simp [reportCrcErrorLimitStep, faultCell, h]

theorem rankDoneCmd_idle {a : Nat} {b : Block} (h : armEnabled b a = false ∨
    (arm b a).rankOwed = false ∧ ((arm b a).repDone = false ∨ (arm b a).rankDone = true)) : rankDoneCmd a b = b := by
  have hd : rankDue b a = false := by
    rcases h with h | ⟨ho, h | h⟩
    · simp [rankDue, h]
    · simp [rankDue, ho, h]
    · simp [rankDue, ho, h]
  simp [rankDoneCmd, hd]

/-- A ranking does not look at what is owed. -/
theorem rankArm_rankOwed (a : Nat) (b : Block) : (arm (rankArm a b) a).rankOwed = (arm b a).rankOwed := by
  unfold rankArm
  generalize direction b a (armCurrent b a).1 = d
  obtain ⟨dir, db⟩ := d
  dsimp only
  rw [arm_modArm_same]
  refine (kept_forEach (fun t => (arm t a).rankOwed) _ ?_ _ _).trans (kept_forEach (fun t => (arm t a).rankOwed) _ ?_ _ _) <;>
    exact fun _ _ => rfl

theorem rankDoneCmd_due {a : Nat} {b : Block} (h : rankDue b a = true) :
    rankDoneCmd a b = recRank a (arm b a).rankOwed (closeBypass (raise (evRankDone a) (modArm a (fun x =>
      if x.rankOwed then { x with rankOwed := false } else { x with rankDone := true }) (rankArm a b)))) :=
  (if_pos h).trans (congrArg (recRank a (arm b a).rankOwed) (if_pos h))

/-- R184: the ranking of this cycle completes. -/
theorem rankDoneCmd_ofCycle {a : Nat} {b : Block} (he : armEnabled b a = true) (ho : (arm b a).rankOwed = false)
    (hd : (arm b a).repDone = true) (hk : (arm b a).rankDone = false) : rankDoneCmd a b =
      recRank a false (closeBypass (raise (evRankDone a) (modArm a (fun x => { x with rankDone := true }) (rankArm a b)))) := by
  rw [rankDoneCmd_due (by simp [rankDue, he, hd, hk]), ho,
    modArm_congr (g := fun x => { x with rankDone := true }) (by simp [rankArm_rankOwed, ho])]

/-- R184: the ranking owed from before the last t0 completes first. -/
theorem rankDoneCmd_owed {a : Nat} {b : Block} (he : armEnabled b a = true) (ho : (arm b a).rankOwed = true) : rankDoneCmd a b =
      recRank a true (closeBypass (raise (evRankDone a) (modArm a (fun x => { x with rankOwed := false }) (rankArm a b)))) := by
  rw [rankDoneCmd_due (by simp [rankDue, he, ho]), ho,
    modArm_congr (g := fun x => { x with rankOwed := false }) (by simp [rankArm_rankOwed, ho])]

/-- Settles O33: each clause is the step of its command, read from the lemmas above. -/
theorem reportsDeadlinesAndRankingOfAnArm : Obligations.reports_deadlines_and_ranking_of_an_arm := by
  intro s h
  refine ⟨fun hs hr => ?_, fun hi => act_ended h rfl (adcReadyStep_idle hi), fun p l hp hc hrel => ?_, fun a ha => ?_, fun g hg => ?_,
    fun a ha => ?_⟩
  · have hsame := sameButMirror_mirrorInputs (upto 64) s.toBlock
    have hval := ainVal_mirrorInputs s.toBlock 64
    have hstep := adcReadyStep_due hs hr
    generalize forEach (upto 64) mirrorInput s.toBlock = c at hsame hval hstep
    refine ⟨_, act_ended h rfl hstep, rfl, fun k hk => ?_, fun k hk => ?_, ?_, ?_, ?_⟩
    · exact (hval k).trans (if_pos hk)
    · exact (hval k).trans (if_neg (by omega))
    · exact read_of_sameButMirror hsame (·.adc.units) fun _ _ _ => rfl
    · exact List.mem_append_right _ List.mem_cons_self
    · exact read_of_sameButMirror hsame (fun t => { t with adc := s.adc, ev := s.ev, cyc := s.cyc }) fun _ _ _ => rfl
  · have hw : (Instr.reportFrame p l).wf = true := decide_eq_true hp
    have hin := reportFrameStep_eq_reportIn hc hrel l
    exact ⟨fun hi => act_ended h hw (hin.trans (reportIn_ignored hi l)),
      fun hu hst => ⟨fun hl => act_ended h hw (hin.trans (reportIn_otherStart hu hst hl)),
        fun b hb => act_ended h hw (hin.trans (reportIn_taken hu hst hb))⟩⟩
  · have hw : (Instr.reportDeadline a).wf = true := decide_eq_true ha
    refine ⟨fun t l r hl he => act_ended h hw (reportDeadlineStep_late hl he), fun hi => act_ended h hw (reportDeadlineStep_idle hi),
      fun hl he hd hq ht hsw => ?_⟩
    have hsame := sameButCells_atDeadline a s.toBlock
    have hcell := cell_atDeadline (a := a) hq
    have hstep := reportDeadlineStep_due hl he hd hq ht
    generalize atDeadline a s.toBlock = c at hsame hcell hstep
    have harm : arm c a = arm s.toBlock a := read_of_sameButCells hsame (arm · a) fun _ _ => rfl
    have hcs : switching c a = false := (congrArg ArmSt.sw harm).trans hsw
    refine ⟨_, act_ended h hw (hstep.trans (repDone_notSwitching hcs)), ?_, ?_, fun g => ⟨fun hg => ?_, fun hg => ?_⟩, ?_, ?_⟩
    · exact read_of_sameButCells hsame Block.now fun _ _ => rfl
    · rw [← harm, arm_raise, arm_modArm_same]
      rfl
    · exact (hcell g).trans (if_neg hg)
    · exact (hcell g).trans (if_pos hg)
    · exact read_of_sameButCells hsame (·.ev.raised ++ [310 + a]) fun _ _ => rfl
    · exact read_of_sameButCells hsame (fun t => { t with now := s.now, arms := s.arms, cells := s.cells, ev := s.ev }) fun _ _ => rfl
  · have hw : (Instr.reportCrcErrorLimit g).wf = true := decide_eq_true hg
    exact ⟨fun hr h3 hi hact => act_ended h hw (reportCrcErrorLimitStep_asks hr h3 hi hact),
      fun hi => act_ended h hw (reportCrcErrorLimitStep_idle hi)⟩
  · have hw : (Instr.rankDone a).wf = true := decide_eq_true ha
    exact ⟨fun hi => act_ended h hw (rankDoneCmd_idle hi), fun he ho hd hk => act_ended h hw (rankDoneCmd_ofCycle he ho hd hk),
      fun he ho => act_ended h hw (rankDoneCmd_owed he ho), act_ended (i := .windowStart a) h (decide_eq_true ha) rfl⟩

end Sys2Proof.Machine
end

section
/-!
PROOFS. The sinks of an arm, its carriers, its command frames and its keep-alives (R69, R73, R210, R235 to R239).
-/

namespace Sys2Proof.Machine

/-! ### ARM_INSERT (R210 to R214) -/

/-- A request that is not finite, or that V_MEAN = 0 makes one, counts in REF_BAD. -/
def countBad (a : Nat) (b : Block) : Block := modArm a (fun x => { x with refBad := satInc 8 x.refBad }) b

theorem switching_countBad (a : Nat) (b : Block) : switching (countBad a b) a = switching b a := by
  simp [countBad, switching]

theorem armInsert_idle {a : Nat} {b : Block} (h : armEnabled b a = false ∨ isActive b = false ∨ parN b (0x3000 + a) ≠ 0)
    (k : Nat) (x : F32) (cyc t0 : Nat) : armInsert a k x cyc t0 b = b :=
  if_pos (by simpa [or_assoc] using h)

section
variable {a : Nat} {b c : Block} {k : Nat} {x n : F32} {cyc t0 : Nat}
  (hn : (n, c) = if k = 0 then (x, b) else if feq (arm b a).vMean f32Zero then (f32Zero, countBad a b) else (fdiv x (arm b a).vMean, b))
include hn

/-- R210: the cell count asked for, and the REF_BAD that a voltage over V_MEAN = 0 counts. -/
theorem nRequest_of_request : nRequest b a k x = (n, (nRequest b a k x).2) ∧ c = if (nRequest b a k x).2 then countBad a b else b := by
  by_cases hk : k = 0
  · obtain ⟨rfl, rfl⟩ : n = x ∧ c = b := by simpa [hk] using hn
    simp [nRequest, hk]
  · by_cases hv : feq (arm b a).vMean f32Zero = true
    · obtain ⟨rfl, rfl⟩ : n = f32Zero ∧ c = countBad a b := by simpa [hk, hv] using hn
      simp [nRequest, hk, hv]
    · obtain ⟨rfl, rfl⟩ : n = fdiv x (arm b a).vMean ∧ c = b := by simpa [hk, hv] using hn
      simp [nRequest, hk, hv]

variable (he : armEnabled b a = true) (ha : isActive b = true) (hm : parN b (0x3000 + a) = 0)
include he ha hm

/-- R210: once its cell count n is known, a request is refused, inserted, or inserted with every cell OFF. -/
theorem armInsert_taken : armInsert a k x cyc t0 b = if !isFinite32 n then countBad a c
    else if switching b a then insertNlm a n cyc t0 c
    else stampArm a (windowStart c a) cyc t0 (insertOff a (windowStart c a) cyc c) := by
  obtain ⟨hreq, hc⟩ := nRequest_of_request hn
  have hsw : switching c a = switching b a := by
    rw [hc]
    split
    · exact switching_countBad a b
    · rfl
  unfold armInsert
  rw [if_neg (by simp [he, ha, hm]), hreq, ← hsw, hc]
  rfl

theorem armInsert_notFinite (hf : isFinite32 n = false) : armInsert a k x cyc t0 b = countBad a c := by
  rw [armInsert_taken hn he ha hm, hf]
  rfl

theorem armInsert_switching (hf : isFinite32 n = true) (hs : switching b a = true) : armInsert a k x cyc t0 b = insertNlm a n cyc t0 c := by
  rw [armInsert_taken hn he ha hm, hf, hs]
  rfl

theorem armInsert_notSwitching (hf : isFinite32 n = true) (hs : switching b a = false) : armInsert a k x cyc t0 b =
    stampArm a (windowStart c a) cyc t0 (insertOff a (windowStart c a) cyc c) := by
  rw [armInsert_taken hn he ha hm, hf, hs]
  rfl
end

/-! ### PSC_SINK and PSC_COMMIT (R235, R236) -/

theorem pscSink_idle {a : Nat} {b : Block} (h : armEnabled b a = false ∨ isActive b = false ∨ parN b (0x3000 + a) ≠ 1)
    (p d : Option F32) (commit : Bool) (cyc t0 : Nat) : pscSink a p d commit cyc t0 b = b :=
  if_pos (by simpa [or_assoc] using h)

theorem pscSink_taken {a : Nat} {b c : Block} (he : armEnabled b a = true) (ha : isActive b = true) (hm : parN b (0x3000 + a) = 1)
    {p d : Option F32} (hc : c = (match d with | some d => holdDuty a d | none => id) ((match p with | some p => holdPeriod a p | none => id) b))
    (commit : Bool) (cyc t0 : Nat) : pscSink a p d commit cyc t0 b = stampArm a (windowStart c a) cyc t0 (pscWindows a (windowStart c a) cyc
      (modArm a (fun x => { x with psc := pscDue commit (windowStart c a) x.psc }) c)) := by
  subst hc
  cases p <;> cases d <;> exact if_neg (by simp [he, ha, hm])

/-! ### The halves of a pair (R235 to R237) -/

section
variable {a : Nat} {b : Block} {v : F32}

theorem holdPeriod_refused (h : pscPeriodOk b v = false) : holdPeriod a v b = countBad a b := by simp [holdPeriod, h, countBad]

theorem psc_holdPeriod (h : pscPeriodOk b v = true) : (arm (holdPeriod a v b) a).psc = { (arm b a).psc with
    heldPeriod := some v, periodAt := if (arm b a).psc.heldPeriod.isSome then (arm b a).psc.periodAt else b.now } := by
  simp [holdPeriod, h]

theorem holdDuty_refused (h : isNaN32 v = true) : holdDuty a v b = countBad a b := by simp [holdDuty, h, countBad]

theorem psc_holdDuty (h : isNaN32 v = false) : (arm (holdDuty a v b) a).psc = { (arm b a).psc with
    heldDuty := some (pscDutySat b a v), dutyAt := if (arm b a).psc.heldDuty.isSome then (arm b a).psc.dutyAt else b.now } := by
  simp [holdDuty, h]
end

section
variable {h : PscSt} {p d : F32} {w t : Nat} {x : ArmSt} (hp : h.heldPeriod = some p) (hd : h.heldDuty = some d)
  (hdp : h.dueP = none) (hdd : h.dueD = none)
include hp hd hdp hdd

/-- R236: a complete pair is due at the window start. -/
theorem pscDue_pair (commit : Bool) (w : Nat) : pscDue commit w h = { h with dueP := some w, dueD := some w } := by
  simp [pscDue, hp, hd, hdp, hdd]

/-- R236: at a boundary from the due instant on, the pair takes effect. -/
theorem pscTransfer_due (hx : x.psc = pscDue false w h) (ht : w ≤ t) : (pscTransfer t x).psc = { h with
    period := p, duty := d, heldPeriod := none, heldDuty := none, orphanP := false, orphanD := false } := by
  rw [pscDue_pair hp hd hdp hdd] at hx
  simp [pscTransfer, hx, ht, hp, hd, hdp, hdd]

/-- R236: a boundary before the due instant transfers nothing. -/
theorem pscTransfer_early (hx : x.psc = pscDue false w h) (ht : t < w) : pscTransfer t x = x := by
  rw [pscDue_pair hp hd hdp hdd] at hx
  have hpsc : (pscTransfer t x).psc = x.psc := by simp [pscTransfer, hx, Nat.not_le.2 ht]
  calc pscTransfer t x = { x with psc := (pscTransfer t x).psc } := rfl
    _ = x := by rw [hpsc]
end

/-! ### CARRIER_BOUNDARY and PAIR_ORPHAN (R237, R239) -/

theorem carrierBoundaryStep_idle {a : Nat} {b : Block} {g : Option Nat} (h : parN b (0x3000 + a) ≠ 1 ∨ switching b a = false ∨
    (g = none ∧ (arm b a).psc.next = none) ∨ (∃ k, g = some k ∧ (k ∉ (arm b a).psc.set ∨ (cell b k).carrier = none))) :
    carrierBoundaryStep a g b = b := by
  rcases h with h | h | ⟨rfl, h⟩ | ⟨k, rfl, h | h⟩
  · simp [carrierBoundaryStep, h]
  · simp [carrierBoundaryStep, h]
  · simp [carrierBoundaryStep, h]
  · cases hk : (cell b k).carrier <;> simp [carrierBoundaryStep, h, hk]
  · simp [carrierBoundaryStep, h]

theorem carrierBoundaryStep_arm {a n : Nat} {b : Block} (hm : parN b (0x3000 + a) = 1) (hs : switching b a = true)
    (hn : (arm b a).psc.next = some n) : carrierBoundaryStep a none b = armBoundaryAt a n (atTime n b) := by
  simp [carrierBoundaryStep, hm, hs, hn]

theorem carrierBoundaryStep_cell {a k : Nat} {c : CarrierSt} {b : Block} (hm : parN b (0x3000 + a) = 1) (hs : switching b a = true)
    (hk : k ∈ (arm b a).psc.set) (hc : (cell b k).carrier = some c) :
    carrierBoundaryStep a (some k) b = cellBoundaryAt a k c.fin (atTime c.fin b) := by
  simp [carrierBoundaryStep, hm, hs, hk, hc]

section
variable {a : Nat} {b : Block} (hn : (arm b a).psc.next.isSome = true)
include hn

theorem pairOrphanStep_period (hp : (arm b a).psc.heldPeriod.isSome = true) (hd : (arm b a).psc.heldDuty = none)
    (hdue : (arm b a).psc.dueP = none) (ho : (arm b a).psc.orphanP = false) : pairOrphanStep a b =
      raise evPairOrphan (modArm a (fun x => { x with psc := { x.psc with orphanP := true } })
        (atTime ((arm b a).psc.periodAt + 2 * pscPeriod (arm b a)) b)) := by
  simp [pairOrphanStep, Option.isSome_iff_ne_none.1 hn, hp, hd, hdue, ho]

theorem pairOrphanStep_duty (hd : (arm b a).psc.heldDuty.isSome = true) (hp : (arm b a).psc.heldPeriod = none)
    (hdue : (arm b a).psc.dueD = none) (ho : (arm b a).psc.orphanD = false) : pairOrphanStep a b =
      raise evPairOrphan (modArm a (fun x => { x with psc := { x.psc with orphanD := true } })
        (atTime ((arm b a).psc.dutyAt + 2 * pscPeriod (arm b a)) b)) := by
  simp [pairOrphanStep, Option.isSome_iff_ne_none.1 hn, hp, hd, hdue, ho]
end

/-- R237: two halves, or none, are no orphan, nor is a half of an arm without carrier. -/
theorem pairOrphanStep_idle {a : Nat} {b : Block}
    (h : (arm b a).psc.heldPeriod.isSome = (arm b a).psc.heldDuty.isSome ∨ (arm b a).psc.next = none) : pairOrphanStep a b = b := by
  rcases h with h | h
  · have hperiod : ((arm b a).psc.heldPeriod.isSome && (arm b a).psc.heldDuty.isNone) = false := by
      rw [h]; cases (arm b a).psc.heldDuty <;> rfl
    have hduty : ((arm b a).psc.heldDuty.isSome && (arm b a).psc.heldPeriod.isNone) = false := by
      rw [← h]; cases (arm b a).psc.heldPeriod <;> rfl
    simp only [pairOrphanStep, hperiod, hduty, Bool.false_and, Bool.false_eq_true, if_false, ite_self]
  · simp [pairOrphanStep, h]

/-! ### FRAME_LAUNCH and KEEP_ALIVE (R69, R73, R245) -/

theorem frameLaunchCmd_noFrame {p : Nat} {b : Block} (h : (port b p).frames = []) : frameLaunchCmd p b = b := by
  simp [frameLaunchCmd, h]

/-- The first waiting frame f of port p has left at its launch instant and r still wait; its cells learn of it. -/
def launched (p : Nat) (f : Frame) (r : List Frame) (b : Block) : Block :=
  launchedCells (modPort p (fun x => { x with frames := r, freeAt := f.endT, lastTx := f.bytes }) (atTime f.launch b)) p f

section
variable {p : Nat} {b : Block} {f : Frame} {r : List Frame} (hf : (port b p).frames = f :: r)
include hf

/-- The ADC groups of a frame's window are triggered whatever became of the frame (R419). -/
theorem frameLaunchCmd_frame : frameLaunchCmd p b =
    if 12 ≤ f.arm then frameLaunchStep p b else injWindow f.arm f.s (frameLaunchStep p b) := by
  simp [frameLaunchCmd, hf]

/-- A stopped port group drops the frame (Table 19-4). -/
theorem frameLaunchCmd_stopped (hs : stopped b (6 + p / 16) = true) : frameLaunchCmd p b =
    let d := modPort p (fun x => { x with frames := r }) b; if 12 ≤ f.arm then d else injWindow f.arm f.s d := by
  have hstep : frameLaunchStep p b = modPort p (fun x => { x with frames := r }) b := by simp [frameLaunchStep, hf, hs]
  rw [frameLaunchCmd_frame hf, hstep]

variable (hs : stopped b (6 + p / 16) = false)
include hs

/-- R245: a frame of an arm gives the arm its edges and its last command. -/
theorem frameLaunchStep_launched : frameLaunchStep p b = if 12 ≤ f.arm then launched p f r b
    else schedEdges f (modArm f.arm (fun x => { x with lastCmd := (launched p f r b).now }) (launched p f r b)) := by
  simp [frameLaunchStep, launched, hf, hs]

theorem frameLaunchCmd_ofNoArm (ha : 12 ≤ f.arm) : frameLaunchCmd p b = launched p f r b := by
  rw [frameLaunchCmd_frame hf, if_pos ha, frameLaunchStep_launched hf hs, if_pos ha]

theorem frameLaunchCmd_ofArm (ha : f.arm < 12) : frameLaunchCmd p b = injWindow f.arm f.s
    (schedEdges f (modArm f.arm (fun x => { x with lastCmd := (launched p f r b).now }) (launched p f r b))) := by
  rw [frameLaunchCmd_frame hf, if_neg (Nat.not_le.2 ha), frameLaunchStep_launched hf hs, if_neg (Nat.not_le.2 ha)]
end

theorem keepAliveStep_sends {a : Nat} {b : Block} (he : armEnabled b a = true) (ha : isActive b = true)
    (h : switching b a = true ∨ b.pwr.state = .hold) :
    keepAliveStep a b = keepAlive a (atTime ((arm b a).lastCmd + parDur b 0x0013 usU) b) :=
  if_pos (by simpa [he, ha] using h)

theorem keepAliveStep_idle {a : Nat} {b : Block} (hs : switching b a = false) (hh : b.pwr.state ≠ .hold) : keepAliveStep a b = b :=
  if_neg (by simp [hs, hh])

/-- Settles O34: each clause is the step of its command, read from the lemmas above. -/
theorem insertionsCarriersAndCommandFrames : Obligations.insertions_carriers_and_command_frames := by
  intro s a h ha
  have hins : ∀ k x, k < 2 → (Instr.armInsert a k x).wf = true := fun k x hk => decide_eq_true ⟨ha, hk⟩
  have hsink : ∀ p d, (Instr.pscSink a p d).wf = true := fun _ _ => decide_eq_true ha
  have hcommit : (Instr.pscCommit a).wf = true := decide_eq_true ha
  have hcarrier : ∀ g, (Instr.carrierBoundary a g).wf = true := fun _ => decide_eq_true ha
  have horphan : (Instr.pairOrphan a).wf = true := decide_eq_true ha
  have hframe : ∀ p, p < 128 → (Instr.frameLaunch p).wf = true := fun _ hp => decide_eq_true hp
  have hkeep : (Instr.keepAlive a).wf = true := decide_eq_true ha
  refine ⟨fun hi k x hk => act_ended h (hins k x hk) (armInsert_idle hi k x _ _),
    fun hi => ⟨fun p d => act_ended h (hsink p d) (pscSink_idle hi p d _ _ _), act_ended h hcommit (pscSink_idle hi _ _ _ _ _)⟩,
    fun he hact hm k x n b hk hn => ?_, fun he hact hm w b hw => ?_, fun b v => ?_, fun q p d w t hp hd hdp hdd => ?_, fun g => ?_,
    fun hn hp hd hdue ho => act_ended h horphan (pairOrphanStep_period hn hp hd hdue ho),
    fun hn hd hp hdue ho => act_ended h horphan (pairOrphanStep_duty hn hd hp hdue ho),
    fun hi => act_ended h horphan (pairOrphanStep_idle hi), fun p hp => ?_,
    fun he hact hsw => act_ended h hkeep (keepAliveStep_sends he hact hsw), fun hs hh => act_ended h hkeep (keepAliveStep_idle hs hh)⟩
  · have hw := hins k x hk
    exact ⟨fun hf => act_ended h hw (armInsert_notFinite hn he hact hm hf), fun hf hs => act_ended h hw (armInsert_switching hn he hact hm hf hs),
      fun hf hs => act_ended h hw (armInsert_notSwitching hn he hact hm hf hs)⟩
  · subst hw
    exact ⟨fun p d hb => act_ended h (hsink p d) (pscSink_taken he hact hm hb _ _ _),
      fun hb => act_ended h hcommit (pscSink_taken he hact hm (p := none) (d := none) hb _ _ _)⟩
  · exact ⟨holdPeriod_refused, psc_holdPeriod, holdDuty_refused, psc_holdDuty⟩
  · exact ⟨fun c => pscDue_pair hp hd hdp hdd c w, fun x hx => ⟨pscTransfer_due hp hd hdp hdd hx, pscTransfer_early hp hd hdp hdd hx⟩⟩
  · refine ⟨fun hi => act_ended h (hcarrier g) (carrierBoundaryStep_idle hi), fun hm hs => ⟨fun n hg hn => ?_, fun k c hg hk hc => ?_⟩⟩
    · subst hg
      exact act_ended h (hcarrier none) (carrierBoundaryStep_arm hm hs hn)
    · subst hg
      exact act_ended h (hcarrier (some k)) (carrierBoundaryStep_cell hm hs hk hc)
  · have hw := hframe p hp
    refine ⟨fun hf => act_ended h hw (frameLaunchCmd_noFrame hf), fun f r hf => ⟨fun hs => act_ended h hw (frameLaunchCmd_stopped hf hs), ?_⟩⟩
    rintro hs b rfl
    exact ⟨fun h12 => act_ended h hw (frameLaunchCmd_ofNoArm hf hs h12), fun h12 => act_ended h hw (frameLaunchCmd_ofArm hf hs h12)⟩

end Sys2Proof.Machine
end

section
/-!
PROOFS. The port states, and the training, locks and losses of a port (R88 to R94, R109 to R118, R124, R781).
-/

namespace Sys2Proof.Machine

theorem raised_raiseIf (c : Bool) (e : Nat) (b : Block) : (raiseIf c e b).ev.raised = b.ev.raised ++ if c then [e] else [] := by
  cases c
  · exact (List.append_nil _).symm
  · rfl

theorem port_raiseIf (c : Bool) (e : Nat) (b : Block) (p : Nat) : port (raiseIf c e b) p = port b p :=
  raiseIf_keeps (port · p) (fun _ _ => rfl) c e b

/-! ### Ports without a segment, and DISCOVER (R94, R109, R126) -/

theorem port_noSegment_same (p : Nat) (b : Block) :
    port (noSegment p b) p = { port b p with seg := [], reversed := false, frames := [], alignOk := false } := by
  rw [noSegment, alignLost, port_raiseIf, port_modPort_same, port_modPort_same]

theorem port_noSegment_ne {p q : Nat} (b : Block) (h : q ≠ p) : port (noSegment p b) q = port b q := by
  rw [noSegment, alignLost, port_raiseIf, port_modPort_ne _ _ h, port_modPort_ne _ _ h]

/-- R109, R127: only the fall of ALIGN_OK is an event. -/
theorem raised_noSegment (p : Nat) (b : Block) :
    (noSegment p b).ev.raised = b.ev.raised ++ if (port b p).alignOk then [evAlignLost p] else [] := by
  rw [noSegment, alignLost, raised_raiseIf, port_modPort_same]
  rfl

theorem noSegment_frame (p : Nat) (b : Block) : { noSegment p b with ports := b.ports, ev := b.ev } = b :=
  raiseIf_keeps (fun t => { t with ports := b.ports, ev := b.ev }) (fun _ _ => rfl) _ _ _

theorem port_mapCells (f : Nat → CellSt → CellSt) (b : Block) (p : Nat) : port (mapCells f b) p = port b p := rfl

theorem port_enterDiscover_same (p : Nat) (b : Block) : port (enterDiscover p b) p =
    { port (noSegment p b) p with st := .discover, discAt := b.now, svc := [], setTx := trainSet 0 false } := by
  rw [enterDiscover, port_mapCells, port_modPort_same]

theorem port_enterDiscover_ne {p q : Nat} (b : Block) (h : q ≠ p) : port (enterDiscover p b) q = port b q := by
  rw [enterDiscover, port_mapCells, port_modPort_ne _ _ h, port_noSegment_ne b h]

theorem enterDiscover_frame (p : Nat) (b : Block) : { enterDiscover p b with ports := b.ports, cells := b.cells, ev := b.ev } = b :=
  congrArg (fun t : Block => { t with cells := b.cells }) (noSegment_frame p b)

/-! ### TRAIN (R92 to R94) -/

theorem trainStep_unheard {p : Nat} {b : Block} (h : portUsed b p = false ∨ ((port b p).st ≠ .discover ∧ (port b p).st ≠ .serve ∧
      (port b p).st ≠ .monitor ∧ ((port b p).st ≠ .seek ∨ (port b p).training = false))) (n : Nat) : trainStep p n b = b := by
  rcases h with hu | ⟨hd, hs, hm, hk | ht⟩
  · simp [trainStep, hu]
  · simp [trainStep, hd, hs, hm, hk]
  · simp [trainStep, hd, hs, hm, ht]

section
variable {p n : Nat} {b c : Block} (hu : portUsed b p = true)
  (hh : (port b p).st = .discover ∨ (port b p).st = .serve ∨ (port b p).st = .monitor ∨ ((port b p).st = .seek ∧ (port b p).training = true))
  (hc : c = raiseIf ((port b p).cellsFound ≠ n) (evCellsChanged p) (modPort p (fun y => { y with cellsFound := n }) b))
include hu hh hc

/-- R92: c is the block in which the cells that the train names have been counted. -/
theorem trainStep_heard : trainStep p n b =
    if strCells b p < n then enterFail p 2 c
    else if (port b p).st = .seek then c
    else
      let d := forEach (if (port b p).brk then [] else ((upto n).filter fun h => decide ((port b p).cellsFound ≤ h)).map (cellAtHop c p))
        (fun g => modCal p g fun _ => {}) c
      let e := if portTopo d p = 0 ∧ (port b p).st ≠ .discover ∧ (port b p).seg.length < n then
        setSeg p ((upto n).map (cellAtHop d p)) d else d
      forEach ((upto n).map (cellAtHop e p)) (startCal p) e := by
  have hhears : (portUsed b p && (((port b p).st = .seek && (port b p).training) || (port b p).st = .discover || (port b p).st = .serve ||
      (port b p).st = .monitor)) = true := by
    rcases hh with h | h | h | ⟨h, ht⟩ <;> simp [*]
  have hcells : strCells c p = strCells b p := by
    rw [hc]
    exact raiseIf_keeps (strCells · p) (fun _ _ => rfl) _ _ _
  unfold trainStep
  simp only [hhears, ← hc, hcells, Bool.and_eq_true, decide_eq_true_eq, Bool.not_true, Bool.false_eq_true, if_false, ne_eq, and_assoc]

theorem trainStep_tooMany (hn : strCells b p < n) :
    trainStep p n b = raise (evLinkLost p) (modPort p (fun y => { y with st := .fail, failCause := 2, failLost := false }) (noSegment p c)) :=
  (trainStep_heard hu hh hc).trans (if_pos hn)

theorem trainStep_seek (hn : n ≤ strCells b p) (hs : (port b p).st = .seek) : trainStep p n b = c :=
  ((trainStep_heard hu hh hc).trans (if_neg (Nat.not_lt.2 hn))).trans (if_pos hs)

/-- R94: every cell of the train starts its calibration. -/
theorem trainStep_calibrates (hn : n ≤ strCells b p) (hs : (port b p).st ≠ .seek) {d e : Block}
    (hd : d = forEach (if (port b p).brk then [] else ((upto n).filter fun h => decide ((port b p).cellsFound ≤ h)).map (cellAtHop c p))
      (fun g => modCal p g fun _ => {}) c)
    (he : e = if portTopo d p = 0 ∧ (port b p).st ≠ .discover ∧ (port b p).seg.length < n then
      setSeg p ((upto n).map (cellAtHop d p)) d else d) :
    trainStep p n b = forEach ((upto n).map (cellAtHop e p)) (startCal p) e := by
  rw [trainStep_heard hu hh hc, if_neg (Nat.not_lt.2 hn), if_neg hs, he, hd]
end

/-! ### SEEK_SETTLE and UPSTREAM_LOCK (R91, R119) -/

theorem seekSettleStep_idle {p : Nat} {b : Block}
    (h : (port b p).st ≠ .seek ∨ (port b p).training = true ∨ (port b p).txdis = true) : seekSettleStep p b = b := by
  rcases h with h | h | h <;> simp [seekSettleStep, h]

theorem seekSettleStep_trains {p : Nat} {b c : Block} (hs : (port b p).st = .seek) (ht : (port b p).training = false)
    (hx : (port b p).txdis = false) (hc : c = { modPort p (fun y => { y with training := true, setTx := trainSet 0 false }) b with
      now := max b.now ((port b p).seekAt + 8000000) }) :
    seekSettleStep p b = if (port b p).lock then enterDiscover p c else c := by
  subst hc
  exact if_pos (by simp [hs, ht, hx])

theorem upstreamLockStep_idle {p : Nat} {b : Block} (h : (port b p).st = .dark ∨ (port b p).lock = true) : upstreamLockStep p b = b :=
  if_pos (by simpa using h)

theorem upstreamLockStep_locks {p : Nat} {b c : Block} (hd : (port b p).st ≠ .dark) (hl : (port b p).lock = false)
    (hc : c = modPort p (fun y => { y with lock := true, lostAt := none }) b) :
    upstreamLockStep p b = if (port b p).st = .seek ∧ (port b p).training = true then enterDiscover p c else c := by
  simp [upstreamLockStep, hd, hl, hc]

/-! ### UPSTREAM_LOCK_LOST (R110) -/

theorem upstreamLockLostStep_dark {p : Nat} {b : Block} (h : (port b p).st = .dark) (v : Nat) : upstreamLockLostStep p v b = b :=
  if_pos h

theorem modPort_congr {p : Nat} {f g : PortSt → PortSt} {b : Block} (h : f (port b p) = g (port b p)) : modPort p f b = modPort p g b := by
  unfold port at h
  simp only [modPort, tmod, h]

/-- Counting the violations that come changes the port's two registers of them only. -/
theorem violations_counted {p v : Nat} {l : List (Nat × Nat)} {b c : Block}
    (hc : c = if v = 0 then b else modPort p (fun y => { y with viol := l, codeErr := min ((port b p).codeErr + v) 4294967295 }) b) :
    port c p = { port b p with
        viol := if v = 0 then (port b p).viol else l, codeErr := if v = 0 then (port b p).codeErr else min ((port b p).codeErr + v) 4294967295 } ∧
      (∀ q, q ≠ p → port c q = port b q) ∧ { c with ports := b.ports } = b := by
  by_cases hv : v = 0
  · simp only [hv, if_true] at hc ⊢
    subst hc
    exact ⟨rfl, fun _ _ => rfl, rfl⟩
  · simp only [hv, if_false] at hc ⊢
    subst hc
    exact ⟨port_modPort_same _ _ _, fun _ hq => port_modPort_ne _ _ hq, rfl⟩

section
variable {p v : Nat} {l : List (Nat × Nat)} {b c : Block} (hd : (port b p).st ≠ .dark) (hl : l = recentViol (port b p) b.now v)
  (hc : c = if v = 0 then b else modPort p (fun y => { y with viol := l, codeErr := min ((port b p).codeErr + v) 4294967295 }) b)
include hd hl hc

/-- R110: c is the block in which the violations that come have been counted. -/
theorem upstreamLockLostStep_counted : upstreamLockLostStep p v b =
    if (port b p).lock = false ∨ (v ≠ 0 ∧ sumNat (l.map (·.2)) < parN b 0x1106) then c
    else
      let d := modPort p (fun x => { x with
        lock := false, lostAt := some b.now, lockLoss := satInc 16 x.lockLoss, viol := [], failLost := x.failLost || x.st = .fail }) c
      if (port b p).st = .discover then modPort p (fun x => { x with st := .seek, training := true, frames := [] }) d else d := by
  have hcount : c = if v = 0 then b else modPort p (fun x => { x with viol := l, codeErr := satAdd 32 x.codeErr v }) b := by
    rw [hc, modPort_congr (f := fun x => { x with viol := l, codeErr := satAdd 32 x.codeErr v })]
    rfl
  have hpar : parN c 0x1106 = parN b 0x1106 := by rw [hc]; split <;> rfl
  have hnow : c.now = b.now := by rw [hc]; split <;> rfl
  unfold upstreamLockLostStep
  simp only [hd, if_false, ← hl, ← hcount, hpar, hnow, Bool.or_eq_true, Bool.not_eq_true', Bool.or_eq_false_iff, decide_eq_false_iff_not,
    Nat.not_le, ne_eq]

theorem upstreamLockLostStep_keepsLock (h : (port b p).lock = false ∨ (v ≠ 0 ∧ sumNat (l.map (·.2)) < parN b 0x1106)) :
    upstreamLockLostStep p v b = c :=
  (upstreamLockLostStep_counted hd hl hc).trans (if_pos h)

/-- R110: lock is lost; DISCOVER falls back to SEEK. -/
theorem upstreamLockLostStep_loses (hk : (port b p).lock = true) (h : v = 0 ∨ parN b 0x1106 ≤ sumNat (l.map (·.2))) :
    port (upstreamLockLostStep p v b) p = { port b p with
        lock := false, lostAt := some b.now, lockLoss := min ((port b p).lockLoss + 1) 65535, viol := []
        codeErr := if v = 0 then (port b p).codeErr else min ((port b p).codeErr + v) 4294967295
        failLost := (port b p).failLost || decide ((port b p).st = .fail), st := if (port b p).st = .discover then .seek else (port b p).st
        training := if (port b p).st = .discover then true else (port b p).training
        frames := if (port b p).st = .discover then [] else (port b p).frames } ∧
      (∀ q, q ≠ p → port (upstreamLockLostStep p v b) q = port b q) ∧ { upstreamLockLostStep p v b with ports := b.ports } = b := by
  obtain ⟨hport, hother, hframe⟩ := violations_counted hc
  have hloss : ¬ ((port b p).lock = false ∨ (v ≠ 0 ∧ sumNat (l.map (·.2)) < parN b 0x1106)) := by
    rintro (hn | ⟨hv, hlt⟩)
    · simp [hk] at hn
    · exact h.elim hv (Nat.not_le.2 hlt)
  rw [upstreamLockLostStep_counted hd hl hc, if_neg hloss]
  dsimp only
  split
  case isTrue hs =>
    refine ⟨?_, fun q hq => ?_, hframe⟩
    · rw [port_modPort_same, port_modPort_same, hport]
      simp [hs, satInc]
    · rw [port_modPort_ne _ _ hq, port_modPort_ne _ _ hq, hother q hq]
  case isFalse hs =>
    refine ⟨?_, fun q hq => ?_, hframe⟩
    · rw [port_modPort_same, hport]
      simp [satInc]
    · rw [port_modPort_ne _ _ hq, hother q hq]
end

/-! ### RING_BREAK (R111 to R115) -/

theorem ringBreakStep_idle {p : Nat} {b : Block} (h : (port b p).lostAt = none ∨ portRing b p = false ∨
      ((port b p).st ≠ .serve ∧ (port b p).st ≠ .monitor) ∨ (port b p).lock = true ∨ (port b p).brk = true) : ringBreakStep p b = b := by
  unfold ringBreakStep
  dsimp only
  split
  case h_1 => rfl
  case h_2 t ht =>
    refine if_pos ?_
    rcases h with h | h | ⟨h1, h2⟩ | h | h
    · simp [h] at ht
    · simp [h]
    · simp [h1, h2]
    all_goals simp [h]

theorem ringBreakStep_breaks {p t : Nat} {b : Block} (ht : (port b p).lostAt = some t) (hr : portRing b p = true)
    (hs : (port b p).st = .serve ∨ (port b p).st = .monitor) (hl : (port b p).lock = false) (hb : (port b p).brk = false) :
    ringBreakStep p b = ringBreaks p { b with now := max b.now (t + parDur b 0x1101 4000) } := by
  unfold ringBreakStep
  simp only [ht]
  exact if_neg (by simpa [hr, hl, hb, ← or_iff_not_imp_left] using hs)

/-- R114: the absences of a cell count anew. -/
def absencesAnew (g : Nat) : Block → Block := modCell g fun c => { c with absent := 0 }

/-- R111, R114: BREAK on the port, its event, and the absences of its string that count anew. -/
def ringMarked (p : Nat) (b : Block) : Block := forEach (strCellList b p) absencesAnew (raise (evRingBreak p) (setBreak p b))

/-- The converter model and the parameters do not look at what a break marks. -/
theorem ringMarked_keeps {β : Type} (f : Block → β) (hf : ∀ (t : Block) x y z, f { t with cells := x, ports := y, ev := z } = f t)
    (p : Nat) (b : Block) : f (ringMarked p b) = f b :=
  (kept_forEach f absencesAnew (fun _ t => hf t _ t.ports t.ev) _ _).trans (hf b b.cells _ _)

/-- R112: the other port of a self-ring breaks too, and with ring_reverse the one that monitors serves the cells cut off. -/
def mateServes (p q : Nat) (b : Block) : Block :=
  let c := setBreak q b
  let far := if (port c p).st = .monitor then p else q
  if parB c 0x1103 = true ∧ (port c far).st = .monitor then
    markFrom far c.now (modPort far (fun x => { serveReversed x with seg := (upto (strCells c far)).map (cellAtHop c far) }) c)
  else c

theorem ringBreaks_eq (p : Nat) (b : Block) : ringBreaks p b =
    (ringMate b p).elim (takeRelay p (ringMarked p b)) fun q => mateServes p q (ringMarked p b) := by
  have hmate : ringMate (ringMarked p b) p = ringMate b p := ringMarked_keeps (ringMate · p) (fun _ _ _ _ => rfl) p b
  rw [← hmate]
  unfold ringBreaks
  extract_lets broken marked
  have hmarked : marked = ringMarked p b := rfl
  clear_value marked
  subst hmarked
  cases ringMate (ringMarked p b) p with
  | none => rfl
  | some q =>
    simp only [Option.elim_some, mateServes, ite_and]

/-- R115: the cells cut off from a port of a twin-ring are served by relay. -/
theorem ringBreaks_alone {p : Nat} {b : Block} (hq : ringMate b p = none) : ringBreaks p b = takeRelay p (ringMarked p b) := by
  rw [ringBreaks_eq, hq, Option.elim_none]

theorem ringBreaks_mate {p q far : Nat} {b c : Block} (hq : ringMate b p = some q) (hc : c = setBreak q (ringMarked p b))
    (hfar : far = if (port c p).st = .monitor then p else q) : ringBreaks p b =
      if parB b 0x1103 = true ∧ (port c far).st = .monitor then
        markFrom far c.now (modPort far (fun x => { serveReversed x with seg := (upto (strCells c far)).map (cellAtHop c far) }) c)
      else c := by
  have hpar : parB c 0x1103 = parB b 0x1103 := by
    rw [hc]
    exact ringMarked_keeps (parB · 0x1103) (fun _ _ _ _ => rfl) p b
  rw [ringBreaks_eq, hq, Option.elim_some, ← hpar, hfar, hc]
  rfl

/-! ### LINK_LOSS, REPORT_END_SHORT and SEGMENT_ABSENT (R114, R117, R118, R781) -/

theorem linkLossStep_idle {p : Nat} {b : Block} (h : (port b p).lostAt = none ∨ portUsed b p = false ∨ (port b p).st ≠ .serve ∨
      asChain b p = false ∨ (port b p).lock = true) : linkLossStep p b = b := by
  unfold linkLossStep
  dsimp only
  split
  case h_1 t ht =>
    refine if_neg ?_
    rcases h with h | h | h | h | h
    · simp [h] at ht
    all_goals simp [h]
  case h_2 => rfl

theorem linkLossStep_fails {p t : Nat} {b c : Block} (ht : (port b p).lostAt = some t) (hu : portUsed b p = true) (hs : (port b p).st = .serve)
    (hch : asChain b p = true) (hl : (port b p).lock = false)
    (hc : c = enterFail p 1 { b with now := max b.now (t + parDur b 0x1101 4000) }) :
    linkLossStep p b = if r781 b then
      forEach (if portTopo b p = 0 then strCellList b p else (port b p).seg) (fun g => faultCell g 6) c else c := by
  subst hc
  unfold linkLossStep
  simp only [ht]
  exact if_pos (by simp [hu, hs, hch, hl])

theorem reportEndShortStep_eq (p : Nat) (b : Block) : reportEndShortStep p b =
    if portUsed b p = true ∧ asChain b p = true ∧ 2 ≤ (port b p).endShort ∧ r781 b = true then
      forEach ((upto (strCells b p)).filter (fun h => (port b p).endHop < h)) (fun h => faultCell (cellAtHop b p h) 6) b
    else b := by
  simp only [reportEndShortStep, Bool.and_eq_true, decide_eq_true_eq, and_assoc]

/-- R29: only a unit that drives the converter faults a cell, and only one in service. -/
theorem faultCell_eq (g cause : Nat) (b : Block) : faultCell g cause b =
    if inService (cell b g) = true ∧ isActive b = true then { b with changes := b.changes ++ [.faulted g cause] } else b := by
  simp only [faultCell, Bool.and_eq_true, addChange]

theorem segmentAbsentStep_eq (g : Nat) (b : Block) : segmentAbsentStep g b =
    if portRing b (g / 48) = true ∧ asChain b (g / 48) = false ∧ (port b (g / 48)).brk = true ∧ 2 ≤ (cell b g).absent ∧ r781 b = true then
      faultCell g 6 b
    else b := by
  simp only [segmentAbsentStep, Bool.and_eq_true, Bool.not_eq_true', decide_eq_true_eq, and_assoc]

/-- Settles O41: what leaving service and DISCOVER do to a port, then each command's clauses, read from the lemmas above. -/
theorem trainingLocksAndLossesOfAPort : Obligations.training_locks_and_losses_of_a_port := by
  refine ⟨fun p b => ⟨port_noSegment_same p b, fun _ => port_noSegment_ne b, raised_noSegment p b, noSegment_frame p b,
    port_enterDiscover_same p b, fun _ => port_enterDiscover_ne b, enterDiscover_frame p b⟩, ?_⟩
  rintro s p h hp x rfl
  have hsettle : (Instr.seekSettle p).wf = true := decide_eq_true hp
  have hlock : (Instr.upstreamLock p).wf = true := decide_eq_true hp
  have hlost : ∀ v, (Instr.upstreamLockLost p v).wf = true := fun _ => decide_eq_true hp
  have hring : (Instr.ringBreak p).wf = true := decide_eq_true hp
  refine ⟨fun n hn => ?_, fun hi => act_ended h hsettle (seekSettleStep_idle hi),
    fun hs ht hx => ⟨_, rfl, act_ended h hsettle (seekSettleStep_trains hs ht hx rfl)⟩,
    fun hi => act_ended h hlock (upstreamLockStep_idle hi),
    fun hd hl => ⟨_, rfl, act_ended h hlock (upstreamLockStep_locks hd hl rfl)⟩,
    fun v => ⟨fun hd => act_ended h (hlost v) (upstreamLockLostStep_dark hd v), fun hd l hl => ⟨fun hk => ?_, fun hk hv => ?_⟩⟩,
    fun hi => act_ended h hring (ringBreakStep_idle hi), fun t ht hr hs hl hb => ?_, fun chain hch => ?_, fun g hg => ?_⟩
  · have hw : (Instr.train p n).wf = true := decide_eq_true ⟨hp, hn⟩
    refine ⟨fun hi => act_ended h hw (trainStep_unheard hi n), fun hu hh c hc => ⟨fun hmany => ?_, fun hle hs => ?_, fun hle hs d hd e he => ?_⟩⟩
    · exact act_ended h hw (trainStep_tooMany hu hh hc hmany)
    · exact act_ended h hw (trainStep_seek hu hh hc hle hs)
    · exact act_ended h hw (trainStep_calibrates hu hh hc hle hs hd he)
  · exact act_ended h (hlost v) (upstreamLockLostStep_keepsLock hd hl rfl hk)
  · exact ⟨_, act_ended h (hlost v) rfl, upstreamLockLostStep_loses hd hl rfl hk hv⟩
  · have hbreaks := ringBreakStep_breaks ht hr hs hl hb
    exact ⟨_, rfl, fun hq => act_ended h hring (hbreaks.trans (ringBreaks_alone hq)),
      fun q hq c hc far hfar => act_ended h hring (hbreaks.trans (ringBreaks_mate hq hc hfar))⟩
  · obtain rfl : chain = asChain s.toBlock p := hch
    have hloss : (Instr.linkLoss p).wf = true := decide_eq_true hp
    exact ⟨fun hi => act_ended h hloss (linkLossStep_idle hi),
      fun t ht hu hs hc hl => ⟨_, rfl, act_ended h hloss (linkLossStep_fails ht hu hs hc hl rfl)⟩,
      act_ended (i := .reportEndShort p) h (decide_eq_true hp) (reportEndShortStep_eq p _)⟩
  · have hw : (Instr.segmentAbsent g).wf = true := decide_eq_true hg
    exact act_ended h hw ((segmentAbsentStep_eq g _).trans (by rw [faultCell_eq]))

/-! ### PORT_DARK (R124) -/

/-- Settles O56: the answer of `opPortDark` to a request with ARG1 = 1, by whether the port's arm switches. -/
theorem aPortIsForcedDarkOnlyWhileItsArmDoesNotSwitch : Obligations.a_port_is_forced_dark_only_while_its_arm_does_not_switch := by
  intro s m p ha hl hp h1 hlt hu
  refine ⟨fun hsw => ?_, fun hsw => ?_⟩
  · exact portDark_completes ha (opPortDark_of_switching (b := s.runs m) hl hp hlt hu h1.le hsw)
  · obtain ⟨hforced, hdark, -⟩ := port_forcedDark p (portDarkBreak p (s.runs m)) rfl
    exact ⟨_, portDark_completes ha (opPortDark_force (b := s.runs m) hl hp hlt hu hsw h1), hdark, hforced⟩

end Sys2Proof.Machine
end

section
/-!
PROOFS. Echoes, time marks, the limit of DISCOVER, bypasses that are not confirmed and uncorrectable memory errors (R31, R84, R94 to
R104, R488, R782).
-/

namespace Sys2Proof.Machine

/-! ### ECHO (R94 to R104) -/

/-- R96, R102, R103: when an ECHO to a hop position can have left a port whose group runs. -/
theorem echoLeft_iff {b : Block} {p hop rtt : Nat} : echoLeft b p hop rtt = true ∧ stopped b (6 + p / 16) = false ↔
    stopped b (6 + p / 16) = false ∧ portUsed b p = true ∧ hop < strCells b p ∧ metFrame (port b p) 40 (b.now - rtt) = false ∧
      (((port b p).st = .discover ∧ (port b p).echoCnt < 8) ∨
        (((port b p).st = .serve ∨ (port b p).st = .monitor) ∧ (port b p).echoCnt = 0 ∧ hop = echoTarget b p)) := by
  rw [and_comm]
  refine and_congr_right' ?_
  by_cases hd : (port b p).st = .discover
  · simp [echoLeft, hd, and_assoc]
  · simp [echoLeft, hd, and_assoc]

theorem echoStep_notLeft {b : Block} {p hop rtt : Nat} (h : ¬ (echoLeft b p hop rtt = true ∧ stopped b (6 + p / 16) = false)) :
    echoStep p hop rtt b = b := by
  rcases not_and_or.1 h with h | h <;> simp [echoStep, h]

theorem portSideB_modCal (p g : Nat) (f : SideCal → SideCal) (b : Block) : portSideB (modCal p g f b) p = portSideB b p := by
  unfold modCal
  split <;> rfl

section
variable {b : Block} {p hop rtt : Nat} (hleft : echoLeft b p hop rtt = true ∧ stopped b (6 + p / 16) = false)
include hleft

theorem echoStep_withoutConsts (hk : (calOf b p (cell b (cellAtHop b p hop))).consts = none) :
    echoStep p hop rtt b = modPort p (echoSent hop) b := by
  obtain ⟨hl, hs⟩ := hleft
  simp [echoStep, hl, hs, hk]

section
variable {w : W32} {m : Block} {g : Nat} {j : SideCal} (hg : g = cellAtHop b p hop) (hk : (calOf b p (cell b g)).consts = some w)
  (hm : m = modCal p g (fun y => { y with
      samples := lastN 64 (y.samples ++ [(rtt : Int) * 250 - uPs w + asymSum (modPort p (echoSent hop) b) p hop]),
      echoes := min 16 (y.echoes + 1) }) (modPort p (echoSent hop) b))
  (hj : j = calOf m p (cell m g))
include hg hk hm hj

/-- R94 to R104: what the calibration j that has taken the sample asks for. -/
theorem echoStep_sampled : echoStep p hop rtt b = alignUpdate p (dFarUpdate p (
    if j.echoes = 16 ∧ j.dly = none ∧ j.dlyWait = none ∧ j.bad = false then
      if 32000000 * ((lastSamples m j).length : Int) < sumInt (lastSamples m j) then
        if hop = 0 ∧ (port b p).st = .discover then
          enterFail p 3 (forEach ((upto (port b p).cellsFound).map (cellAtHop m p)) (markBad p) m)
        else markBad p g m
      else svcAdd p g true (if portSideB m p then 4 else 3) (BitVec.ofNat 32 (estUnits m j)) 8
        (modCal p g (fun y => { y with dlyWait := some (estUnits m j) }) m)
    else correctDelay p g m)) := by
  obtain ⟨hl, hs⟩ := hleft
  unfold echoStep
  simp only [hl, hs, hk, ← hg, ← hm, ← hj, portSideB_modCal, Bool.and_eq_true, decide_eq_true_eq, Option.isNone_iff_eq_none,
    Bool.not_eq_true', and_assoc, Bool.not_true, Bool.or_self, Bool.false_eq_true, if_false]

/-- R104: an echo after the sixteenth, or of a cell that is set or bad, corrects the delay. -/
theorem echoStep_corrects (h : j.echoes ≠ 16 ∨ j.dly.isSome ∨ j.dlyWait.isSome ∨ j.bad = true) :
    echoStep p hop rtt b = alignUpdate p (dFarUpdate p (correctDelay p g m)) := by
  rw [echoStep_sampled hleft hg hk hm hj, if_neg]
  rintro ⟨hecho, hdly, hwait, hbad⟩
  simp [hecho, hdly, hwait, hbad] at h

section
variable (hecho : j.echoes = 16) (hdly : j.dly = none) (hwait : j.dlyWait = none) (hbad : j.bad = false)
include hecho hdly hwait hbad

/-- R94: the sixteenth echo ends the estimate. -/
theorem echoStep_estimates : echoStep p hop rtt b = alignUpdate p (dFarUpdate p (
    if 32000000 * ((lastSamples m j).length : Int) < sumInt (lastSamples m j) then
      if hop = 0 ∧ (port b p).st = .discover then
        enterFail p 3 (forEach ((upto (port b p).cellsFound).map (cellAtHop m p)) (markBad p) m)
      else markBad p g m
    else svcAdd p g true (if portSideB m p then 4 else 3) (BitVec.ofNat 32 (estUnits m j)) 8
      (modCal p g (fun y => { y with dlyWait := some (estUnits m j) }) m))) := by
  rw [echoStep_sampled hleft hg hk hm hj, if_pos ⟨hecho, hdly, hwait, hbad⟩]

theorem echoStep_writesDelay (hle : sumInt (lastSamples m j) ≤ 32000000 * ((lastSamples m j).length : Int)) :
    echoStep p hop rtt b = alignUpdate p (dFarUpdate p
      (svcAdd p g true (if portSideB m p then 4 else 3) (BitVec.ofNat 32 (estUnits m j)) 8
        (modCal p g (fun y => { y with dlyWait := some (estUnits m j) }) m))) := by
  rw [echoStep_estimates hleft hg hk hm hj hecho hdly hwait hbad, if_neg (Int.not_lt.2 hle)]

section
variable (hfar : 32000000 * ((lastSamples m j).length : Int) < sumInt (lastSamples m j))
include hfar

/-- R95: a delay above 16.0 us marks the cell bad. -/
theorem echoStep_marksBad (hn : ¬ (hop = 0 ∧ (port b p).st = .discover)) :
    echoStep p hop rtt b = alignUpdate p (dFarUpdate p (markBad p g m)) := by
  rw [echoStep_estimates hleft hg hk hm hj hecho hdly hwait hbad, if_pos hfar, if_neg hn]

/-- R96: at hop 0 in DISCOVER the port fails. -/
theorem echoStep_failsPort (hhop : hop = 0) (hst : (port b p).st = .discover) : echoStep p hop rtt b = alignUpdate p (dFarUpdate p
    (enterFail p 3 (forEach ((upto (port b p).cellsFound).map (cellAtHop m p)) (markBad p) m))) := by
  rw [echoStep_estimates hleft hg hk hm hj hecho hdly hwait hbad, if_pos hfar, if_pos ⟨hhop, hst⟩]
end
end
end
end

/-! ### TIME_MARK and DISCOVER_LIMIT (R100 to R102, R782) -/

theorem timeMarkStep_idle {p : Nat} {b : Block} (h : portUsed b p = false ∨ stopped b (6 + p / 16) = true ∨
      ((port b p).st ≠ .discover ∧ (port b p).st ≠ .serve ∧ (port b p).st ≠ .monitor)) : timeMarkStep p b = b := by
  rcases h with h | h | ⟨hd, hs, hm⟩
  · simp [timeMarkStep, h]
  · simp [timeMarkStep, h]
  · simp [timeMarkStep, hd, hs, hm]

theorem markDueAt_eq (b : Block) (p : Nat) : markDueAt b p =
    if (port b p).markDue = true ∨ (port b p).st = .discover ∨ (port b p).markAt = 0 then b.now
    else max b.now ((port b p).markAt + parDur b 0x1102 4000000) := by
  simp only [markDueAt, Bool.or_eq_true, decide_eq_true_eq, or_assoc]
  rfl

theorem port_sendMark (p t : Nat) (b : Block) : port (sendMark p t b) p = { port b p with
    markAt := t, markNC := b.cyc.n, markLT := t % 2 ^ 30, markDue := false, markPH := markPhase b t,
    setTx := markSet t (markPhase b t) b.cyc.n } :=
  port_modPort_same p _ b

/-- R100, R102: the mark leaves in its gap and reaches the cells of the train, of the ring or of the segment. -/
theorem timeMarkStep_sends {p t : Nat} {b m : Block} (hu : portUsed b p = true) (hg : stopped b (6 + p / 16) = false)
    (hst : (port b p).st = .discover ∨ (port b p).st = .serve ∨ (port b p).st = .monitor) (ht : t = gapAt (port b p) 120 (markDueAt b p))
    (hm : m = sendMark p t { b with now := max b.now t }) :
    timeMarkStep p b = alignUpdate p (forEach (
      if (port b p).st = .discover then (upto (port b p).cellsFound).map (cellAtHop m p)
      else if portRing m p then (upto (strCells m p)).map (cellAtHop m p) else (port b p).seg) (applyMark p) m) := by
  have hruns : (portUsed b p && !stopped b (6 + p / 16) &&
      ((port b p).st = .serve || (port b p).st = .monitor || (port b p).st = .discover)) = true := by
    rcases hst with h | h | h <;> simp [hu, hg, h]
  subst hm ht
  exact if_pos hruns

theorem discoverLimitStep_idle {p : Nat} {b : Block} (h : portUsed b p = false ∨ (port b p).st ≠ .discover ∨ r781 b = false) :
    discoverLimitStep p b = b := by
  rcases h with h | h | h <;> simp [discoverLimitStep, h]

theorem discoverLimitStep_reached {p : Nat} {b : Block} (hu : portUsed b p = true) (hs : (port b p).st = .discover) (hr : r781 b = true) :
    discoverLimitStep p b = { b with now := max b.now ((port b p).discAt + 4000000000) } :=
  if_pos (by simp [hu, hs, hr])

/-! ### BYPASS_UNCONF and RET_UNCONF (R31, R488) -/

theorem cell_raise (e : Nat) (b : Block) (g : Nat) : cell (raise e b) g = cell b g := rfl

theorem cell_modArm (a : Nat) (f : ArmSt → ArmSt) (b : Block) (g : Nat) : cell (modArm a f b) g = cell b g := rfl

section
variable {g : Nat} {b : Block}

theorem bypassUnconfStep_idle (h : (cell b g).bypReq = none ∨ (cell b g).bypRet = true) : bypassUnconfStep g b = b := by
  unfold bypassUnconfStep
  dsimp only
  split
  case h_1 t ht => exact if_pos (h.resolve_left (by simp [ht]))
  case h_2 => rfl

theorem retUnconfStep_idle (h : (cell b g).bypReq = none ∨ (cell b g).bypRet = false) : retUnconfStep g b = b := by
  unfold retUnconfStep
  dsimp only
  split
  case h_1 t ht => exact if_pos (by simpa [ht] using h)
  case h_2 => rfl

variable {t n : Nat} (ht : (cell b g).bypReq = some t) (hn : n = max b.now (t + parDur b (0x1040 + cellArm b g) 4000000))
include ht hn

/-- R31: a bypass that is not confirmed in time blocks the arm. -/
theorem bypassUnconfStep_blocks (hr : (cell b g).bypRet = false) : bypassUnconfStep g b =
    blockArm (cellArm b g) 5 (modCell g (fun c => { c with bypReq := none }) { b with now := n }) := by
  subst hn
  unfold bypassUnconfStep
  simp only [ht, hr]
  rfl

/-- R488: a retirement that is not confirmed in time is reported and blocks nothing. -/
theorem retUnconfStep_reports (hr : (cell b g).bypRet = true) : retUnconfStep g b = raise evTentRetUnconf
    (modArm (cellArm b g) (fun x => { x with retUnconf := true })
      (modCell g (fun c => { c with bypReq := none, bypRet := false, tent := { c.tent with retUnconf := true } }) { b with now := n })) := by
  subst hn
  unfold retUnconfStep
  simp only [ht, hr]
  rfl
end

/-! ### MEM_UNCORR (R17, R84) -/

theorem memUncorrStep_group {pg : Nat} (hpg : pg < 8) {b c : Block}
    (hc : c = { b with model := { b.model with pgStopped := setBit b.model.pgStopped pg true } }) :
    memUncorrStep pg b = forEach (groupArms c pg) (fun a => blockArm a 4) (raise evPgStopped (raise evMemUncorr c)) := by
  subst hc
  exact if_pos hpg

/-- Settles O42: each clause is the step of its command, read from the lemmas above. -/
theorem echoesMarksLimitsAndUnconfirmedBypasses : Obligations.echoes_marks_limits_and_unconfirmed_bypasses := by
  intro s h
  refine ⟨?_, fun p hp => ?_, fun g hg => ?_, act_ended (i := .memUncorr 8) h rfl rfl, fun pg hpg => ?_⟩
  · rintro p hop rtt hp hhop g hg k rfl x rfl left hleft
    rw [← echoLeft_iff] at hleft
    have hw : (Instr.echo p hop rtt).wf = true := decide_eq_true ⟨hp, hhop⟩
    refine ⟨fun hn => ?_, fun hl hk => ?_, fun w hl hk m hm j hj n hn => ⟨fun hc => ?_, fun he hd hq hb => ⟨?_, ?_, ?_⟩⟩⟩
    · exact act_ended h hw (echoStep_notLeft (mt hleft.2 hn))
    · exact act_ended h hw (echoStep_withoutConsts (hleft.1 hl) (hg ▸ hk))
    · exact act_ended h hw (echoStep_corrects (hleft.1 hl) hg hk hm hj hc)
    · exact fun hle => act_ended h hw (echoStep_writesDelay (hleft.1 hl) hg hk hm hj he hd hq hb (hn ▸ hle))
    · exact fun hfar hno => act_ended h hw (echoStep_marksBad (hleft.1 hl) hg hk hm hj he hd hq hb (hn ▸ hfar) hno)
    · exact fun hfar h0 hst => act_ended h hw (echoStep_failsPort (hleft.1 hl) hg hk hm hj he hd hq hb (hn ▸ hfar) h0 hst)
  · rintro x rfl
    have hmark : (Instr.timeMark p).wf = true := decide_eq_true hp
    have hlimit : (Instr.discoverLimit p).wf = true := decide_eq_true hp
    refine ⟨fun hi => act_ended h hmark (timeMarkStep_idle hi), fun hu hg hst t ht => ?_,
      fun hi => act_ended h hlimit (discoverLimitStep_idle hi),
      fun hu hst hr => act_ended h hlimit (discoverLimitStep_reached hu hst hr)⟩
    rw [← markDueAt_eq] at ht
    exact ⟨_, rfl, port_sendMark p t _, act_ended h hmark (timeMarkStep_sends hu hg hst ht rfl)⟩
  · rintro a rfl
    have hbyp : (Instr.bypassUnconf g).wf = true := decide_eq_true hg
    have hret : (Instr.retUnconf g).wf = true := decide_eq_true hg
    refine ⟨fun hno => ⟨act_ended h hbyp (bypassUnconfStep_idle (.inl hno)), act_ended h hret (retUnconfStep_idle (.inl hno))⟩,
      fun t ht n hn => ⟨fun hr => ⟨act_ended h hret (retUnconfStep_idle (.inr hr)), act_ended h hbyp (bypassUnconfStep_blocks ht hn hr)⟩,
        fun hr => ⟨act_ended h hbyp (bypassUnconfStep_idle (.inr hr)), _, act_ended h hret (retUnconfStep_reports ht hn hr), rfl, ?_, ?_, ?_, ?_,
          rfl, rfl⟩⟩⟩
    · rw [cell_raise, cell_modArm, cell_modCell_same]
      rfl
    · intro j hj
      rw [cell_raise, cell_modArm, cell_modCell_ne _ _ hj]
      rfl
    · rw [arm_raise, arm_modArm_same]
      rfl
    · intro j hj
      rw [arm_raise, arm_modArm_ne _ _ hj]
      rfl
  · exact ⟨_, rfl, act_ended (i := .memUncorr pg) h (decide_eq_true (Nat.lt_succ_of_lt hpg)) (memUncorrStep_group hpg rfl)⟩

end Sys2Proof.Machine
end

section
/-!
PROOFS. Trip inputs, their matrix actions, blanking and the trip latches (R244 to R251, R512, R709).
-/

namespace Sys2Proof.Machine

/-! ### The outputs that follow CMD_HOST (R511) -/

/-- A block that differs from another in the converter sequence only. -/
def sameButSeq (b c : Block) : Prop := { c with seq := b.seq } = b

/-- What does not look at the sequence reads alike in both. -/
theorem read_of_sameButSeq {α : Type} {b c : Block} (h : sameButSeq b c) (p : Block → α)
    (hp : ∀ (t : Block) x, p { t with seq := x } = p t) : p c = p b :=
  (hp c _).symm.trans (congrArg p h)

theorem sameButSeq_driveHost (b : Block) : sameButSeq b (driveHost b) := by
  unfold driveHost
  split
  · exact forEach_keeps (sameButSeq b) _ (fun _ _ h => by exact h) _ b rfl
  · rfl

/-! ### Events that blocking arms keeps -/

section
variable {e : Nat} {b : Block}

theorem mem_raised_raise_self (e : Nat) (b : Block) : e ∈ (raise e b).ev.raised := by simp

theorem mem_raised_raiseIf_self {t : Bool} (e : Nat) (b : Block) (ht : t = true) : e ∈ (raiseIf t e b).ev.raised := by
  simp [raised_raiseIf, ht]

theorem ev_blockSets (a : Nat) (b : Block) : (blockSets a b).ev = b.ev := by
  refine kept_forEach Block.ev _ (fun p t => ?_) _ b
  unfold blockPort
  split <;> rfl

theorem ev_dropFrames (a : Nat) (b : Block) : (dropFrames a b).ev = b.ev :=
  kept_forEach Block.ev _ (fun _ _ => by rfl) _ b

theorem ev_withdrawDeblock (a cause : Nat) (b : Block) : (withdrawDeblock a cause b).ev = b.ev := by
  unfold withdrawDeblock
  split
  · rfl
  · dsimp only
    split
    · exact kept_forEach Block.ev _ (fun _ _ => by rfl) _ _
    · rfl

variable (h : e ∈ b.ev.raised)
include h

theorem mem_raised_raise (k : Nat) : e ∈ (raise k b).ev.raised := List.mem_append_left _ h

theorem mem_raised_raiseIf (t : Bool) (k : Nat) : e ∈ (raiseIf t k b).ev.raised := by
  rw [raised_raiseIf]
  exact List.mem_append_left _ h

theorem mem_raised_setConv (st : ConvState) : e ∈ (setConv st b).ev.raised := by
  unfold setConv
  split
  · exact h
  · exact mem_raised_raise (b := { b with seq := { b.seq with state := st } }) h _

theorem mem_raised_runToBlocked : e ∈ (runToBlocked b).ev.raised := by
  unfold runToBlocked
  split
  · split <;> exact mem_raised_setConv h _
  · exact h

theorem mem_raised_withdrawLate (a : Nat) : e ∈ (withdrawLate a b).ev.raised := by
  unfold withdrawLate
  dsimp only
  split
  · exact h
  · split
    · exact forEach_keeps (e ∈ ·.ev.raised) _ (fun _ _ ht => by exact List.mem_append_left _ ht) _ _ h
    · exact h

theorem mem_raised_blockArm (a cause : Nat) : e ∈ (blockArm a cause b).ev.raised := by
  unfold blockArm
  split
  · exact h
  · extract_lets x b1 b2 b3 same b4 b5
    have h2 : b2.ev = b.ev := (ev_dropFrames a b1).trans (ev_blockSets a b)
    have h3 : e ∈ b3.ev.raised := mem_raised_withdrawLate (by rw [ev_withdrawDeblock, h2]; exact h) a
    have h4 : e ∈ b4.ev.raised := by
      show e ∈ (if cause = 7 then raise evDeclCurrent b3 else b3).ev.raised
      split
      · exact mem_raised_raise h3 _
      · exact h3
    clear_value b4
    split
    · exact mem_raised_runToBlocked (mem_raised_raise (b := cellsStop a b5) h4 _)
    · exact h4

theorem mem_raised_blockArms (l : List Nat) (cause : Nat) : e ∈ (blockArms l cause b).ev.raised :=
  forEach_keeps (e ∈ ·.ev.raised) _ (fun a _ ht => mem_raised_blockArm ht a cause) l b h
end

/-- What does not look at what a block of arms may change reads alike in blocks that agree otherwise. -/
theorem read_of_frozen {α : Type} {b c : Block} (h : frozen c = frozen b) (p : Block → α) (hp : ∀ t, p (frozen t) = p t) : p c = p b :=
  (hp c).symm.trans ((congrArg p h).trans (hp b))

/-! ### The trip matrix (R248 to R251) -/

theorem tripHas_congr {b c : Block} (h : c.par = b.par) (i k : Nat) : tripHas c i k = tripHas b i k := by
  cases b; cases c; cases h; rfl

theorem tripArms_congr {b c : Block} (h : c.par = b.par) (i : Nat) : tripArms c i = tripArms b i := by
  cases b; cases c; cases h; rfl

/-- An input with a mapped action acts: its matrix event, its latch and TRIP_EVENT where mapped (R250, R251). -/
def tripLatched (i : Nat) (b : Block) : Block :=
  raiseIf (tripHas b i 1) evTripEvent (raise (evTripMatrix i)
    { b with trip := { b.trip with latch := setBit b.trip.latch i true, acted := setBit b.trip.acted i true } })

/-- An input blocks the arms it names (R250). -/
def tripBlocked (i : Nat) (b : Block) : Block :=
  forEach (tripArms b i) (fun a => modArm a fun x => { x with tripAt := some b.now }) (blockArms (tripArms b i) 3 (raise evTripBlock b))

/-- A block with the arms, ports, cells, events, sequence and trips of another: what a trip may change. -/
def withTripParts (b c : Block) : Block :=
  { c with arms := b.arms, ports := b.ports, cells := b.cells, ev := b.ev, seq := b.seq, trip := b.trip }

section
variable {b : Block} {i : Nat}

theorem tripAct_unmapped (h2 : tripHas b i 2 = false) (h3 : tripHas b i 3 = false) (h1 : tripHas b i 1 = false) :
    tripAct i b = raise (evTripMatrix i) { b with trip := { b.trip with acted := setBit b.trip.acted i true } } := by
  have hm : ∀ k, tripHas (raise (evTripMatrix i) b) i k = tripHas b i k := tripHas_congr rfl i
  simp only [tripAct, hm, h1, h2, h3]
  rfl

theorem tripAct_event (h2 : tripHas b i 2 = false) (h3 : tripHas b i 3 = false) (h1 : tripHas b i 1 = true) :
    tripAct i b = raise evTripEvent (raise (evTripMatrix i)
      { b with trip := { b.trip with latch := setBit b.trip.latch i true, acted := setBit b.trip.acted i true } }) := by
  have hm : ∀ k, tripHas (raise (evTripMatrix i) b) i k = tripHas b i k := tripHas_congr rfl i
  simp only [tripAct, hm, h1, h2, h3]
  rfl

theorem tripAct_blocks (h : tripHas b i 2 = true ∨ tripHas b i 3 = true) :
    tripAct i b = if tripHas b i 3 then tripOpen i (tripBlocked i (tripLatched i b)) else tripBlocked i (tripLatched i b) := by
  have hm : ∀ k, tripHas (raise (evTripMatrix i) b) i k = tripHas b i k := tripHas_congr rfl i
  have hblk : (tripHas b i 2 || tripHas b i 3) = true := by simpa using h
  simp only [tripAct, hm, hblk, Bool.or_true, Bool.not_true, Bool.false_eq_true, if_false, if_true]
  rfl

theorem frozen_tripLatched (i : Nat) (b : Block) : frozen (tripLatched i b) =
    frozen { b with trip := { b.trip with latch := setBit b.trip.latch i true, acted := setBit b.trip.acted i true } } :=
  raiseIf_keeps frozen (fun _ _ => rfl) _ _ _

theorem frozen_tripBlocked (i : Nat) (b : Block) : frozen (tripBlocked i b) = frozen b := by
  refine (kept_forEach frozen _ (fun _ _ => by rfl) _ _).trans ?_
  rw [frozen_blockArms]
  rfl

theorem mem_raised_tripBlocked {e : Nat} (i : Nat) (h : e ∈ (raise evTripBlock b).ev.raised) : e ∈ (tripBlocked i b).ev.raised :=
  forEach_keeps (e ∈ ·.ev.raised) _ (fun _ _ ht => by exact ht) _ _ (mem_raised_blockArms h _ _)

/-- R250: an enabled arm that the input names stops switching. -/
theorem sw_tripBlocked {a : Nat} (ha : a ∈ tripArms b i) (he : armEnabled b a = true) : (arm (tripBlocked i b) a).sw = false := by
  obtain ⟨-, -, -, hstop, -⟩ := blockArms_spec (tripArms b i) 3 (raise evTripBlock b)
  refine forEach_keeps (fun t => (arm t a).sw = false) _ (fun k t ht => ?_) _ _ (hstop a ha he)
  by_cases hk : a = k
  · subst hk
    rw [arm_modArm_same]
    exact ht
  · rwa [arm_modArm_ne _ _ hk]

theorem trip_tripOpen (i : Nat) (b : Block) :
    (tripOpen i b).trip = { b.trip with opened := setBit b.trip.opened (parN b (0x3280 + i)) true } := rfl

theorem raised_tripOpen (i : Nat) (b : Block) : (tripOpen i b).ev.raised = b.ev.raised ++ [evTripOpen] := rfl

theorem arm_tripOpen (i : Nat) (b : Block) (a : Nat) : arm (tripOpen i b) a = arm b a := rfl

/-- R250, R512: the CMD output of the input is off. -/
theorem cmdLevel_tripOpen (i : Nat) (b : Block) : (tripOpen i b).seq.cmdLevel.testBit (parN b (0x3280 + i)) = false :=
  testBit_setBit_same _ _ _

theorem withTripParts_tripOpen (i : Nat) (b c : Block) : withTripParts b (tripOpen i c) = withTripParts b c := rfl

/-- What an action that blocks leaves alone. -/
theorem withTripParts_tripAct (h : tripHas b i 2 = true ∨ tripHas b i 3 = true) : withTripParts b (tripAct i b) = b := by
  have hblocked : withTripParts b (tripBlocked i (tripLatched i b)) = b :=
    read_of_frozen ((frozen_tripBlocked i _).trans (frozen_tripLatched i b)) (withTripParts b) fun _ => rfl
  rw [tripAct_blocks h]
  split
  · rw [withTripParts_tripOpen, hblocked]
  · exact hblocked
end

/-- R250, R251: an input that maps BLOCK or BLOCK_AND_OPEN acts. -/
theorem tripAct_blocking {b : Block} {i : Nat} (h : tripHas b i 2 = true ∨ tripHas b i 3 = true) :
    (tripAct i b).trip = { b.trip with
      latch := setBit b.trip.latch i true, acted := setBit b.trip.acted i true
      opened := if tripHas b i 3 then setBit b.trip.opened (parN b (0x3280 + i)) true else b.trip.opened } ∧
    (evTripMatrix i ∈ (tripAct i b).ev.raised ∧ evTripBlock ∈ (tripAct i b).ev.raised ∧
      (tripHas b i 1 = true → evTripEvent ∈ (tripAct i b).ev.raised) ∧
      (tripHas b i 3 = true → evTripOpen ∈ (tripAct i b).ev.raised ∧
        (tripAct i b).seq.cmdLevel.testBit (parN b (0x3280 + i)) = false)) ∧
    ∀ a ∈ tripArms b i, armEnabled b a = true → (arm (tripAct i b) a).sw = false := by
  have hl := frozen_tripLatched i b
  have hfrozen := (frozen_tripBlocked i _).trans hl
  have hlpar : (tripLatched i b).par = b.par := read_of_frozen hl Block.par fun _ => rfl
  have htrip : (tripBlocked i (tripLatched i b)).trip = { b.trip with
    latch := setBit b.trip.latch i true, acted := setBit b.trip.acted i true } := read_of_frozen hfrozen Block.trip fun _ => rfl
  have hout : parN (tripBlocked i (tripLatched i b)) (0x3280 + i) = parN b (0x3280 + i) :=
    read_of_frozen hfrozen (parN · (0x3280 + i)) fun _ => rfl
  have hmatrix : evTripMatrix i ∈ (tripLatched i b).ev.raised := mem_raised_raiseIf (mem_raised_raise_self _ _) _ _
  have hevent : tripHas b i 1 = true → evTripEvent ∈ (tripLatched i b).ev.raised := mem_raised_raiseIf_self _ _
  have hm := mem_raised_tripBlocked i (mem_raised_raise hmatrix evTripBlock)
  have hb := mem_raised_tripBlocked i (mem_raised_raise_self evTripBlock (tripLatched i b))
  have he := fun h1 => mem_raised_tripBlocked i (mem_raised_raise (hevent h1) evTripBlock)
  have hsw : ∀ a ∈ tripArms b i, armEnabled b a = true → (arm (tripBlocked i (tripLatched i b)) a).sw = false :=
    fun a ha hen => sw_tripBlocked (by rwa [tripArms_congr hlpar]) ((read_of_frozen hl (armEnabled · a) fun _ => rfl).trans hen)
  by_cases h3 : tripHas b i 3 = true
  · rw [(tripAct_blocks h).trans (if_pos h3), if_pos h3, raised_tripOpen, trip_tripOpen, htrip, hout]
    refine ⟨rfl, ⟨?_, ?_, fun h1 => ?_, fun _ => ⟨?_, ?_⟩⟩, hsw⟩
    · exact List.mem_append_left _ hm
    · exact List.mem_append_left _ hb
    · exact List.mem_append_left _ (he h1)
    · exact List.mem_append_right _ (List.mem_singleton_self _)
    · exact hout ▸ cmdLevel_tripOpen i _
  · rw [(tripAct_blocks h).trans (if_neg h3), if_neg h3]
    exact ⟨htrip, ⟨hm, hb, he, fun hf => absurd hf h3⟩, hsw⟩

/-! ### The pins (R249) -/

section
variable {i : Nat} {l : Bool} {b : Block}

theorem now_pinHeld (i : Nat) (l : Bool) (b : Block) : (pinHeld i l b).now =
    if bitAt b.trip.pins i = l then b.now else max b.now (tget 0 b.trip.pinAt i + parDur b (0x3200 + i) usU) := by
  by_cases h : bitAt b.trip.pins i = l <;> simp [pinHeld, atTime, h]

theorem pinHeld_eq (i : Nat) (l : Bool) (b : Block) : pinHeld i l b = { b with
    now := (pinHeld i l b).now
    trip := { b.trip with pins := setBit b.trip.pins i l, pinAt := tset 0 b.trip.pinAt i (pinHeld i l b).now } } := by
  by_cases h : bitAt b.trip.pins i = l <;> simp [pinHeld, atTime, h]

theorem raw_pinHeld (i : Nat) (l : Bool) (b : Block) : (pinHeld i l b).trip.raw = b.trip.raw := by rw [pinHeld_eq]

theorem acted_pinHeld (i : Nat) (l : Bool) (b : Block) : (pinHeld i l b).trip.acted = b.trip.acted := by rw [pinHeld_eq]

theorem matrixOn_pinHeld (i : Nat) (l : Bool) (b : Block) : matrixOn (pinHeld i l b) = matrixOn b := by rw [pinHeld_eq]; rfl

theorem tripWakes_pinHeld (i : Nat) (l : Bool) (b : Block) : tripWakes (pinHeld i l b) i = tripWakes b i := by rw [pinHeld_eq]; rfl

/-- A pin is no comparator: it is blanked when its bit says so. -/
theorem tripBlankedNow_pinHeld (hi : i < 16) (l : Bool) (b : Block) : tripBlankedNow (pinHeld i l b) i = bitAt b.trip.blanked i := by
  rw [pinHeld_eq]
  simp [tripBlankedNow, Nat.not_le.2 hi]

theorem tripRise_asserted (h : bitAt b.trip.raw i = true) : tripRise i b = b := if_pos h

/-- R244, R250, R709: an input that asserts anew. -/
theorem tripRise_anew (h : bitAt b.trip.raw i = false) {c : Block}
    (hc : c = raiseIf (tripWakes b i) evWakeTrip { b with trip := { b.trip with raw := setBit b.trip.raw i true } }) :
    tripRise i b = if tripBlankedNow b i || !matrixOn b then c else tripAct i c := by
  have hblanked : tripBlankedNow c i = tripBlankedNow b i := hc ▸ raiseIf_keeps (tripBlankedNow · i) (fun _ _ => rfl) _ _ _
  have hon : matrixOn c = matrixOn b := hc ▸ raiseIf_keeps matrixOn (fun _ _ => rfl) _ _ _
  rw [← hblanked, ← hon, hc]
  exact if_neg (by simp [h])

theorem tripAssertStep_pin (hi : i < 16) {c : Block} (hc : c = pinHeld i (!parB b (0x3220 + i)) b) : tripAssertStep i b = tripRise i c :=
  hc ▸ if_pos hi

theorem tripReleaseStep_pin (hi : i < 16) {c : Block} (hc : c = pinHeld i (parB b (0x3220 + i)) b) : tripReleaseStep i b = tripFall i c := by
  subst hc
  rw [tripReleaseStep, if_pos hi, pinActive, Bool.not_not]

variable (hi : i < 16) {c d : Block} (hc : c = pinHeld i (!parB b (0x3220 + i)) b)
include hi hc

theorem tripAssertStep_asserted (h : bitAt b.trip.raw i = true) : tripAssertStep i b = c := by
  rw [tripAssertStep_pin hi hc, tripRise_asserted (by rwa [hc, raw_pinHeld])]

variable (h : bitAt b.trip.raw i = false)
  (hd : d = raiseIf (tripWakes b i) evWakeTrip { c with trip := { c.trip with raw := setBit c.trip.raw i true } })
include h hd

theorem tripAssertStep_anew : tripAssertStep i b = if bitAt b.trip.blanked i || !matrixOn b then d else tripAct i d := by
  subst hc
  rw [tripAssertStep_pin hi rfl, tripRise_anew (by rwa [raw_pinHeld]) rfl, tripBlankedNow_pinHeld hi, matrixOn_pinHeld, tripWakes_pinHeld, ← hd]

theorem tripAssertStep_held (hb : bitAt b.trip.blanked i = true ∨ matrixOn b = false) : tripAssertStep i b = d := by
  rw [tripAssertStep_anew hi hc h hd, if_pos (by simpa using hb)]

theorem tripAssertStep_acts (hb : bitAt b.trip.blanked i = false) (hon : matrixOn b = true) : tripAssertStep i b = tripAct i d := by
  rw [tripAssertStep_anew hi hc h hd, if_neg (by simp [hb, hon])]
end

theorem tripReleaseStep_falls {i : Nat} {b c : Block} (hi : i < 16) (hc : c = pinHeld i (parB b (0x3220 + i)) b) :
    tripReleaseStep i b = { c with trip := { c.trip with raw := setBit b.trip.raw i false, acted := setBit b.trip.acted i false } } := by
  rw [tripReleaseStep_pin hi hc, tripFall, hc, raw_pinHeld, acted_pinHeld]

/-! ### Blanking (R244, R246) -/

/-- One input's round of BLANKING_START at the edge e of arm a. -/
def blankInput (a e i : Nat) (b : Block) : Block :=
  if parDur b (0x3240 + i) usU ≠ 0 ∧ bitAt (parN b (0x3260 + i)) a = true then
    { b with trip := { b.trip with
      blanked := setBit b.trip.blanked i true
      blankEnd := tset 0 b.trip.blankEnd i (max (tget 0 b.trip.blankEnd i) (e + parDur b (0x3240 + i) usU)) } }
  else b

/-- Time has come to the edge e of arm a, which leaves the schedule. -/
def edgeTaken (a e : Nat) (b : Block) : Block :=
  { b with
    now := max b.now e
    trip := { b.trip with sched := tset [] b.trip.sched a ((tget [] b.trip.sched a).filter fun t => decide (t ≠ e)) } }

theorem blankingStartStep_idle {a : Nat} {b : Block} (h : tget [] b.trip.sched a = []) : blankingStartStep a b = b := by
  simp [blankingStartStep, h]

theorem blankingStartStep_edge {a e0 e : Nat} {r : List Nat} {b : Block} (h : tget [] b.trip.sched a = e0 :: r) (he : e = r.foldl min e0) :
    blankingStartStep a b = forEach (upto 32) (blankInput a e) (edgeTaken a e b) := by
  subst he
  simp only [blankingStartStep, edgeTaken, h]
  rfl

/-- Whether an input is blanked, and until when. -/
def blanking (b : Block) (i : Nat) : Bool × Nat := (b.trip.blanked.testBit i, tget 0 b.trip.blankEnd i)

/-- A block that differs from another in the blanking of the inputs only. -/
def sameButBlanking (b c : Block) : Prop :=
  { c with trip := { c.trip with blanked := b.trip.blanked, blankEnd := b.trip.blankEnd } } = b

/-- What does not look at the blanking reads alike in both. -/
theorem read_of_sameButBlanking {α : Type} {b c : Block} (h : sameButBlanking b c) (p : Block → α)
    (hp : ∀ (t : Block) w l, p { t with trip := { t.trip with blanked := w, blankEnd := l } } = p t) : p c = p b :=
  (hp c _ _).symm.trans (congrArg p h)

theorem sameButBlanking_blankInput {b : Block} (a e i : Nat) (c : Block) (h : sameButBlanking b c) : sameButBlanking b (blankInput a e i c) := by
  unfold blankInput
  split <;> exact h

theorem sameButBlanking_blankInputs (a e : Nat) (l : List Nat) (b : Block) : sameButBlanking b (forEach l (blankInput a e) b) :=
  forEach_keeps (sameButBlanking b) _ (sameButBlanking_blankInput a e) l b rfl

/-- The blanking x of an input after the edge e of arm a. -/
def blankedBy (b : Block) (a e i : Nat) (x : Bool × Nat) : Bool × Nat :=
  if parDur b (0x3240 + i) usU ≠ 0 ∧ bitAt (parN b (0x3260 + i)) a = true then (true, max x.2 (e + parDur b (0x3240 + i) usU)) else x

theorem blankedBy_congr {b c : Block} (h : c.par = b.par) (a e i : Nat) (x : Bool × Nat) : blankedBy c a e i x = blankedBy b a e i x := by
  cases b; cases c; cases h; rfl

theorem blankedBy_named {b : Block} {a i : Nat} (hd : parDur b (0x3240 + i) usU ≠ 0) (hm : bitAt (parN b (0x3260 + i)) a = true) (e : Nat)
    (x : Bool × Nat) : blankedBy b a e i x = (true, max x.2 (e + parDur b (0x3240 + i) usU)) :=
  if_pos ⟨hd, hm⟩

theorem blankedBy_other {b : Block} {a i : Nat} (h : parDur b (0x3240 + i) usU = 0 ∨ bitAt (parN b (0x3260 + i)) a = false) (e : Nat)
    (x : Bool × Nat) : blankedBy b a e i x = x := by
  rcases h with h | h <;> simp [blankedBy, h]

theorem blanking_blankInput_same (a e i : Nat) (b : Block) : blanking (blankInput a e i b) i = blankedBy b a e i (blanking b i) := by
  unfold blankInput blankedBy
  split
  · simp [blanking]
  · rfl

theorem blanking_blankInput_ne {i j : Nat} (a e : Nat) (b : Block) (h : j ≠ i) : blanking (blankInput a e i b) j = blanking b j := by
  unfold blankInput
  split
  · simp [blanking, testBit_setBit_ne _ _ h, tget_tset_ne _ _ _ h]
  · rfl

theorem blanking_blankInputs (a e n : Nat) (b : Block) (i : Nat) : blanking (forEach (upto n) (blankInput a e) b) i =
    if i < n then blankedBy b a e i (blanking b i) else blanking b i := by
  rw [read_forEach_within blanking (blankInput a e) (blankedBy b a e) (sameButBlanking b) (sameButBlanking_blankInput a e)
    (fun k c hc => ?_) (fun _ _ c h => blanking_blankInput_ne a e c h) (.inl (nodup_upto n)) rfl]
  · simp only [mem_upto]
  · rw [blanking_blankInput_same, blankedBy_congr (read_of_sameButBlanking hc Block.par fun _ _ _ => rfl)]

theorem blankingEndStep_idle {i : Nat} {b : Block} (h : bitAt b.trip.blanked i = false) : blankingEndStep i b = b :=
  if_neg (by simp [h])

/-- R246, R709: the blanking of an input ends. -/
theorem blankingEndStep_ends {i : Nat} {b c : Block} (hi : i < 32) (h : bitAt b.trip.blanked i = true) (hc : c = { b with
      now := max b.now (tget 0 b.trip.blankEnd i)
      trip := { b.trip with blanked := setBit b.trip.blanked i false, blankEnd := tset 0 b.trip.blankEnd i 0 } }) :
    blankingEndStep i b = if bitAt b.trip.raw i ∧ !bitAt b.trip.acted i ∧ matrixOn b then tripAct i c else c := by
  subst hc
  exact if_pos ⟨hi, h⟩

/-! ### Latches (R251, R512) -/

/-- The outputs that a latched input still holds open. -/
def heldOutputs (b : Block) : List Nat := (upto 8).filter fun k => bitAt b.trip.opened k &&
  (upto 32).any fun i => bitAt b.trip.latch i && tripHas b i 3 && parN b (0x3280 + i) = k

theorem mem_heldOutputs {b : Block} {k : Nat} : k ∈ heldOutputs b ↔ k < 8 ∧ b.trip.opened.testBit k = true ∧
    ∃ i, i < 32 ∧ b.trip.latch.testBit i = true ∧ tripHas b i 3 = true ∧ parN b (0x3280 + i) = k := by
  simp [heldOutputs, bitAt, and_assoc]

/-- Reopening the outputs changes what is held open, and the sequence. -/
theorem sameButSeq_reopenOutputs (b : Block) :
    sameButSeq { b with trip := { b.trip with opened := maskOf (heldOutputs b) } } (reopenOutputs b) :=
  sameButSeq_driveHost _

theorem trip_reopenOutputs (b : Block) : (reopenOutputs b).trip = { b.trip with opened := maskOf (heldOutputs b) } :=
  read_of_sameButSeq (sameButSeq_reopenOutputs b) Block.trip fun _ _ => rfl

theorem opened_reopenOutputs (b : Block) (k : Nat) : (reopenOutputs b).trip.opened.testBit k = true ↔ k ∈ heldOutputs b := by
  rw [trip_reopenOutputs]
  simp [testBit_maskOf]

/-- Settles O35: each clause is the step of its command, read from the lemmas above. -/
theorem tripInputsBlankingAndLatches : Obligations.trip_inputs_blanking_and_latches := by
  refine ⟨fun b i _ => ⟨tripAct_unmapped, tripAct_event, fun hb => ?_⟩, fun s h => ⟨fun i l _ => ⟨now_pinHeld i l _, pinHeld_eq i l _⟩,
    fun i b hi hb => ?_, fun i b hi hb => ?_, fun a ha hs => ?_, fun a e0 r e ha hs he => ?_, fun i hi => ?_, ?_⟩⟩
  · obtain ⟨htrip, hraised, hsw⟩ := tripAct_blocking hb
    exact ⟨htrip, hraised, hsw, withTripParts_tripAct hb⟩
  · have hw : (Instr.tripAssert i).wf = true := decide_eq_true hi
    exact ⟨fun hr => act_ended h hw (tripAssertStep_asserted hi hb hr), fun hr c hc =>
      ⟨fun hk => act_ended h hw (tripAssertStep_held hi hb hr hc hk), fun hk hon => act_ended h hw (tripAssertStep_acts hi hb hr hc hk hon)⟩⟩
  · exact act_ended (i := .tripRelease i) h (decide_eq_true hi) (tripReleaseStep_falls hi hb)
  · exact act_ended (i := .blankingStart a) h (decide_eq_true ha) (blankingStartStep_idle hs)
  · have hsame := sameButBlanking_blankInputs a e (upto 32) (edgeTaken a e s.toBlock)
    have hblanking := blanking_blankInputs a e 32 (edgeTaken a e s.toBlock)
    refine ⟨_, act_ended (i := .blankingStart a) h (decide_eq_true ha) (blankingStartStep_edge hs he), ?_, ?_, fun i hi hd hm => ?_,
      fun i hi => ?_, ?_, ?_, ?_, ?_⟩
    · exact read_of_sameButBlanking hsame Block.now fun _ _ _ => rfl
    · exact (read_of_sameButBlanking hsame (fun t => tget [] t.trip.sched a) fun _ _ _ => rfl).trans ((tget_tset_same _ _ _ _).trans (by rw [hs]))
    · exact Prod.mk.inj ((hblanking i).trans ((if_pos hi).trans (blankedBy_named hd hm e _)))
    · refine Prod.mk.inj ((hblanking i).trans ?_)
      rcases hi with hi | hi
      · exact if_neg (Nat.not_lt.2 hi)
      · rw [blankedBy_other (b := edgeTaken a e s.toBlock) hi, ite_self]
        rfl
    · exact read_of_sameButBlanking hsame (·.trip.raw) fun _ _ _ => rfl
    · exact read_of_sameButBlanking hsame (·.trip.acted) fun _ _ _ => rfl
    · exact read_of_sameButBlanking hsame (·.trip.latch) fun _ _ _ => rfl
    · exact read_of_sameButBlanking hsame (fun t => ({ t with trip := s.trip, now := s.now } : Block)) fun _ _ _ => rfl
  · have hw : (Instr.blankingEnd i).wf = true := decide_eq_true hi
    refine ⟨fun hn => act_ended h hw (blankingEndStep_idle hn), fun hk b hb => ⟨fun hr ha hon => ?_, fun hno => ?_⟩⟩
    · exact act_ended h hw ((blankingEndStep_ends hi hk hb).trans (if_pos (by simp [hr, ha, hon])))
    · refine act_ended h hw ((blankingEndStep_ends hi hk hb).trans (if_neg ?_))
      rcases hno with hno | hno | hno <;> simp [hno]
  · rintro m b rfl
    refine ⟨act_ended (i := .tripLatchClear m) h rfl rfl, ?_, fun k => ?_, ?_⟩
    · rw [trip_reopenOutputs]
    · have hheld := mem_heldOutputs (b := { s.toBlock with trip := { s.trip with latch := clearMask s.trip.latch m.toNat } }) (k := k)
      simp only [testBit_clearMask, Bool.and_eq_true, Bool.not_eq_true', and_assoc] at hheld
      exact (opened_reopenOutputs _ k).trans hheld
    · exact read_of_sameButSeq (sameButSeq_reopenOutputs _) (fun t => ({ t with trip := s.trip, seq := s.seq } : Block)) fun _ _ => rfl

end Sys2Proof.Machine
end

section
/-!
PROOFS. A Governor call, the start, end and abort of an injection, and a call of a repetitive controller (R258, R261, R266, R278 to R284,
R310, R311).
-/

namespace Sys2Proof.Machine

/-! ### A Governor call (R258, R261, R392) -/

section
variable {e err : Nat} {b : Block}

/-- R261: every memory error gives FAULT. -/
theorem govRun_faults {r : GovReq} (h : err ≠ 0) : (govRun r err b).1.status = 4 := by
  simp [govRun, govEvalCall, h]

theorem govCallStep_idle (h : (engineOf b e).queue = []) : govCallStep e err b = b := by
  simp [govCallStep, h]

section
variable {r : GovReq} {t : List GovReq} (hq : (engineOf b e).queue = r :: t) {o : GovOut} {c : Block}
  (hrun : (o, c) = govRun r err (modEngine e govPop b))
include hq hrun

/-- A call whose core no longer waits for it runs all the same. -/
theorem govCallStep_unawaited (h : ¬ ((core c r.core).task = some r.task ∧ (core c r.core).wait = .gov)) : govCallStep e err b = c := by
  simp [govCallStep, hq, ← hrun, h]

section
variable (ht : (core c r.core).task = some r.task) (hw : (core c r.core).wait = .gov) {d : Block}
  (hd : d = modCore r.core (fun x => { x with wait := .none }) c)
include ht hw hd

theorem govCallStep_answers (h : o.status ≠ 4) :
    govCallStep e err b = finishBlock r.core r.task (blkWrite r.blk (outs [o.y, iW o.sat, iW o.status]) d) := by
  simp [govCallStep, hq, ← hrun, ht, hw, h, hd]

theorem govCallStep_faults (h : o.status = 4) :
    govCallStep e err b = blockFault r.core r.task r.blk 2 (blkWrite r.blk { outs := [none, none, some (iW o.status)] } d) := by
  simp [govCallStep, hq, ← hrun, ht, hw, h, hd]

end
end
end

/-! ### Start, end and abort of an injection (R278 to R284) -/

section
variable {e : Nat} {b : Block}

theorem injStartStep_eq (he : e < 8) :
    injStartStep e b = if injStartOk b e then modEngine e (fun x => { x with startAt := some b.now }) b else b := by
  simp [injStartStep, he]

theorem idle_of_injStartOk (h : injStartOk b e = true) : injBusy (engineOf b e) = false := by
  simp only [injStartOk, Bool.and_eq_true, Bool.not_eq_true'] at h
  exact h.2

theorem injAbortLate_iff : injAbortLate b e = true ↔ (engineOf b e).st = .done ∨ (injBusy (engineOf b e) = true ∧
    ∃ d, injEnd b e = some d ∧ fabric ((engineOf b e).t0Start + (qceil d).toNat) ≤ fabric b.now) := by
  cases h : injEnd b e <;> simp [injAbortLate, injEndAt, h]

theorem injAbortStep_eq (he : e < 8) : injAbortStep e b =
    if injAbortLate b e = false ∧ (injBusy (engineOf b e) = true ∨ (engineOf b e).startAt.isSome = true) then
      modEngine e (fun x => { x with abortAt := some b.now }) b else b := by
  simp [injAbortStep, he]

theorem abortBefore_eq_true_iff {x : EngineSt} {t : Nat} : abortBefore x t = true ↔ ∃ a, x.abortAt = some a ∧ fabric a < fabric t := by
  cases h : x.abortAt <;> simp [abortBefore, h]

theorem injEndAt_some {d : Q} (h : injEnd b e = some d) : injEndAt b e = some ((engineOf b e).t0Start + (qceil d).toNat) := by
  simp [injEndAt, h]

theorem govInjDoneStep_idle (h : injEnd b e = none ∨ injBusy (engineOf b e) = false) : govInjDoneStep e b = b := by
  rcases h with h | h
  · simp [govInjDoneStep, injEndAt, h]
  · cases ht : injEndAt b e <;> simp [govInjDoneStep, ht, h]

/-- R284: an ABORT of an earlier fabric cycle ends the injection first. -/
theorem govInjDoneStep_aborted {t : Nat} (ht : injEndAt b e = some t) (h : abortBefore (engineOf b e) t = true) : govInjDoneStep e b = b := by
  simp [govInjDoneStep, ht, h]

/-- R282: an engine whose injection has completed in a mode at an instant, with GAIN and PHASE of the correlator's sums in SINE mode. -/
def injCompleted (mode n : Nat) (x : EngineSt) : EngineSt :=
  { x with
    st := .done, doneAt := n, abortAt := none, resultValid := if mode = 3 then true else x.resultValid,
    gain := if mode = 3 then d2f (ddiv (hypotD x.ir x.qr) (hypotD x.iu x.qu)) else x.gain,
    phase := if mode = 3 then injPhase x.ir x.qr x.iu x.qu else x.phase }

theorem govInjDoneStep_completes {t : Nat} (ht : injEndAt b e = some t) (hb : injBusy (engineOf b e) = true)
    (h : abortBefore (engineOf b e) t = false) :
    govInjDoneStep e b = raise evGovInjDone (modEngine e (injCompleted (injMode b e) (max b.now t)) (atTime t b)) := by
  simp only [govInjDoneStep, ht, hb, h]
  rfl

end

/-! ### A call of a repetitive controller (R310 to R312) -/

/-- PERIOD and SPARSE: what looks at neither controllers nor events reads alike after them. -/
theorem rpcStatus_keeps {β : Type} (p : Block → β) (hp : ∀ (b : Block) x y, p { b with eng := { b.eng with rpc := x }, ev := y } = p b)
    (r : Nat) (b : Block) : p (rpcStatus r b) = p b :=
  (raiseIf_keeps p (fun t y => (hp t t.eng.rpc y :)) _ _ _).trans (hp b _ b.ev)

theorem rpc_raiseIf (c : Bool) (e : Nat) (b : Block) (j : Nat) : rpc (raiseIf c e b) j = rpc b j :=
  raiseIf_keeps (rpc · j) (fun _ _ => rfl) c e b

theorem rpc_rpcStatus_ne {r j : Nat} (b : Block) (h : j ≠ r) : rpc (rpcStatus r b) j = rpc b j :=
  (rpc_raiseIf _ _ _ j).trans (rpc_modRpc_ne _ b h)

theorem multi_rpcStatus (r : Nat) (b : Block) : (rpc (rpcStatus r b) r).multi = (rpc b r).multi := by
  simp [rpcStatus, rpc_raiseIf]

/-- The position p of R311 in the table. -/
def rpcPos (r : Nat) (b : Block) : F64 := r64 (.fin false ((fant b (rpcW b r 0).toNat).angle * rpcLen b r) (-32))

/-- The cell j below a position, and the weight w of the cell above it. -/
def rpcCell (m : Nat) (p : F64) : Nat := (fvFloor (v64 p) % ((max 1 m : Nat) : Int)).toNat
def rpcWeight (p : F64) : F32 := d2f (dsub p (r64 (fvOfInt (fvFloor (v64 p)) 0)))

/-- The value y read ahead of the position by the controller's lead. -/
def rpcAhead (r : Nat) (mem : Tab F32) (b : Block) : F32 :=
  rpcRead (rpcLen b r) mem (dadd (rpcPos r b)
    (dmul (dmul (dmul (f2d (rpcW b r 4)) (f2d (fant b (rpcW b r 0).toNat).freq)) (tcD b)) (r64 (fvOfInt (rpcLen b r) 0))))

/-- A value limited to y_max both ways. -/
def rpcLimited (r : Nat) (b : Block) (y : F32) : F32 := fmin (fmax y (fneg (rpcW b r 5))) (rpcW b r 5)

/-- A step updates the table. -/
def rpcLearns (r : Nat) (e : F32) (fz : Bool) (b : Block) : Bool :=
  !fz && !(rpcW b r 6 ≠ 0#32 && !(fant b (rpcW b r 0).toNat).locked) && isFinite32 e

/-- The change dv of the value at the position. -/
def rpcChange (r : Nat) (e : F32) (mem : Tab F32) (b : Block) : F32 :=
  fsub (fadd (fmul (rpcW b r 3) (rpcRead (rpcLen b r) mem (rpcPos r b))) (fmul (rpcW b r 2) e)) (rpcRead (rpcLen b r) mem (rpcPos r b))

/-- A table once a step, if it updates, has spread a change over the two cells around a position. -/
def rpcSpread (upd : Bool) (m : Nat) (p : F64) (dv : F32) (mem : Tab F32) : Tab F32 :=
  let j := rpcCell m p
  let low := if upd then tset f32Zero mem j (fadd (tget f32Zero mem j) (fmul (fsub f32One (rpcWeight p)) dv)) else mem
  if upd then tset f32Zero low ((j + 1) % max 1 m) (fadd (tget f32Zero low ((j + 1) % max 1 m)) (fmul (rpcWeight p) dv)) else low

theorem tget_rpcSpread_other {m i : Nat} {p : F64} (dv : F32) (mem : Tab F32) (h : i ≠ rpcCell m p)
    (h1 : i ≠ (rpcCell m p + 1) % max 1 m) : tget f32Zero (rpcSpread true m p dv mem) i = tget f32Zero mem i :=
  (tget_tset_ne _ _ _ h1).trans (tget_tset_ne _ _ _ h)

section
variable {m : Nat} {p : F64} (h : rpcCell m p ≠ (rpcCell m p + 1) % max 1 m) (dv : F32) (mem : Tab F32)
include h

theorem tget_rpcSpread_low : tget f32Zero (rpcSpread true m p dv mem) (rpcCell m p) =
    fadd (tget f32Zero mem (rpcCell m p)) (fmul (fsub f32One (rpcWeight p)) dv) :=
  (tget_tset_ne _ _ _ h).trans (tget_tset_same _ _ _ _)

theorem tget_rpcSpread_high : tget f32Zero (rpcSpread true m p dv mem) ((rpcCell m p + 1) % max 1 m) =
    fadd (tget f32Zero mem ((rpcCell m p + 1) % max 1 m)) (fmul (rpcWeight p) dv) :=
  (tget_tset_same _ _ _ _).trans (congrArg (fadd · _) (tget_tset_ne _ _ _ h.symm))

end

/-- A controller after the step of a cycle, from the table that the step finds (R311). -/
def rpcStepped (r : Nat) (e : F32) (fz reset : Bool) (mem : Tab F32) (b : Block) (x : RpcSt) : RpcSt :=
  let upd := rpcLearns r e fz b
  let j := rpcCell (rpcLen b r) (rpcPos r b)
  let new := rpcSpread upd (rpcLen b r) (rpcPos r b) (rpcChange r e mem b) mem
  let y := rpcAhead r mem b
  { x with
    mem := new, frozen := !upd, outLim := !feq (rpcLimited r b y) y, last := some (b.cyc.t0, rpcLimited r b y),
    wrote := some (j, tget f32Zero new j, tget f32Zero new ((j + 1) % max 1 (rpcLen b r)), reset) }

section
variable {r : Nat} {e : F32} {fz reset : Bool} {b : Block}

theorem not_rpcLearns_iff : (!rpcLearns r e fz b) = true ↔
    fz = true ∨ (rpcW b r 6 ≠ 0#32 ∧ (fant b (rpcW b r 0).toNat).locked = false) ∨ isFinite32 e = false := by
  simp [rpcLearns, or_assoc]

theorem mem_rpcStepped_frozen {mem : Tab F32} {x : RpcSt} (h : (rpcStepped r e fz reset mem b x).frozen = true) :
    (rpcStepped r e fz reset mem b x).mem = mem := by
  have hu : rpcLearns r e fz b = false := Bool.eq_false_of_not_eq_true' h
  simp [rpcStepped, rpcSpread, hu]

theorem mem_rpcStepped_updated {mem : Tab F32} {x : RpcSt} (h : (rpcStepped r e fz reset mem b x).frozen = false) :
    (rpcStepped r e fz reset mem b x).mem = rpcSpread true (rpcLen b r) (rpcPos r b) (rpcChange r e mem b) mem := by
  have hu : rpcLearns r e fz b = true := Bool.eq_true_of_not_eq_false' h
  rw [rpcStepped, hu]

/-- R310: a further call of a cycle. -/
theorem rpcCallStep_again (hr : r < 16) {y : F32} (h : (rpc b r).last = some (b.cyc.t0, y)) :
    rpcCallStep r e fz reset b = modRpc r (fun x => { x with multi := true }) b := by
  simp [rpcCallStep, hr, rpcCall, h]

/-- R311: the first call of a cycle. -/
theorem rpcCallStep_steps (hr : r < 16) (h : ∀ y, (rpc b r).last ≠ some (b.cyc.t0, y)) :
    rpcCallStep r e fz reset b = modRpc r (rpcStepped r e fz reset (if reset then [] else (rpc b r).mem) b) (rpcStatus r b) := by
  rw [← rpcStatus_keeps (rpcStepped r e fz reset (if reset then [] else (rpc b r).mem)) (fun _ _ _ => rfl) r b, rpcCallStep, if_pos hr]
  unfold rpcCall
  extract_lets x again
  have hnone : again = none := by
    cases hl : (rpc b r).last with
    | none => simp only [again, x, hl]
    | some l =>
      obtain ⟨t, y⟩ := l
      have ht : t ≠ b.cyc.t0 := fun ht => h y (by rw [hl, ht])
      simp only [again, x, hl, if_neg ht]
  clear_value again
  subst hnone
  rfl

end

/-- Settles O45: each clause is the step of its command, read from the lemmas above. -/
theorem governorCallsInjectionsAndRepetitiveControllers : Obligations.governor_calls_injections_and_repetitive_controllers := by
  refine fun s h => ⟨fun e err he herr => ?_, fun e he => ?_, fun r e fz reset hr x hx => ?_⟩
  · have hw : (Instr.govCall e err).wf = true := decide_eq_true ⟨he, herr⟩
    refine ⟨fun hq => act_ended h hw (govCallStep_idle hq), fun r t hq b hb o c hrun => ?_⟩
    have hrun : (o, c) = govRun r err (modEngine e govPop s.toBlock) := by rw [hrun, hb]; rfl
    refine ⟨fun he => ?_, fun hn => act_ended h hw (govCallStep_unawaited hq hrun hn), fun ht hwait d hd => ⟨fun ho => ?_, fun ho => ?_⟩⟩
    · rw [← govRun_faults (b := modEngine e govPop s.toBlock) (r := r) he, ← hrun]
    · exact act_ended h hw (govCallStep_answers hq hrun ht hwait hd ho)
    · exact act_ended h hw (govCallStep_faults hq hrun ht hwait hd ho)
  · have hw : (Instr.govInjDone e).wf = true := decide_eq_true he
    refine ⟨act_ended (i := .injStart e) h (decide_eq_true he) (injStartStep_eq he), idle_of_injStartOk, injAbortLate_iff,
      act_ended (i := .injAbort e) h (decide_eq_true he) (injAbortStep_eq he), fun hi => act_ended h hw (govInjDoneStep_idle hi),
      fun d a hd ha hlt => act_ended h hw (govInjDoneStep_aborted (injEndAt_some hd) (abortBefore_eq_true_iff.2 ⟨a, ha, hlt⟩)),
      fun d hd hb ha n hn => ?_⟩
    subst hn
    refine act_ended h hw (govInjDoneStep_completes (injEndAt_some hd) hb (eq_false_of_ne_true fun hab => ?_))
    obtain ⟨a, haa, hlt⟩ := abortBefore_eq_true_iff.1 hab
    exact absurd (ha a haa) (Nat.not_le.2 hlt)
  · subst hx
    have hw : (Instr.rpcCall r e fz reset).wf = true := decide_eq_true hr
    refine ⟨fun y hy => act_ended h hw (rpcCallStep_again hr hy), fun hn => ⟨_, act_ended h hw (rpcCallStep_steps hr hn), fun j hj => ?_, ?_, ?_, ?_, ?_⟩⟩
    · exact (rpc_modRpc_ne _ _ hj).trans (rpc_rpcStatus_ne _ hj)
    · exact rpcStatus_keeps (fun t => ({ t with eng := s.eng, ev := s.ev } : Block)) (fun _ _ _ => rfl) r s.toBlock
    · exact rpcStatus_keeps (fun t => t.eng.fant) (fun _ _ _ => rfl) r s.toBlock
    · exact rpcStatus_keeps (fun t => t.eng.ramp) (fun _ _ _ => rfl) r s.toBlock
    · rw [rpc_modRpc_same]
      rintro ft rfl m rfl mem rfl p rfl y rfl out rfl
      refine ⟨rfl, rfl, multi_rpcStatus r _, not_rpcLearns_iff, fun hf => ?_, ?_, ?_⟩
      · exact mem_rpcStepped_frozen hf
      · rintro j rfl
        rfl
      · rintro hf k rfl j rfl w rfl dv rfl a rfl
        rw [mem_rpcStepped_updated hf]
        exact ⟨fun i => tget_rpcSpread_other _ _, fun hj => ⟨tget_rpcSpread_low hj _ _, tget_rpcSpread_high hj _ _⟩⟩

end Sys2Proof.Machine
end

section
/-!
PROOFS. The droop, the stream step and the lock of a Fantail, a gear change, and the moves and commands of a ramp channel (R293, R297, R299,
R306, R308, R313, R319, R347).
-/

namespace Sys2Proof.Machine

/-! ### Droop, stream step and lock of a Fantail (R293, R297, R299) -/

section
variable {i : Nat} {b : Block}

theorem setLocked_eq (x : Bool) : setLocked i x b = if (fant b i).locked = x then b else
    raise (if x then evFtLock else evFtUnlock) (modFant i (fun y => { y with locked := x }) b) := rfl

theorem fant_setLocked_same (x : Bool) : fant (setLocked i x b) i = { fant b i with locked := x } := by
  rw [setLocked_eq]
  split
  · next h => simp [← h]
  · exact fant_modFant_same i _ b

/-- R297: without a valid sample the angle runs on at the frequency in force, and the unit is unlocked. -/
theorem followStep_withoutSample (xa xb xc h : F32) (hd : F64) (t : Nat) : ∃ da qa db qb amp,
    followStep i xa xb xc false h hd t b = ((fant b i).th, setLocked i false (modFant i (fun x => { x with
      da := da, qa := qa, db := db, qb := qb, amp := amp, ampLow := true, th := advance x.th (fant b i).f hd,
      integ := (fant b i).integ, f := (fant b i).f, lockFrom := none }) b)) := ⟨_, _, _, _, _, rfl⟩

theorem ftDroopStep_eq (hi : i < 4) (v : F32) : ftDroopStep i v b =
    if isFinite32 v = true then modFant i (fun x => { x with droops := x.droops ++ [(b.now, v)] }) b else b := by
  simp [ftDroopStep, hi]

theorem ftStreamStep_idle {xa xb xc : F32} {valid : Bool} (h : ftMode b i ≠ 1 ∨ (fant b i).form = true ∨ (ftW b i 5).toNat ≠ 1) :
    ftStreamStep i xa xb xc valid b = b := by
  unfold ftStreamStep
  refine if_neg ?_
  rintro ⟨-, hm, hf, h5⟩
  simp_all

section
variable {xa xb xc : F32} {valid : Bool} (hi : i < 4) (hm : ftMode b i = 1) (hf : (fant b i).form = false) (h5 : (ftW b i 5).toNat = 1)
include hi hm hf h5

theorem ftStreamStep_taken (h : (fant b i).tookT0 = true ∧ b.now = b.cyc.t0) :
    ftStreamStep i xa xb xc valid b = modFant i (fun x => { x with tookT0 := false }) b := by
  simp [ftStreamStep, hi, hm, hf, h5, h]

theorem ftStreamStep_steps (h : ¬ ((fant b i).tookT0 = true ∧ b.now = b.cyc.t0)) {th : Nat} {c d : Block}
    (hc : (th, c) = followStep i xa xb xc valid streamH streamHD b.now b)
    (hd : d = modFant i (fun x => { x with outAt := some (c.now, th), tookT0 := false }) c) :
    ftStreamStep i xa xb xc valid b = if d.cyc.started = true ∧ d.now = d.cyc.t0 then
      rpcSparse (forEach (upto 4) gearFreq (modFant i (fun x => { x with freq := x.f }) d)) else d := by
  subst hd
  unfold ftStreamStep
  rw [if_pos ⟨hi, hm, by simp [hf], h5⟩, if_neg h, ← hc]

end

theorem ftLockStep_idle (h : (fant b i).lockFrom = none ∨ ftMode b i ≠ 1 ∨ (fant b i).form = true) : ftLockStep i b = b := by
  unfold ftLockStep
  split
  · next a ha =>
    refine if_neg ?_
    rintro ⟨-, hm, hf⟩
    simp_all
  · rfl

theorem ftLockStep_locks (hi : i < 4) {a : Nat} (ha : (fant b i).lockFrom = some a) (hm : ftMode b i = 1) (hf : (fant b i).form = false) :
    ftLockStep i b = setLocked i true (atTime (a + parDur b (0x5000 + 64 * i + 0xE) msU) b) := by
  simp [ftLockStep, ha, hi, hm, hf]

/-! ### Arming and cancelling a gear change (R306, R308) -/

theorem gearArmStep_arms (hi : i < 4) (h : (fant b i).armed = none) :
    gearArmStep i b = modFant i (fun x => { x with armed := some b.now }) b := by
  simp [gearArmStep, hi, h]

theorem gearArmStep_rejected (h : (fant b i).armed.isSome = true) : gearArmStep i b = b := by
  refine if_neg ?_
  rintro ⟨-, hn⟩
  simp_all

theorem gearCancelStep_late (h : (fant b i).armed = none ∨ landsNow b i = true) : gearCancelStep i b = b := by
  have hl : gearCancelLate b i = true := by
    rcases h with h | h <;> simp [gearCancelLate, h]
  simp [gearCancelStep, hl]

theorem gearCancelStep_clears (hi : i < 4) (h : (fant b i).armed.isSome = true) (hn : landsNow b i = false) :
    gearCancelStep i b = modFant i (fun x => { x with armed := none }) b := by
  have hl : gearCancelLate b i = false := by
    rw [gearCancelLate, hn, Bool.or_false]
    simpa using h
  simp [gearCancelStep, hi, hl]

end

/-! ### The posted move that gives way (R313) -/

/-- The moves that a channel's post of order `o` can displace: those of its fabric cycle that enter after it (R313, log
entry 30). -/
def rampHigher (c o : Nat) (b : Block) : List (Nat × Nat × Move) :=
  (ramp b c).posted.filter fun m => fabric m.1 = fabric b.now && decide (o < m.2.1)

theorem mem_rampHigher {c o : Nat} {b : Block} {m : Nat × Nat × Move} :
    m ∈ rampHigher c o b ↔ m ∈ (ramp b c).posted ∧ fabric m.1 = fabric b.now ∧ o < m.2.1 := by
  simp [rampHigher]

/-- Of the move found so far and the next one, the one of the higher order, and of equal ones the next. -/
def laterOfHighest (k : Option (Nat × Nat × Move)) (m : Nat × Nat × Move) : Option (Nat × Nat × Move) :=
  match k with
  | some p => if p.2.1 ≤ m.2.1 then some m else k
  | none => some m

theorem rampDisplaced_eq (c o : Nat) (b : Block) : rampDisplaced c o b = (rampHigher c o b).foldl laterOfHighest none := rfl

theorem foldl_laterOfHighest (l : List (Nat × Nat × Move)) (p : Nat × Nat × Move) :
    ∃ q ∈ p :: l, l.foldl laterOfHighest (some p) = some q ∧ ∀ m ∈ p :: l, m.2.1 ≤ q.2.1 := by
  induction l generalizing p with
  | nil => exact ⟨p, by simp⟩
  | cons x l ih =>
    by_cases hx : p.2.1 ≤ x.2.1
    · obtain ⟨q, hq, he, hmax⟩ := ih x
      refine ⟨q, List.mem_cons_of_mem _ hq, by simp [laterOfHighest, hx, he], List.forall_mem_cons.2 ⟨?_, hmax⟩⟩
      exact hx.trans (hmax x List.mem_cons_self)
    · obtain ⟨q, hq, he, hmax⟩ := ih p
      obtain ⟨hp, hl⟩ := List.forall_mem_cons.1 hmax
      refine ⟨q, ?_, by simp [laterOfHighest, hx, he], ?_⟩
      · exact (List.mem_cons.1 hq).elim (fun e => e ▸ List.mem_cons_self) fun h => List.mem_cons_of_mem _ (List.mem_cons_of_mem _ h)
      · exact List.forall_mem_cons.2 ⟨hp, List.forall_mem_cons.2 ⟨by omega, hl⟩⟩

section
variable {c o : Nat} {b : Block}

theorem rampDisplaced_eq_none (h : ∀ m ∈ (ramp b c).posted, fabric m.1 = fabric b.now → m.2.1 ≤ o) : rampDisplaced c o b = none := by
  have hnil : rampHigher c o b = [] := List.eq_nil_iff_forall_not_mem.2 fun m hm => by
    obtain ⟨hin, hfab, ho⟩ := mem_rampHigher.1 hm
    exact absurd ho (Nat.not_lt.2 (h m hin hfab))
  rw [rampDisplaced_eq, hnil]
  rfl

theorem rampDisplaced_eq_some (h : ∃ m ∈ (ramp b c).posted, fabric m.1 = fabric b.now ∧ o < m.2.1) :
    ∃ p ∈ (ramp b c).posted, rampDisplaced c o b = some p ∧ fabric p.1 = fabric b.now ∧ o < p.2.1 ∧
      ∀ m ∈ (ramp b c).posted, fabric m.1 = fabric b.now → m.2.1 ≤ p.2.1 := by
  obtain ⟨x, hx⟩ := h
  obtain ⟨y, l, hl⟩ := List.exists_cons_of_ne_nil (List.ne_nil_of_mem (mem_rampHigher.2 hx))
  obtain ⟨p, hp, he, hmax⟩ := foldl_laterOfHighest l y
  rw [← hl] at hp hmax
  obtain ⟨hin, hfab, ho⟩ := mem_rampHigher.1 hp
  refine ⟨p, hin, by rw [rampDisplaced_eq, hl]; exact he, hfab, ho, fun m hm hf => ?_⟩
  by_cases hom : o < m.2.1
  · exact hmax m (mem_rampHigher.2 ⟨hm, hf, hom⟩)
  · omega

/-! ### Moves and commands of a ramp channel (R313, R319, R347) -/

theorem ramp_raise (e : Nat) (b : Block) (c : Nat) : ramp (raise e b) c = ramp b c := rfl

/-- A block with other ramp channels and events, which is what a posted move can change. -/
def withRamps (x : Tab RampSt) (y : EvSt) (b : Block) : Block := { b with eng := { b.eng with ramp := x }, ev := y }

theorem withRamps_modRamp (x : Tab RampSt) (y : EvSt) (c : Nat) (f : RampSt → RampSt) (b : Block) :
    withRamps x y (modRamp c f b) = withRamps x y b := rfl

theorem withRamps_raise (x : Tab RampSt) (y : EvSt) (e : Nat) (b : Block) : withRamps x y (raise e b) = withRamps x y b := rfl

theorem withRamps_self (b : Block) : withRamps b.eng.ramp b.ev b = b := rfl

section
variable {m : Move}

theorem rampPost_rejected (h : isFinite32 m.xt = false ∨ isFinite32 m.vc = false ∨ flt f32Zero m.vc = false) : (rampPost c o m b).2 = b := by
  have hbad : (isFinite32 m.xt && isFinite32 m.vc && flt f32Zero m.vc) = false := by
    rcases h with h | h | h <;> simp [h]
  simp [rampPost, hbad]

section
variable (hx : isFinite32 m.xt = true) (hv : isFinite32 m.vc = true) (hp : flt f32Zero m.vc = true)
include hx hv hp

theorem rampPost_joins (h : (ramp b c).queue.length + (ramp b c).posted.length < 8) :
    (rampPost c o m b).2 = modRamp c (fun x => { x with posted := x.posted ++ [(b.now, o, m)] }) b := by
  simp [rampPost, hx, hv, hp, rampRoom, h]

theorem rampPost_discarded (h : 8 ≤ (ramp b c).queue.length + (ramp b c).posted.length) (hd : rampDisplaced c o b = none) :
    (rampPost c o m b).2 = raise evRmpFull (modRamp c (fun x => { x with fullSeen := true }) b) := by
  simp [rampPost, hx, hv, hp, rampRoom, Nat.not_lt.2 h, hd]

/-- R313: the move that gives way leaves, and the posted one joins. -/
theorem rampPost_displaces (h : 8 ≤ (ramp b c).queue.length + (ramp b c).posted.length) {p : Nat × Nat × Move}
    (hd : rampDisplaced c o b = some p) : (rampPost c o m b).2 = raise evRmpFull (modRamp c (fun x => { x with fullSeen := true })
      (modRamp c (fun x => { x with posted := x.posted ++ [(b.now, o, m)] }) (modRamp c (fun x => { x with posted := x.posted.erase p }) b))) := by
  simp [rampPost, hx, hv, hp, rampRoom, Nat.not_lt.2 h, hd]

theorem rampPost_displaces_spec (h : 8 ≤ (ramp b c).queue.length + (ramp b c).posted.length) {p : Nat × Nat × Move}
    (hd : rampDisplaced c o b = some p) {d : Block} (e : (rampPost c o m b).2 = d) :
    (ramp d c).posted = (ramp b c).posted.erase p ++ [(b.now, o, m)] ∧ (ramp d c).fullSeen = true ∧
      d.ev.raised = b.ev.raised ++ [evRmpFull] ∧ withRamps b.eng.ramp b.ev d = b := by
  rw [rampPost_displaces hx hv hp h hd] at e
  subst e
  refine ⟨?_, ?_, rfl, ?_⟩
  · simp [ramp_raise]
  · simp [ramp_raise]
  · rw [withRamps_raise, withRamps_modRamp, withRamps_modRamp, withRamps_modRamp, withRamps_self]

end

/-- RAMP_MOVE posts with order 0, RAMP_POST of a core with 1 + core. -/
theorem post_ended {s : State} (h : s.live) (hc : c < 32) {post : Instr}
    (hpost : (post = .rampMove c m.xt m.vc ∧ o = 0) ∨ ∃ core, core < 16 ∧ post = .rampPost c core m.xt m.vc ∧ o = 1 + core)
    (e : (rampPost c o m s.toBlock).2 = b) : exec post s = .next (ended s b) := by
  rcases hpost with ⟨rfl, rfl⟩ | ⟨core, hcore, rfl, rfl⟩
  · exact act_ended (i := .rampMove c m.xt m.vc) h (decide_eq_true hc) ((if_pos hc).trans e)
  · exact act_ended (i := .rampPost c core m.xt m.vc) h (decide_eq_true ⟨hc, hcore⟩) ((if_pos hc).trans e)

end

theorem rampAddCmd_eq (hc : c < 32) (k : RampCmd) : rampAddCmd c k b = modRamp c (fun x => { x with
    cmds := x.cmds ++ [(b.now, ((ramp b c).posted.filter fun m => fabric m.1 = fabric b.now && m.2.1 = 0).length, k)] }) b :=
  if_pos hc

theorem rampStopStep_eq : rampStopStep c b =
    if (ramp b c).queue = [] ∧ (ramp b c).posted = [] then b else rampAddCmd c .stop b := by
  simp [rampStopStep]

theorem rampSetStep_eq (v : F32) : rampSetStep c v b =
    if (ramp b c).queue = [] ∧ (ramp b c).posted = [] then rampAddCmd c (.set v) b else b := by
  simp [rampSetStep]

end

/-- Settles O46: each clause is the step of its command, read from the lemmas above. When a STREAM step publishes, the cancel that lands and the
commands of a channel follow log entry 33. -/
theorem fantailsGearsAndRampCommands : Obligations.fantails_gears_and_ramp_commands := by
  refine ⟨fun i xa xb xc h hd t b => ?_, fun s h => ⟨fun i v hi => ?_, fun i hi k hk => ?_, fun c xt vc hc post o hpost => ?_, fun c hc hn hhn => ?_⟩⟩
  · obtain ⟨da, qa, db, qb, amp, e⟩ := followStep_withoutSample (i := i) (b := b) xa xb xc h hd t
    rw [e, fant_setLocked_same, fant_modFant_same]
    exact ⟨rfl, rfl, rfl, rfl, rfl, rfl⟩
  · exact act_ended (i := .ftDroop i v) h (decide_eq_true hi) (ftDroopStep_eq hi v)
  · subst hk
    have hstream : (Instr.ftStreamStep i).wf = true := decide_eq_true hi
    have hlock : (Instr.ftLock i).wf = true := decide_eq_true hi
    have harm : (Instr.gearArm i).wf = true := decide_eq_true hi
    have hcancel : (Instr.gearCancel i).wf = true := decide_eq_true hi
    refine ⟨fun hm hf h5 => ⟨fun ht => act_ended h hstream (ftStreamStep_taken hi hm hf h5 ht), fun ht th c hc d hd => ?_⟩,
      fun hidle => act_ended h hstream (ftStreamStep_idle hidle), fun hidle => act_ended h hlock (ftLockStep_idle hidle),
      fun a ha hm hf b hb => ?_, fun hn => act_ended h harm (gearArmStep_arms hi hn), fun ha => act_ended h harm (gearArmStep_rejected ha),
      fun hl => act_ended h hcancel (gearCancelStep_late hl), fun ha hl => act_ended h hcancel (gearCancelStep_clears hi ha hl)⟩
    · exact act_ended h hstream (ftStreamStep_steps hi hm hf h5 ht hc hd)
    · subst hb
      exact act_ended h hlock ((ftLockStep_locks hi ha hm hf).trans (setLocked_eq true))
  · refine ⟨fun hbad => post_ended (m := ⟨xt, vc⟩) h hc hpost (rampPost_rejected hbad),
      fun hx hv hp => ⟨fun hfull => ⟨fun hlow => ?_, fun hhigh => ?_⟩, fun hroom => ?_⟩⟩
    · exact post_ended (m := ⟨xt, vc⟩) h hc hpost (rampPost_discarded hx hv hp hfull (rampDisplaced_eq_none hlow))
    · obtain ⟨p, hin, hd, hfab, ho, hmax⟩ := rampDisplaced_eq_some hhigh
      obtain ⟨d, he⟩ : ∃ d, (rampPost c o ⟨xt, vc⟩ s.toBlock).2 = d := ⟨_, rfl⟩
      exact ⟨p, hin, hfab, ho, hmax, d, post_ended h hc hpost he, rampPost_displaces_spec (m := ⟨xt, vc⟩) hx hv hp hfull hd he⟩
    · exact post_ended (m := ⟨xt, vc⟩) h hc hpost (rampPost_joins hx hv hp hroom)
  · subst hhn
    refine ⟨?_, ?_, fun v => ?_⟩
    · rw [← rampAddCmd_eq hc, ← rampStopStep_eq]
      exact act_ended (i := .rampStop c) h (decide_eq_true hc) rfl
    · exact act_ended (i := .rampFlush c) h (decide_eq_true hc) (rampAddCmd_eq hc .flush)
    · rw [← rampAddCmd_eq hc, ← rampSetStep_eq]
      exact act_ended (i := .rampSet c v) h (decide_eq_true hc) rfl

end Sys2Proof.Machine
end

section
/-!
PROOFS. Fabric memory: a table in canonical form is determined by what its indexes read as (R380).
-/

namespace Sys2Proof.Machine

section
variable {α : Type} [DecidableEq α] {d : α}

/-- Below the first entry of a canonical table every index reads the default. -/
theorem tget_of_above {t : Tab α} {k i : Nat} (h : twf d t = true) (ha : above k t) (hi : i ≤ k) : tget d t i = d := by
  induction t generalizing k with
  | nil => rfl
  | cons p t ih =>
    obtain ⟨j, v⟩ := p
    obtain ⟨_, hj, ht⟩ := (twf_cons d j v t).1 h
    have hkj : k < j := ha
    rw [tget, if_neg (by omega), ih ht hj (by omega)]

/-- A canonical table with an entry differs from every table that reads the default there. -/
theorem tget_head_ne {t : Tab α} {j : Nat} {v : α} (h : twf d ((j, v) :: t) = true) : tget d ((j, v) :: t) j ≠ d := by
  obtain ⟨hv, _⟩ := (twf_cons d j v t).1 h
  simpa [tget] using hv

/-- Canonical tables that read alike at every index have their first entries at the same index: neither is before the other. -/
theorem head_index_not_lt {t u : Tab α} {j k : Nat} {v w : α} (ht : twf d ((j, v) :: t) = true) (hu : twf d ((k, w) :: u) = true)
    (h : ∀ i, tget d ((j, v) :: t) i = tget d ((k, w) :: u) i) : ¬ j < k := fun hjk =>
  tget_head_ne ht ((h j).trans (tget_of_above (k := j) hu hjk (Nat.le_refl j)))

/-- Canonical tables that read alike at every index are equal. -/
theorem eq_of_tget_eq {t u : Tab α} (ht : twf d t = true) (hu : twf d u = true) (h : ∀ i, tget d t i = tget d u i) : t = u := by
  induction t generalizing u with
  | nil =>
    cases u with
    | nil => rfl
    | cons q u => exact absurd (h q.1).symm (tget_head_ne hu)
  | cons p t ih =>
    obtain ⟨j, v⟩ := p
    cases u with
    | nil => exact absurd (h j) (tget_head_ne ht)
    | cons q u =>
      obtain ⟨k, w⟩ := q
      obtain rfl : j = k := by
        have hjk := head_index_not_lt ht hu h
        have hkj := head_index_not_lt hu ht fun i => (h i).symm
        omega
      obtain rfl : v = w := by simpa [tget] using h j
      obtain ⟨_, hat, htt⟩ := (twf_cons d j v t).1 ht
      obtain ⟨_, hau, huu⟩ := (twf_cons d j v u).1 hu
      have htail : ∀ i, tget d t i = tget d u i := fun i => by
        by_cases hi : j = i
        · rw [tget_of_above htt hat (by omega), tget_of_above huu hau (by omega)]
        · simpa [tget, hi] using h i
      rw [ih htt huu htail]

end

/-- Settles O10: the laws of a write to fabric memory, and the canonical form's uniqueness. -/
theorem memoryReadAfterWrite : Obligations.memory_read_after_write := by
  intro m a l h
  exact ⟨memWf_memWriteBytes l m a h, memRead_memWriteBytes_in l m a, memRead_memWriteBytes_out l m a, fun m' h' hr => eq_of_tget_eq h' h hr⟩

end Sys2Proof.Machine
end

section
/-!
PROOFS. DMA channels: descriptors, granules, the end of a chain and the clearing of halts (R386 to R391).
-/

namespace Sys2Proof.Machine

section
variable {c : Nat} {b : Block}

/-! ### The end of a descriptor (R386, R387) -/

theorem dma_raiseIf (t : Bool) (e : Nat) (b : Block) (j : Nat) : dma (raiseIf t e b) j = dma b j :=
  raiseIf_keeps (fun s => dma s j) (fun _ _ => rfl) t e b

/-- The control word asks for DMA_DONE at the descriptor's end. -/
def descEvent (c : Nat) (b : Block) : Block := raiseIf (bitAt (dma b c).ctrl 1) evDmaDone b

theorem dma_descEvent (j : Nat) : dma (descEvent c b) j = dma b j := dma_raiseIf _ _ b j

theorem dam_descEvent : (descEvent c b).dam = b.dam := raiseIf_keeps Block.dam (fun _ _ => rfl) _ _ b

theorem mem_descEvent : (descEvent c b).mem = b.mem := raiseIf_keeps Block.mem (fun _ _ => rfl) _ _ b

theorem raised_descEvent :
    (descEvent c b).ev.raised = b.ev.raised ++ if bitAt (dma b c).ctrl 1 = true then [evDmaDone] else [] := raised_raiseIf _ _ b

/-- The channel's bit of DMA_DONE is set. -/
def markDone (c : Nat) (b : Block) : Block := { b with dam := { b.dam with dmaDone := setBit b.dam.dmaDone c true } }

/-- The last descriptor ends the chain. -/
theorem descEnd_last (h : bitAt (dma b c).ctrl 0 = true) :
    descEnd c b = modDma c (fun x => { x with st := .idle, outcome := 1, residual := 0 }) (markDone c (descEvent c b)) := if_pos h

/-- Another descriptor is followed by the next one. -/
theorem descEnd_next (h : bitAt (dma b c).ctrl 0 = false) : descEnd c b =
    modDma c (fun x => { x with fetching := true, descAddr := x.next }) (descEvent c b) :=
  if_neg (Bool.eq_false_iff.1 h)

theorem mem_descEnd : (descEnd c b).mem = b.mem := by
  cases h : bitAt (dma b c).ctrl 0
  · rw [descEnd_next h, modDma_mem, mem_descEvent]
  · rw [descEnd_last h, modDma_mem]
    exact mem_descEvent

theorem raised_descEnd :
    (descEnd c b).ev.raised = b.ev.raised ++ if bitAt (dma b c).ctrl 1 = true then [evDmaDone] else [] := by
  cases h : bitAt (dma b c).ctrl 0
  · rw [descEnd_next h, modDma_ev, raised_descEvent]
  · rw [descEnd_last h, modDma_ev]
    exact raised_descEvent

theorem descEnd_last_spec (h : bitAt (dma b c).ctrl 0 = true) :
    dma (descEnd c b) c = { dma b c with st := .idle, outcome := 1, residual := 0 } ∧ bitAt (descEnd c b).dam.dmaDone c = true ∧
      ∀ j, j ≠ c → dma (descEnd c b) j = dma b j ∧ bitAt (descEnd c b).dam.dmaDone j = bitAt b.dam.dmaDone j := by
  have hdma : ∀ j, dma (markDone c (descEvent c b)) j = dma b j := dma_descEvent
  have hdone : (markDone c (descEvent c b)).dam.dmaDone = setBit b.dam.dmaDone c true := by
    simp only [markDone, dam_descEvent]
  rw [descEnd_last h]
  refine ⟨?_, ?_, fun j hj => ⟨?_, ?_⟩⟩
  · rw [dma_modDma_same, hdma]
  · exact (congrArg (bitAt · c) hdone).trans (bitAt_setBit_same _ _ _)
  · rw [dma_modDma_ne _ _ hj, hdma]
  · exact (congrArg (bitAt · j) hdone).trans (testBit_setBit_ne _ _ hj)

theorem descEnd_next_spec (h : bitAt (dma b c).ctrl 0 = false) :
    dma (descEnd c b) c = { dma b c with fetching := true, descAddr := (dma b c).next } ∧ (descEnd c b).dam.dmaDone = b.dam.dmaDone ∧
      ∀ j, j ≠ c → dma (descEnd c b) j = dma b j := by
  rw [descEnd_next h]
  refine ⟨?_, ?_, fun j hj => ?_⟩
  · rw [dma_modDma_same, dma_descEvent]
  · exact (congrArg DamselSt.dmaDone dam_descEvent : (descEvent c b).dam.dmaDone = _)
  · rw [dma_modDma_ne _ _ hj, dma_descEvent]

/-! ### A descriptor fetch (R385, R389) -/

section
variable {err : Nat} {host : List W8}

theorem dmaDescriptorFetchStep_skips (h : (dma b c).st ≠ .running ∨ (dma b c).fetching = false) : dmaDescriptorFetchStep c err host b = b := by
  rcases h with h | h <;> simp [dmaDescriptorFetchStep, h]

section
variable (hc : c < 32) (hr : (dma b c).st = .running) (hf : (dma b c).fetching = true)
include hc hr hf

theorem dmaDescriptorFetchStep_faults {k : Nat} (hk : readCause b (dma b c).part (dma b c).descAddr err 4 6 = some k) :
    dmaDescriptorFetchStep c err host b = dmaHalt c k (dma b c).descAddr 0 b := by
  simp [dmaDescriptorFetchStep, hc, hr, hf, hk]

variable (hk : readCause b (dma b c).part (dma b c).descAddr err 4 6 = none)
include hk

theorem dmaDescriptorFetchStep_malformed (hl : descOk (granule b (dma b c).descAddr host) = false) :
    dmaDescriptorFetchStep c err host b = dmaHalt c 5 (dma b c).descAddr 0 b := by
  simp [dmaDescriptorFetchStep, hc, hr, hf, hk, hl]

theorem dmaDescriptorFetchStep_loads {l : List W8} (e : l = granule b (dma b c).descAddr host) (hl : descOk l = true) :
    dmaDescriptorFetchStep c err host b = modDma c (fun x => { x with
      fetching := false, src := leAt l 0 8, dst := leAt l 8 8, count := leAt l 16 4, ctrl := leAt l 20 4, next := leAt l 24 8, k := 0 }) b := by
  subst e
  simp [dmaDescriptorFetchStep, hc, hr, hf, hk, hl]

end

/-! ### A granule (R386, R388, R390) -/

theorem granule_length (a : Nat) : (granule b a host).length = 32 := by
  unfold granule
  split
  · simp [upto]
  · exact memReadBytes_length _ _ _

theorem dmaGranuleReadStep_skips (h : ((dma b c).st ≠ .running ∧ lastAborted b (dma b c) = false) ∨ (dma b c).fetching = true) :
    dmaGranuleReadStep c err host b = b := by
  rcases h with ⟨hr, ha⟩ | hf
  · simp [dmaGranuleReadStep, hr, ha]
  · simp [dmaGranuleReadStep, hf]

/-- A granule of channel c lies at the destination da and the channel stands one granule on. -/
def granuleMoved (c da : Nat) (l : List W8) (b : Block) : Block := modDma c (fun x => { x with k := x.k + 1 }) (writeBytes da l b)

section
variable (hc : c < 32) (hr : (dma b c).st = .running ∨ lastAborted b (dma b c) = true) (hf : (dma b c).fetching = false)
  {sa da : Nat} (hsa : sa = (dma b c).src + 32 * (dma b c).k) (hda : da = (dma b c).dst + 32 * (dma b c).k)
include hc hr hf hsa hda

omit hda in
theorem dmaGranuleReadStep_readFaults {k : Nat} (hk : readCause b (dma b c).part sa err 1 3 = some k) :
    dmaGranuleReadStep c err host b = dmaHalt c k sa ((dma b c).count - (dma b c).k) b := by
  subst hsa
  simp [dmaGranuleReadStep, hc, hr, hf, hk]

variable (hk : readCause b (dma b c).part sa err 1 3 = none)
include hk

theorem dmaGranuleReadStep_writeFaults {k : Nat} (hw : writeCause b (dma b c).part da = some k) :
    dmaGranuleReadStep c err host b = dmaHalt c k da ((dma b c).count - (dma b c).k) b := by
  subst hsa hda
  simp [dmaGranuleReadStep, hc, hr, hf, hk, hw]

/-- The granule moves; the descriptor may end with it, and an abort of the fabric cycle may be overtaken. -/
theorem dmaGranuleReadStep_moves (hw : writeCause b (dma b c).part da = none) {d : Block}
    (hd : d = if (dma b c).k + 1 = (dma b c).count then descEnd c (granuleMoved c da (granule b sa host) b) else granuleMoved c da (granule b sa host) b) :
    dmaGranuleReadStep c err host b = if lastAborted b (dma b c) = true then abortAmend (dma b c) d else d := by
  subst hsa hda hd
  simp [dmaGranuleReadStep, hc, hr, hf, hk, hw, granuleMoved]

end
end

theorem granuleMoved_spec (c da : Nat) (l : List W8) (b : Block) :
    dma (granuleMoved c da l b) c = { dma b c with k := (dma b c).k + 1 } ∧ (∀ j, j ≠ c → dma (granuleMoved c da l b) j = dma b j) ∧
      (granuleMoved c da l b).mem = memWriteBytes b.mem da l ∧
      { granuleMoved c da l b with dam := { (granuleMoved c da l b).dam with dma := b.dam.dma }, mem := b.mem } = b :=
  ⟨dma_modDma_same _ _ _, fun _ hj => dma_modDma_ne _ _ hj, rfl, rfl⟩

/-! ### Clearing halts (R391) -/

/-- A halted channel becomes IDLE. -/
def haltCleared (x : DmaSt) : DmaSt := if x.st = .halted then { x with st := .idle } else x

theorem dmaHaltClearStep_eq (m : Nat) : dmaHaltClearStep m b = forEach (onesBelow m 32) (fun c => modDma c haltCleared) b := rfl

theorem dma_dmaHaltClearStep (m : Nat) :
    dma (dmaHaltClearStep m b) c = if c < 32 ∧ bitAt m c = true ∧ (dma b c).st = .halted then { dma b c with st := .idle } else dma b c := by
  have hnodup : (onesBelow m 32).Nodup := (nodup_upto 32).filter _
  rw [dmaHaltClearStep_eq, read_forEach dma (fun c => modDma c haltCleared) haltCleared (fun k s => dma_modDma_same k _ s)
    (fun j k s hj => dma_modDma_ne _ s hj) _ hnodup]
  simp only [mem_onesBelow, haltCleared, ← and_assoc, ← ite_and]

theorem dmaHaltClearStep_rest (m : Nat) (x : Tab DmaSt) :
    ({ dmaHaltClearStep m b with dam := { (dmaHaltClearStep m b).dam with dma := x } } : Block) = { b with dam := { b.dam with dma := x } } :=
  kept_forEach (fun t : Block => ({ t with dam := { t.dam with dma := x } } : Block)) (fun c => modDma c haltCleared) (fun _ _ => rfl) _ b

end

/-- Settles O60: what a halt and a descriptor's end change, then each command's step, read from the lemmas above. -/
theorem dmaReadsDescriptorsAndMovesGranules : Obligations.dma_reads_descriptors_and_moves_granules := by
  refine ⟨dmaHalt_spec, ?_, fun s h => ⟨fun c err host hc herr hhost => ?_, fun m => ?_⟩⟩
  · rintro c b x rfl
    refine ⟨?_, ?_, mem_descEnd, raised_descEnd⟩
    · rintro hl d rfl
      exact descEnd_last_spec hl
    · rintro hl d rfl
      exact descEnd_next_spec hl
  · rintro x rfl
    have hwf : decide (c < 32 ∧ err < 3 ∧ host.length = 32) = true := decide_eq_true ⟨hc, herr, hhost⟩
    have fetches : ∀ {b}, dmaDescriptorFetchStep c err host s.toBlock = b → exec (.dmaDescriptorFetch c err host) s = .next (ended s b) :=
      act_ended (i := .dmaDescriptorFetch c err host) h hwf
    have reads : ∀ {b}, dmaGranuleReadStep c err host s.toBlock = b → exec (.dmaGranuleRead c err host) s = .next (ended s b) :=
      act_ended (i := .dmaGranuleRead c err host) h hwf
    refine ⟨fun hr => ⟨fetches (dmaDescriptorFetchStep_skips (.inl hr)), fun ha => reads (dmaGranuleReadStep_skips (.inl ⟨hr, ha⟩))⟩,
      fun hf => fetches (dmaDescriptorFetchStep_skips (.inr hf)), fun hf => reads (dmaGranuleReadStep_skips (.inr hf)),
      fun hr hf => ⟨fun k hk => fetches (dmaDescriptorFetchStep_faults hc hr hf hk), fun hk l hl => ⟨fun hbad => ?_, fun hok => ?_⟩⟩,
      fun hr hf sa da hsa hda => ⟨fun k hk => reads (dmaGranuleReadStep_readFaults hc hr hf hsa hk),
        fun k hk hw => reads (dmaGranuleReadStep_writeFaults hc hr hf hsa hda hk hw), fun hk hw => ?_⟩⟩
    · exact fetches (dmaDescriptorFetchStep_malformed hc hr hf hk (hl ▸ hbad))
    · exact ⟨_, fetches (dmaDescriptorFetchStep_loads hc hr hf hk hl hok), dma_modDma_same _ _ _, fun j hj => dma_modDma_ne _ _ hj, rfl⟩
    · obtain ⟨hdma, hother, hmem, hrest⟩ := granuleMoved_spec c da (granule s.toBlock sa host) s.toBlock
      refine ⟨_, fun d hd => reads (dmaGranuleReadStep_moves hc hr hf hsa hda hk hw hd), hdma, hother, fun k hk => ?_, granule_length sa,
        fun a ha => ?_, hrest⟩
      · rw [hmem, memRead_memWriteBytes_in _ _ _ _ hk]
      · rw [hmem, memRead_memWriteBytes_out _ _ _ _ (by rwa [granule_length])]
  · exact ⟨_, act_ended (i := .dmaHaltClear m) h rfl rfl, dmaHaltClearStep_rest m.toNat s.dam.dma, fun c => dma_dmaHaltClearStep m.toNat⟩

end Sys2Proof.Machine
end

section
/-!
PROOFS. The execution of blocks, the ends of their waits, and the cancel and re-arm of tasks (R337, R339, R348, R350, R365 to R372, R392).
-/

namespace Sys2Proof.Machine

/-! ### Blocks that hand on a value (R348, R350) -/

section
variable {c t k : Nat} {b : Block}

theorem runBlock_recTap (h : blkType (img b) k = 0x65) :
    runBlock c t k b = finishBlock c t (recTap (blkPar (img b) k 0).toNat (pinIn b k 0 0#32) b) := by
  simp only [runBlock, h]

theorem runBlock_readback (h : blkType (img b) k = 0x66) :
    runBlock c t k b = finishBlock c t (readbackWrite (blkPar (img b) k 0).toNat (pinIn b k 0 0#32) b) := by
  simp only [runBlock, h]

theorem runBlock_raiseEvent (h : blkType (img b) k = 0x64) :
    runBlock c t k b = finishBlock c t (blkWrite k (outsSt [] [pinIn b k 0 0#32])
      (if rise (pinIn b k 0 0#32) (wAt (blkStates b k) 0) = true then eventPost (blkPar (img b) k 0).toNat b else b)) := by
  simp only [runBlock, h]

end

/-! ### BLOCK_EXECUTE (R337, R392) -/

section
variable {c t k err : Nat} {d : Block}

/-- Block k of task t starts: a fault of its inputs strikes it, or of the queue entry it takes, or it runs. -/
def startBlock (c t k err : Nat) (d : Block) : Block :=
  if err = 1 then blockFault c t k 1 d
  else if err = 2 ∧ blkType (img d) k = 0x0B ∧ pinIn d k 0 1#32 ≠ 0#32 then
    match queueTake (blkPar (img d) k 0).toNat d with
    | some (_, e) => blockFault c t k 1 e
    | none => runBlock c t k d
  else runBlock c t k d

theorem startBlock_granuleError (h : err = 1) : startBlock c t k err d = blockFault c t k 1 d := if_pos h

theorem startBlock_queueError {w : List W32} {e : Block} (he : err = 2) (h : blkType (img d) k = 0x0B) (ht : pinIn d k 0 1#32 ≠ 0#32)
    (hq : queueTake (blkPar (img d) k 0).toNat d = some (w, e)) : startBlock c t k err d = blockFault c t k 1 e := by
  simp [startBlock, he, h, ht, hq]

theorem startBlock_runs (h : err = 0 ∨ err = 3 ∨ (err = 2 ∧ (blkType (img d) k ≠ 0x0B ∨ pinIn d k 0 1#32 = 0#32 ∨
    queueTake (blkPar (img d) k 0).toNat d = none))) : startBlock c t k err d = runBlock c t k d := by
  rcases h with h | h | ⟨he, h | h | h⟩
  · simp [startBlock, h]
  · simp [startBlock, h]
  · simp [startBlock, he, h]
  · simp [startBlock, he, h]
  · simp [startBlock, he, h]

end

section
variable {c err : Nat} {b : Block}

theorem blockExecuteStep_idle (h : (core b c).task = none ∨ (core b c).wait ≠ .none) : blockExecuteStep c err b = b := by
  cases ht : (core b c).task with
  | none => simp [blockExecuteStep, ht]
  | some t => simp [blockExecuteStep, ht, h.resolve_left (by simp [ht])]

section
variable {t : Nat} (ht : (core b c).task = some t) (hw : (core b c).wait = .none) {a : Block}
  (ha : a = modCore c (fun x => { x with begun := true }) b)
include ht hw ha

theorem blockExecuteStep_noBlockLeft (hn : (taskBlocks (img a) t)[(task a t).next]? = none) :
    blockExecuteStep c err b = finishBlock c t a := by
  simp [blockExecuteStep, ht, hw, ← ha, hn]

section
variable {k : Nat} (hk : (taskBlocks (img a) t)[(task a t).next]? = some k)
include hk

/-- R392: a resume record in error strikes the block before which the task resumes. -/
theorem blockExecuteStep_resumeFault (he : err = 3) (hs : (task a t).started = true) (hb : (core b c).begun = false) :
    blockExecuteStep c err b = blockFault c t k 3 a := by
  have hs : (task b t).started = true := by rwa [ha] at hs
  simp [blockExecuteStep, ht, hw, ← ha, hk, he, hs, hb]

section
variable (hr : err ≠ 3 ∨ (task a t).started = false ∨ (core b c).begun = true)
include hr

omit ht hw hk in
theorem not_resumeFault : ¬ (err = 3 ∧ ((task b t).started && !(core b c).begun) = true) := by
  have htask : task a t = task b t := by rw [ha]; rfl
  rw [htask] at hr
  rcases hr with h | h | h <;> simp [h]

/-- R339, R292: a block whose source is not ready waits. -/
theorem blockExecuteStep_waits (hs : sourceWait a k ≠ .none) :
    blockExecuteStep c err b = modCore c (fun x => { x with wait := sourceWait a k }) a := by
  have hno := not_resumeFault ha hr
  simp only [blockExecuteStep, ht, hw, ← ha, hk, hno, hs, ne_eq, not_true_eq_false, not_false_eq_true, if_false, if_true]

theorem blockExecuteStep_starts (hs : sourceWait a k = .none) :
    blockExecuteStep c err b = startBlock c t k err (modTask t (fun x => { x with started := true }) a) := by
  have hno := not_resumeFault ha hr
  simp only [blockExecuteStep, ht, hw, ← ha, hk, hno, hs, ne_eq, not_true_eq_false, if_false]
  rfl

end
end
end
end

/-! ### BLOCK_SOURCE_WAIT_END (R339, R292) -/

section
variable {c : Nat} {b : Block}

theorem blockSourceWaitEndStep_converted (h : (core b c).wait = .adc) (hr : b.cyc.adcReady = true) :
    blockSourceWaitEndStep c b = modCore c (fun x => { x with wait := .none }) b := by
  simp only [blockSourceWaitEndStep, h, hr, if_true]

theorem blockSourceWaitEndStep_published (h : (core b c).wait = .published) :
    blockSourceWaitEndStep c b = modCore c (fun x => { x with wait := .none }) { b with cyc := { b.cyc with published := true } } := by
  simp only [blockSourceWaitEndStep, h]

theorem blockSourceWaitEndStep_ignored (h : (core b c).wait ≠ .adc ∨ b.cyc.adcReady = false) (hp : (core b c).wait ≠ .published) :
    blockSourceWaitEndStep c b = b := by
  cases hw : (core b c).wait with
  | adc => simp [blockSourceWaitEndStep, hw, h.resolve_left (by simp [hw])]
  | published => exact absurd hw hp
  | none | gov => simp only [blockSourceWaitEndStep, hw]

end

/-! ### TASK_CANCEL (R369 to R372) -/

section
variable {t : Nat} {s : Block}

theorem taskCancelStep_noTask (h : imgTasks s ≤ t) : taskCancelStep t s = s := if_neg (Nat.not_lt.2 h)

theorem taskCancelStep_refused (h : t < imgTasks s) (hr : cancelRefused s t = true) :
    taskCancelStep t s = modTask t (fun x => { x with cancelRef := true }) s := by
  simp [taskCancelStep, h, hr]

theorem taskCancelStep_cancels (h : t < imgTasks s) (hr : cancelRefused s t = false) :
    taskCancelStep t s = cancelTask t (modTask t (fun x => { x with cancelRef := false }) s) := by
  simp [taskCancelStep, h, hr]

section
variable {a : Block} (ha : a = undoRelease t s) {b : Block} (hb : b = modTask t (fun x => { x with cancelAt := some a.now }) a)
include ha hb

theorem cancelTask_idle (h : (task a t).st = .idle) :
    cancelTask t s = raise evTaskCancelled (modTask t (fun x => { x with st := .cancelled }) b) := by
  simp only [cancelTask, ← ha, ← hb, h]

theorem cancelTask_cancelled (h : (task a t).st = .cancelled) : cancelTask t s = b := by
  simp only [cancelTask, ← ha, ← hb, h]

theorem cancelTask_ready (h : (task a t).st = .ready) :
    cancelTask t s = cancelled t 3 (modPrio (tPrio (img b) t) (List.filter (· ≠ t)) b) := by
  simp only [cancelTask, ← ha, ← hb, h]

theorem cancelTask_preempted (h : (task a t).st = .preempted) :
    cancelTask t s = cancelled t 4 (modPrio (tPrio (img b) t) (List.filter (· ≠ t)) b) := by
  simp only [cancelTask, ← ha, ← hb, h]

theorem cancelTask_blocked (h : (task a t).st = .blocked) : cancelTask t s = cancelled t 4 (abandonPost t b) := by
  simp only [cancelTask, ← ha, ← hb, h]

/-- R369: a running task ends with its block. -/
theorem cancelTask_running (h : (task a t).st = .running)
    (hc : (core b (task a t).core).begun = true ∨ (core b (task a t).core).givenAt + 80 ≤ b.now) :
    cancelTask t s = modTask t (fun x => { x with cancelPend := true }) b := by
  have hbegun : ¬ ((!(core b (task a t).core).begun) = true ∧ b.now < (core b (task a t).core).givenAt + 80) := by
    rcases hc with h | h
    · simp [h]
    · exact fun g => absurd g.2 (Nat.not_lt.2 h)
  simp only [cancelTask, ← ha, ← hb, h, if_neg hbegun]

/-- R370: a task whose core has not begun it ends at once. -/
theorem cancelTask_notBegun (h : (task a t).st = .running) (hc : (core b (task a t).core).begun = false)
    (hn : b.now < (core b (task a t).core).givenAt + 80) :
    cancelTask t s = freeCore (task a t).core (cancelled t (if (task a t).started = true then 4 else 3) b) := by
  have hnot : (!(core b (task a t).core).begun) = true ∧ b.now < (core b (task a t).core).givenAt + 80 := ⟨by rw [hc]; rfl, hn⟩
  simp only [cancelTask, ← ha, ← hb, h, if_pos hnot]

end

/-! ### TASK_REARM and TASK_REARM_CLEAR (R371) -/

theorem rearm_rearms (h : t < imgTasks s) (hst : (task s t).st = .cancelled)
    (hc : ∀ u, (task s t).cancelAt = some u → fabric u ≠ fabric s.now) (clear : Bool) :
    rearm clear t s = modTask t (fun x => { x with st := .idle, flags := if clear then 0 else x.flags }) (keepPre t (damselFresh s)) := by
  cases hat : (task s t).cancelAt with
  | none => simp [rearm, h, hst, hat]
  | some u => simp [rearm, h, hst, hat, hc u hat]

theorem rearm_ignored (h : imgTasks s ≤ t ∨ (task s t).st ≠ .cancelled ∨ ∃ u, (task s t).cancelAt = some u ∧ fabric u = fabric s.now)
    (clear : Bool) : rearm clear t s = s := by
  rcases h with h | h | ⟨u, hat, hu⟩
  · simp [rearm, Nat.not_lt.2 h]
  · simp [rearm, h]
  · simp [rearm, hat, hu]

end

/-- Settles O59: each clause is the effect of a block or the step of its command, read from the lemmas above. -/
theorem taskExecutionCancelAndRearm : Obligations.task_execution_cancel_and_rearm := by
  refine ⟨fun c t b s => ⟨runBlock_recTap, runBlock_readback, runBlock_raiseEvent⟩, fun s h =>
    ⟨fun c err hc herr => ?_, fun c hc => ?_, fun t ht x hx => ?_⟩⟩
  · have executes : ∀ {b}, blockExecuteStep c err s.toBlock = b → exec (.blockExecute c err) s = .next (ended s b) :=
      act_ended (i := .blockExecute c err) h (decide_eq_true ⟨hc, herr⟩)
    refine ⟨fun hidle => executes (blockExecuteStep_idle hidle), fun t ht hw a ha => ⟨fun hn => executes (blockExecuteStep_noBlockLeft ht hw ha hn),
      fun b hb => ⟨fun ⟨he, hs, hbegun⟩ => executes (blockExecuteStep_resumeFault ht hw ha hb he hs hbegun),
        fun hr => ⟨fun hs => executes (blockExecuteStep_waits ht hw ha hb hr hs), fun hs d hd => ?_⟩⟩⟩⟩
    have starts : blockExecuteStep c err s.toBlock = startBlock c t b err d := hd ▸ blockExecuteStep_starts ht hw ha hb hr hs
    exact ⟨fun he => executes (starts.trans (startBlock_granuleError he)),
      fun w e he h0B htake hq => executes (starts.trans (startBlock_queueError he h0B htake hq)),
      fun hrun => executes (starts.trans (startBlock_runs hrun))⟩
  · have ends : ∀ {b}, blockSourceWaitEndStep c s.toBlock = b → exec (.blockSourceWaitEnd c) s = .next (ended s b) :=
      act_ended (i := .blockSourceWaitEnd c) h (decide_eq_true hc)
    exact ⟨fun ⟨hw, hr⟩ => ends (blockSourceWaitEndStep_converted hw hr), fun hw => ends (blockSourceWaitEndStep_published hw),
      fun hw hp => ends (blockSourceWaitEndStep_ignored hw hp)⟩
  · subst hx
    have hwf : decide (t < 256) = true := decide_eq_true ht
    have cancels : ∀ {b}, taskCancelStep t s.toBlock = b → exec (.taskCancel t) s = .next (ended s b) :=
      act_ended (i := .taskCancel t) h hwf
    have rearms : ∀ {b}, rearm false t s.toBlock = b → exec (.taskRearm t) s = .next (ended s b) := act_ended (i := .taskRearm t) h hwf
    have clears : ∀ {b}, rearm true t s.toBlock = b → exec (.taskRearmClear t) s = .next (ended s b) :=
      act_ended (i := .taskRearmClear t) h hwf
    refine ⟨fun hn => cancels (taskCancelStep_noTask hn), fun hlt hr => cancels (taskCancelStep_refused hlt hr), fun hlt hr a ha x hx b hb => ?_,
      fun hlt hst hc => ⟨rearms (rearm_rearms hlt hst hc false), clears (rearm_rearms hlt hst hc true)⟩,
      fun hno => ⟨rearms (rearm_ignored hno false), clears (rearm_ignored hno true)⟩⟩
    subst hx
    have e := taskCancelStep_cancels hlt hr
    exact ⟨fun hst => cancels (e.trans (cancelTask_idle ha hb hst)), fun hst => cancels (e.trans (cancelTask_cancelled ha hb hst)),
      fun hst => cancels (e.trans (cancelTask_ready ha hb hst)), fun hst => cancels (e.trans (cancelTask_preempted ha hb hst)),
      fun hst => cancels (e.trans (cancelTask_blocked ha hb hst)), fun hst => ⟨fun hc => cancels (e.trans (cancelTask_running ha hb hst hc)),
        fun hc hn => cancels (e.trans (cancelTask_notBegun ha hb hst hc hn))⟩⟩

end Sys2Proof.Machine
end

section
/-!
PROOFS. Message queues: posts, takes, blocked posts and held entries, and the blocks that post events (R328, R344, R348, R350, R373 to R377).
-/

namespace Sys2Proof.Machine

/-! ### A post (R374, R376) -/

section
variable {q : Nat} {p y : QPost} {b : Block}

/-- R374: the post that gives way entered last in this fabric cycle and ranks later. -/
theorem queueBehind_eq_some {rank : Nat} (h : queueBehind b q rank = some y) :
    rank < y.rank ∧ (queue b q).accAt = fabric b.now + 1 ∧ (queue b q).entered.getLast? = some y := by
  unfold queueBehind at h
  split at h
  · next x hlast =>
    split at h
    · next hc =>
      simp only [Bool.and_eq_true, decide_eq_true_eq] at hc
      obtain ⟨⟨hacc, hrank⟩, _⟩ := hc
      obtain rfl : x = y := Option.some.inj h
      exact ⟨hrank, hacc, hlast⟩
    · simp at h
  · simp at h

theorem queuePut_enters (h : queueFull b q = false) : queuePut q p b = (true, queueEnter q p b) := by
  simp [queuePut, h]

theorem queuePut_displaces (h : queueFull b q = true) (hy : queueBehind b q p.rank = some y) :
    queuePut q p b = (true, queueEnter q p (queueYield q y b)) := by
  simp [queuePut, h, hy]

theorem queuePut_fails (h : queueFull b q = true) (hy : queueBehind b q p.rank = none) : queuePut q p b = (false, b) := by
  simp [queuePut, h, hy]

/-- A post that finds no place changes nothing. -/
theorem eq_of_queuePut_false {u : Block} (h : queuePut q p b = (false, u)) : u = b := by
  cases hf : queueFull b q with
  | false => simp [queuePut_enters hf] at h
  | true =>
    cases hy : queueBehind b q p.rank with
    | some y => simp [queuePut_displaces hf hy] at h
    | none => simpa [queuePut_fails hf hy, eq_comm] using h

theorem entryBytes_length (w : List W32) : (entryBytes w).length = 32 := by
  simp [entryBytes, upto, List.length_flatMap, leBytes_length]

/-! ### A held entry of a hardware source (R376, R422) -/

theorem hwRetry_none (h : (queue b q).hwHeld = none) : hwRetry q b = b := by simp [hwRetry, h]

section
variable {w : List W32} (hw : (queue b q).hwHeld = some w) {u : Block}
include hw

theorem hwRetry_enters (h : queuePut q { rank := 2, who := 0, w := w } b = (true, u)) :
    hwRetry q b = modQueue q (fun x => { x with hwHeld := none }) u := by
  simp [hwRetry, hw, h]

theorem hwRetry_fails (h : queuePut q { rank := 2, who := 0, w := w } b = (false, u)) : hwRetry q b = b := by
  simp [hwRetry, hw, h, eq_of_queuePut_false h]

/-- R422: a record of an injection source that enters raises ADC_INJ_DONE. -/
theorem hwSourceRetryStep_enters (h : queuePut q { rank := 2, who := 0, w := w } b = (true, u)) {d : Block}
    (hd : d = modQueue q (fun x => { x with hwHeld := none }) u) :
    hwSourceRetryStep q b = if qSrc d q = 2 then raise evAdcInjDone d else d := by
  have hheld : (queue d q).hwHeld = none := by rw [hd, queue_modQueue_same]
  simp only [hwSourceRetryStep, hwRetry_enters hw h, ← hd, hw, hheld, raiseIf, Option.isSome_some, Option.isNone_none, Bool.and_self, Bool.true_and,
    decide_eq_true_eq]

theorem hwSourceRetryStep_stillHeld (h : queuePut q { rank := 2, who := 0, w := w } b = (false, u)) : hwSourceRetryStep q b = b := by
  simp [hwSourceRetryStep, hwRetry_fails hw h, hw, raiseIf]

end

theorem hwSourceRetryStep_none (h : (queue b q).hwHeld = none) : hwSourceRetryStep q b = b := by
  simp [hwSourceRetryStep, hwRetry_none h, h, raiseIf]

theorem refusedEnter_none (h : (queue b q).refused = []) : refusedEnter q b = b := by simp [refusedEnter, h]

end

/-! ### A post that blocks its task (R375, R369) -/

section
variable {q c t : Nat} {w : List W32} {b u : Block}

theorem queuePostBlockStep_noTask (h : (core b c).task = none) : queuePostBlockStep q c w b = b := by
  simp [queuePostBlockStep, h]

/-- The task and the words wait, and the queue is stalled. -/
def postWaits (q t : Nat) (w : List W32) (u : Block) : Block :=
  queueStalls q (modQueue q (fun x => { x with waiting := x.waiting ++ [(t, w)] }) u)

theorem queuePostBlockStep_enters (ht : (core b c).task = some t)
    (h : queuePut q { rank := 4 + c, who := t, w := w } (hwRetry q b) = (true, u)) : queuePostBlockStep q c w b = u := by
  simp [queuePostBlockStep, ht, taskPost, queuePost, h]

theorem queuePostBlockStep_waits (ht : (core b c).task = some t)
    (h : queuePut q { rank := 4 + c, who := t, w := w } (hwRetry q b) = (false, u)) :
    queuePostBlockStep q c w b = blockTask c t (postWaits q t w u) := by
  simp [queuePostBlockStep, ht, taskPost, queuePost, h, postWaits]

/-- A queue that stalls anew raises QUEUE_STALL. -/
theorem queueStalls_spec (q : Nat) (b : Block) : queue (queueStalls q b) q = { queue b q with stall := true } ∧
    (∀ j, j ≠ q → queue (queueStalls q b) j = queue b j) ∧
    (queueStalls q b).ev.raised = b.ev.raised ++ (if (queue b q).stall = false then [evQueueStall] else []) ∧
    ∀ x y, ({ queueStalls q b with dam := { (queueStalls q b).dam with queues := x }, ev := y } : Block) =
      { b with dam := { b.dam with queues := x }, ev := y } := by
  have hq : ∀ j, queue (queueStalls q b) j = queue (modQueue q (fun x => { x with stall := true }) b) j := fun j =>
    raiseIf_keeps (fun s => queue s j) (fun _ _ => rfl) _ _ _
  refine ⟨?_, fun j hj => ?_, ?_, fun x y => ?_⟩
  · rw [hq, queue_modQueue_same]
  · rw [hq, queue_modQueue_ne _ _ hj]
  · rw [queueStalls, raised_raiseIf]
    simp [modQueue]
  · exact raiseIf_keeps (fun s : Block => ({ s with dam := { s.dam with queues := x }, ev := y } : Block)) (fun _ _ => rfl) _ _ _

theorem postWaits_spec (q t : Nat) (w : List W32) (u : Block) :
    queue (postWaits q t w u) q = { queue u q with waiting := (queue u q).waiting ++ [(t, w)], stall := true } ∧
    (∀ j, j ≠ q → queue (postWaits q t w u) j = queue u j) ∧
    (postWaits q t w u).ev.raised = u.ev.raised ++ (if (queue u q).stall = false then [evQueueStall] else []) ∧
    { postWaits q t w u with dam := { (postWaits q t w u).dam with queues := u.dam.queues }, ev := u.ev } = u := by
  obtain ⟨hsame, hother, hraised, hrest⟩ := queueStalls_spec q (modQueue q (fun x => { x with waiting := x.waiting ++ [(t, w)] }) u)
  rw [queue_modQueue_same] at hsame hraised
  exact ⟨hsame, fun j hj => (hother j hj).trans (queue_modQueue_ne _ _ hj), hraised, hrest _ _⟩

theorem task_postWaits (j : Nat) : task (postWaits q t w u) j = task u j :=
  raiseIf_keeps (fun s => task s j) (fun _ _ => rfl) _ _ _

/-- R369: the task of a post that waits blocks, or a pending cancel takes it there. -/
theorem blockTask_postWaits : blockTask c t (postWaits q t w u) = if (task u t).cancelPend = true
    then freeCore c (cancelled t 4 (abandonPost t (postWaits q t w u)))
    else freeCore c (modTask t (fun x => { x with st := .blocked, next := x.next + 1 }) (postWaits q t w u)) := by
  rw [blockTask, task_postWaits]

end

/-! ### The end of a blocked post's wait (R375) -/

section
variable {q : Nat} {b : Block}

theorem queuePostWaitEndStep_none (h : (queue b q).waiting = [] ∨ qDepth b q ≤ (queue b q).fill) : queuePostWaitEndStep q b = b := by
  unfold queuePostWaitEndStep
  split
  · rfl
  · next hw =>
    rw [hw] at h
    exact if_neg (Nat.not_lt.2 (h.resolve_left (by simp)))

theorem queuePostWaitEndStep_enters {t : Nat} {w : List W32} {l : List (Nat × List W32)} (h : (queue b q).waiting = (t, w) :: l)
    (hf : (queue b q).fill < qDepth b q) {d : Block}
    (hd : d = queueEnter q { rank := 1, who := t, w := w } (modQueue q (fun x => { x with waiting := l }) b)) :
    queuePostWaitEndStep q b = if (task d t).st = .blocked then
      modPrio (tPrio (img d) t) (t :: ·) (modTask t (fun x => { x with st := .preempted }) d) else d := by
  simp only [queuePostWaitEndStep, h, hf, if_true, ← hd]
  rfl

end

/-! ### QUEUE_TAKE (R344, R373, R374) -/

section
variable {q : Nat} {b : Block}

/-- A block with other queues, which is what a take changes before its signals are written. -/
def withQueues (x : Tab QueueSt) (b : Block) : Block := { b with dam := { b.dam with queues := x } }

/-- Blocks that differ in their queues only read alike elsewhere. -/
theorem read_of_withQueues {β : Type} {b d : Block} (h : ∀ x, withQueues x d = withQueues x b) (f : Block → β)
    (hf : ∀ s x, f (withQueues x s) = f s) : f d = f b := by
  rw [← hf d [], h, hf]

theorem withQueues_queueFresh (x : Tab QueueSt) : withQueues x (queueFresh q b) = withQueues x b := by
  unfold queueFresh
  split <;> rfl

/-- What does not read the queues is as before when the accesses of earlier fabric cycles are put aside. -/
theorem queueFresh_keeps {β : Type} (f : Block → β) (hf : ∀ s x, f (withQueues x s) = f s) (q : Nat) (b : Block) :
    f (queueFresh q b) = f b :=
  read_of_withQueues withQueues_queueFresh f hf

theorem accAt_queueFresh : (queue (queueFresh q b) q).accAt = fabric b.now + 1 := by
  unfold queueFresh
  split
  · assumption
  · rw [queue_modQueue_same]

theorem queueFresh_idem : queueFresh q (queueFresh q b) = queueFresh q b := by
  obtain ⟨_, _, _, _, hsame, _⟩ := queueFresh_spec q (queueFresh q b) _ rfl
  refine hsame (accAt_queueFresh.trans ?_)
  rw [queueFresh_keeps Block.now (fun _ _ => rfl)]

/-- The entries that have entered in this fabric cycle. -/
def enteredNow (b : Block) (q : Nat) : Nat := if (queue b q).accAt = fabric b.now + 1 then (queue b q).entered.length else 0

theorem length_entered_queueFresh : (queue (queueFresh q b) q).entered.length = enteredNow b q := by
  obtain ⟨_, _, _, hnew, hsame, _⟩ := queueFresh_spec q b _ rfl
  by_cases h : (queue b q).accAt = fabric b.now + 1
  · rw [hsame h, enteredNow, if_pos h]
  · rw [hnew h, enteredNow, if_neg h]
    rfl

theorem qSlot_queueFresh (k : Nat) : qSlot (queueFresh q b) q k = qSlot b q k := by
  obtain ⟨_, _, hhead, _⟩ := queueFresh_spec q b _ rfl
  unfold qSlot
  rw [hhead, queueFresh_keeps (fun s => qBase s q) (fun _ _ => rfl), queueFresh_keeps (fun s => qDepth s q) (fun _ _ => rfl)]

/-- The eight words of the entry at the head. -/
def headWords (b : Block) (q : Nat) : List W32 :=
  (upto 8).map fun k => BitVec.ofNat 32 (leAt (readBytes b (qSlot b q 0) 32) (4 * k) 4)

/-- The head entry leaves. -/
def headLeaves (q : Nat) (b : Block) : Block :=
  modQueue q (fun x => { x with head := (x.head + 1) % max 1 (qDepth b q), fill := x.fill - 1 }) (queueFresh q b)

theorem queueTake_none (h : (queue b q).fill ≤ enteredNow b q) : queueTake q b = none := by
  obtain ⟨hfill, _⟩ := queueFresh_spec q b _ rfl
  rw [← hfill, ← length_entered_queueFresh] at h
  simp only [queueTake, h, if_true]

theorem queueTake_some (h : enteredNow b q < (queue b q).fill) : queueTake q b = some (headWords b q, headLeaves q b) := by
  obtain ⟨hfill, _⟩ := queueFresh_spec q b _ rfl
  rw [← hfill, ← length_entered_queueFresh] at h
  simp only [queueTake, Nat.not_le.2 h, if_false, qSlot_queueFresh, queueFresh_keeps (fun s => readBytes s _ 32) (fun _ _ => rfl),
    queueFresh_keeps (fun s => qDepth s q) (fun _ _ => rfl)]
  rfl

/-- The take of the command, which shows at nine signals from `sig` on. -/
def commandTake (sig : Nat) (w : Option (List W32)) : QTake := { core := 16, task := 256, w := w, pins := (upto 9).map (sig + ·) }

/-- The queue notes the take. -/
def takeNoted (q sig : Nat) (w : Option (List W32)) (b : Block) : Block :=
  modQueue q (fun x => { x with taken := x.taken ++ [commandTake sig w] }) b

/-- The queue notes the take, and its signals are written. -/
def takeShown (q sig : Nat) (w : Option (List W32)) (b : Block) : Block :=
  writePins 256 (takePins b (commandTake sig w)) (takeNoted q sig w b)

/-- R374: no core comes after the command, so no other take changes its entry. -/
theorem filter_taken_command (l : List QTake) :
    (l.filter fun y => decide (y.core ≤ 16)) = l ∧ (l.filter fun y => decide ((16 : Fin 17) < y.core)) = [] := by
  have hle : ∀ c : Fin 17, c ≤ 16 := Fin.le_last
  refine ⟨List.filter_eq_self.2 fun y _ => decide_eq_true (hle y.core), List.filter_eq_nil_iff.2 fun y _ => ?_⟩
  simpa using hle y.core

/-- A take looks at the accesses of the present fabric cycle only. -/
theorem queueTake_queueFresh : queueTake q (queueFresh q b) = queueTake q b := by
  simp only [queueTake, queueFresh_idem]

theorem queueTakeStep_none {sig : Nat} (h : (queue b q).fill ≤ enteredNow b q) :
    queueTakeStep q sig b = refusedEnter q (takeShown q sig none (queueFresh q b)) := by
  obtain ⟨hle, hlt⟩ := filter_taken_command (queue (queueFresh q b) q).taken
  simp only [queueTakeStep, queueTakeBy, queueTake_queueFresh, queueTake_none h, hle, hlt]
  rfl

theorem queueTakeStep_some {sig : Nat} (h : enteredNow b q < (queue b q).fill) :
    queueTakeStep q sig b = refusedEnter q (takeShown q sig (some (headWords b q)) (headLeaves q b)) := by
  obtain ⟨hle, hlt⟩ := filter_taken_command (queue (headLeaves q b) q).taken
  simp only [queueTakeStep, queueTakeBy, queueTake_queueFresh, queueTake_some h, hle, hlt]
  rfl

/-- What the nine signals of a take show. -/
def takeValue (b : Block) (sig : Nat) : Option (List W32) → Nat → W32
  | some w, i => wAt (w ++ [1#32]) i
  | none, i => if i = 8 then 0#32 else sigBefore b (sig + i)

theorem takePins_commandTake (sig : Nat) (w : Option (List W32)) :
    takePins b (commandTake sig w) = (List.range' 0 9).map fun i => (sig + i, some (takeValue b sig w i)) := by
  cases w <;> rfl

/-- The block after a take by the command, before a refused host post may enter: what the signals show, and what stays as in b, from which
the take may have changed the queues. -/
theorem takeShown_spec {sig : Nat} (hs : sig < 16375) (w : Option (List W32)) {d : Block} (hd : ∀ x, withQueues x d = withQueues x b) :
    (∀ i, i < 9 → sigRead (takeShown q sig w d) (sig + i) = sigNorm b (sig + i) (takeValue b sig w i)) ∧
    (∀ a, (a < sigAddr sig ∨ sigAddr (sig + 9) ≤ a) → memRead (takeShown q sig w d).mem a = memRead b.mem a) ∧
    { takeShown q sig w d with
      dam := { (takeShown q sig w d).dam with queues := b.dam.queues }, mem := b.mem,
      graph := { (takeShown q sig w d).graph with sigAt := b.graph.sigAt, sigOld := b.graph.sigOld } } = b := by
  obtain ⟨hread, _, _, hmem, hrest⟩ := writePins_row 256 (takeValue d sig w) sig 0 9 (takeNoted q sig w d) (by omega) _
    (takePins_commandTake sig w)
  have hval : takeValue d sig w = takeValue b sig w := read_of_withQueues hd (fun t => takeValue t sig w) fun _ _ => by cases w <;> rfl
  have hnorm : sigNorm d = sigNorm b := read_of_withQueues hd sigNorm fun _ _ => rfl
  refine ⟨fun i hi => ?_, fun a ha => ?_, ?_⟩
  · rw [← hval, ← hnorm]
    exact hread i (Nat.zero_le i) (by omega)
  · exact (hmem a ha).trans (read_of_withQueues hd (fun t => memRead t.mem a) fun _ _ => rfl)
  · have hput := congrArg (withQueues b.dam.queues) (hrest b.mem b.graph.sigAt b.graph.sigOld)
    exact hput.trans (congrArg (fun t : Block => ({ t with mem := b.mem, graph := { t.graph with sigAt := b.graph.sigAt, sigOld := b.graph.sigOld } } : Block))
      (hd b.dam.queues))

/-- The queues after the take is shown are those before it, with the take noted. -/
theorem queue_takeShown {sig : Nat} (hs : sig < 16375) (w : Option (List W32)) :
    queue (takeShown q sig w b) q = { queue b q with taken := (queue b q).taken ++ [commandTake sig w] } ∧
      ∀ j, j ≠ q → queue (takeShown q sig w b) j = queue b j := by
  obtain ⟨_, _, _, _, hrest⟩ := writePins_row 256 (takeValue b sig w) sig 0 9 (takeNoted q sig w b) (by omega) _ (takePins_commandTake sig w)
  have hqueue : ∀ j, queue (takeShown q sig w b) j = queue (takeNoted q sig w b) j := fun j => by
    have hj := congrArg (fun t => queue t j) (hrest [] 0 [])
    exact hj
  exact ⟨(hqueue q).trans (queue_modQueue_same _ _ _), fun j hj => (hqueue j).trans (queue_modQueue_ne _ _ hj)⟩

theorem headLeaves_spec : (∀ x, withQueues x (headLeaves q b) = withQueues x b) ∧
    (queue (headLeaves q b) q).head = ((queue b q).head + 1) % max 1 (qDepth b q) ∧ (queue (headLeaves q b) q).fill = (queue b q).fill - 1 ∧
    (queue (headLeaves q b) q).fillMax = (queue b q).fillMax ∧ ∀ j, j ≠ q → queue (headLeaves q b) j = queue b j := by
  obtain ⟨hfill, hmax, hhead, _, _, hother, _⟩ := queueFresh_spec q b _ rfl
  refine ⟨withQueues_queueFresh, ?_, ?_, ?_, fun j hj => (queue_modQueue_ne _ _ hj).trans (hother j hj)⟩
  · rw [headLeaves, queue_modQueue_same, hhead]
  · rw [headLeaves, queue_modQueue_same, hfill]
  · rw [headLeaves, queue_modQueue_same, hmax]

theorem takeValue_word (sig : Nat) {i : Nat} (hi : i < 8) :
    takeValue b sig (some (headWords b q)) i = BitVec.ofNat 32 (leAt (readBytes b (qSlot b q 0) 32) (4 * i) 4) := by
  have hlen : i < (headWords b q).length := by simpa [headWords, upto] using hi
  simp only [takeValue, wAt, List.getElem?_append_left hlen]
  simp [headWords, upto, hi]

theorem takeValue_valid (sig : Nat) : takeValue b sig (some (headWords b q)) 8 = 1#32 := rfl

theorem takeValue_old (sig : Nat) {i : Nat} (hi : i < 8) : takeValue b sig none i = sigBefore b (sig + i) := if_neg (by omega)

end

/-! ### Events, recorder taps and readback registers (R348, R350) -/

section
variable {n k : Nat} {b : Block}

theorem eventPostStep_again (hl : 160 ≤ n) (hu : n < 224) (h : tget 0 b.dam.posted n = fabric b.now + 1) : eventPostStep n b = b := by
  rw [eventPostStep, if_pos (by omega), eventPost, if_pos h]

theorem eventPostStep_raises (hl : 160 ≤ n) (hu : n < 224) (h : tget 0 b.dam.posted n ≠ fabric b.now + 1) :
    eventPostStep n b = raise n { b with dam := { b.dam with posted := tset 0 b.dam.posted n (fabric b.now + 1) } } := by
  rw [eventPostStep, if_pos (by omega), eventPost, if_neg h]

theorem recTapStep_keeps (h : k < 64) (v : W32) :
    recTapStep k v b = { b with graph := { b.graph with taps := tset 0#32 b.graph.taps k v } } := if_pos h

theorem readbackStep_keeps (h : k < 256) (v : W32) :
    readbackStep k v b = { b with host := { b.host with readback := tset 0#32 b.host.readback k v } } := if_pos h

end

/-- Settles O58: how an entry enters and which posts find a place, then each command's step, read from the lemmas above. Accesses of one fabric
cycle follow log entries 14 and 30. -/
theorem queuesEventsTapsAndReadbacks : Obligations.queues_events_taps_and_readbacks := by
  refine ⟨?_, fun q p b => ⟨queuePut_enters, queuePut_fails, fun y hf hy => ⟨queuePut_displaces hf hy, queueBehind_eq_some hy⟩⟩, fun s h =>
    ⟨fun n hl hu => ⟨fun hp => ?_, fun hp => ?_⟩, fun k v => ⟨fun hk => ?_, fun hk => ?_⟩, fun q sig hq hs n hn => ?_, fun q b => refusedEnter_none,
      fun q c w hq hc hw => ?_, fun q hq => ?_⟩⟩
  · rintro q p b d rfl
    obtain ⟨hfill, hmax, hother, hraised, hrest, hentry⟩ := queueEnter_spec q p b _ rfl
    refine ⟨hfill, hmax, hother, fun hfirst => ⟨entryBytes_length p.w, fun k hk => ?_, fun a ha => ?_⟩, hraised, hrest⟩
    · rw [(hentry hfirst).1, memRead_memWriteBytes_in _ _ _ _ hk]
    · rw [(hentry hfirst).1, memRead_memWriteBytes_out _ _ _ _ (by rwa [entryBytes_length])]
  · exact act_ended (i := .eventPost n) h (decide_eq_true ⟨hl, hu⟩) (eventPostStep_again hl hu hp)
  · exact act_ended (i := .eventPost n) h (decide_eq_true ⟨hl, hu⟩) (eventPostStep_raises hl hu hp)
  · exact act_ended (i := .recTap k v) h (decide_eq_true hk) (recTapStep_keeps hk v)
  · exact act_ended (i := .readback k v) h (decide_eq_true hk) (readbackStep_keeps hk v)
  · obtain rfl : n = enteredNow s.toBlock q := hn
    have takes : ∀ {b}, queueTakeStep q sig s.toBlock = b → exec (.queueTake q sig) s = .next (ended s b) :=
      act_ended (i := .queueTake q sig) h (decide_eq_true ⟨hq, hs⟩)
    rcases Nat.lt_or_ge (enteredNow s.toBlock q) (queue s.toBlock q).fill with hlt | hle
    · obtain ⟨hsame, hhead, hfill, hmax, hother⟩ := headLeaves_spec (q := q) (b := s.toBlock)
      obtain ⟨hread, hmem, hrest⟩ := takeShown_spec (q := q) hs (some (headWords s.toBlock q)) hsame
      obtain ⟨hqueue, hqueues⟩ := queue_takeShown (q := q) (b := headLeaves q s.toBlock) hs (some (headWords s.toBlock q))
      refine ⟨_, takes (queueTakeStep_some hlt), fun hle => absurd hlt (Nat.not_lt.2 hle), fun _ => ⟨?_, ?_, ?_, ?_⟩, ?_, fun j hj => ?_, hmem, hrest⟩
      · rw [hqueue, hhead]
      · rw [hqueue, hfill]
      · rw [hread 8 (by decide), takeValue_valid]
      · rintro l rfl i hi
        rw [hread i (by omega), takeValue_word sig hi]
      · rw [hqueue, hmax]
      · rw [hqueues j hj, hother j hj]
    · obtain ⟨hfill, hmax, hhead, _, _, hother, _⟩ := queueFresh_spec q s.toBlock _ rfl
      obtain ⟨hread, hmem, hrest⟩ := takeShown_spec (q := q) hs none (withQueues_queueFresh (q := q) (b := s.toBlock))
      obtain ⟨hqueue, hqueues⟩ := queue_takeShown (q := q) (b := queueFresh q s.toBlock) hs none
      refine ⟨_, takes (queueTakeStep_none hle), fun _ => ⟨?_, ?_, ?_, fun i hi => ?_⟩, fun hlt => absurd hlt (Nat.not_lt.2 hle), ?_, fun j hj => ?_,
        hmem, hrest⟩
      · rw [hqueue, hhead]
      · rw [hqueue, hfill]
      · exact hread 8 (by decide)
      · rw [hread i (by omega), takeValue_old sig hi]
      · rw [hqueue, hmax]
      · rw [hqueues j hj, hother j hj]
  · have posts : ∀ {b}, queuePostBlockStep q c w s.toBlock = b → exec (.queuePostBlock q c w) s = .next (ended s b) :=
      act_ended (i := .queuePostBlock q c w) h (decide_eq_true ⟨hq, hc, hw⟩)
    refine ⟨fun ht => posts (queuePostBlockStep_noTask ht), fun t ok u ht hput => ⟨?_, ?_⟩⟩
    · rintro rfl
      exact posts (queuePostBlockStep_enters ht hput)
    · rintro rfl
      obtain ⟨hqueue, hother, hraised, hrest⟩ := postWaits_spec q t w u
      exact ⟨_, hqueue, hother, hraised, hrest, posts ((queuePostBlockStep_waits ht hput).trans blockTask_postWaits)⟩
  · have ends : ∀ {b}, queuePostWaitEndStep q s.toBlock = b → exec (.queuePostWaitEnd q) s = .next (ended s b) :=
      act_ended (i := .queuePostWaitEnd q) h (decide_eq_true hq)
    have retries : ∀ {b}, hwSourceRetryStep q s.toBlock = b → exec (.hwSourceRetry q) s = .next (ended s b) :=
      act_ended (i := .hwSourceRetry q) h (decide_eq_true hq)
    refine ⟨fun t w l hwait hf b hb => ends (queuePostWaitEndStep_enters hwait hf hb), fun hno => ends (queuePostWaitEndStep_none hno),
      fun w ok u hheld hput => ⟨?_, ?_⟩, fun hheld => retries (hwSourceRetryStep_none hheld)⟩
    · rintro rfl b hb
      exact retries (hwSourceRetryStep_enters hheld hput hb)
    · rintro rfl
      exact retries (hwSourceRetryStep_stillHeld hheld hput)

end Sys2Proof.Machine
end

section
/-!
PROOFS. The mailbox commands on tasks, channels and queues: TASK_CTRL, DMA_START, DMA_ABORT and QUEUE_POST (R369 to R372, R378, R384, R390,
R641).
-/

namespace Sys2Proof.Machine

section
variable {s : State} {m k : Nat} {b : Block} (hk : (s.request m).arg0 = k)
include hk

/-! ### TASK_CTRL (R369 to R372) -/

section
variable (hl : s.carries m 0)
include hl

section
variable (hlt : k < imgTasks b)
include hlt

theorem opTaskCtrl_cancels (h1 : (s.request m).arg1 = 1) (hc : cancelRefused b k = false) :
    opTaskCtrl m (s.request m) b = opOk (cancelTask k b) := by
  simp [opTaskCtrl, needLen_carried hl, hk, Nat.not_le.2 hlt, h1, hc]

theorem opTaskCtrl_refused (h1 : (s.request m).arg1 = 1) (hc : cancelRefused b k = true) :
    opTaskCtrl m (s.request m) b = ({ status := 0x12, item := k }, b) := by
  simp [opTaskCtrl, needLen_carried hl, hk, Nat.not_le.2 hlt, h1, hc]

theorem opTaskCtrl_rearms (h2 : (s.request m).arg1 = 2) : opTaskCtrl m (s.request m) b = opOk (rearm false k b) := by
  simp [opTaskCtrl, needLen_carried hl, hk, Nat.not_le.2 hlt, h2]

theorem opTaskCtrl_rearmsClear (h3 : (s.request m).arg1 = 3) : opTaskCtrl m (s.request m) b = opOk (rearm true k b) := by
  simp [opTaskCtrl, needLen_carried hl, hk, Nat.not_le.2 hlt, h3]
end

theorem opTaskCtrl_of_badArg (h : imgTasks b ≤ k ∨ (s.request m).arg1 = 0 ∨ 3 < (s.request m).arg1) :
    opTaskCtrl m (s.request m) b = ({ status := 6, item := k }, b) := by
  rw [opTaskCtrl, needLen_carried hl, hk]
  by_cases hn : imgTasks b ≤ k
  · exact if_pos hn
  · rw [if_neg hn]
    have harg := h.resolve_left hn
    split
    · next h1 => omega
    · next h2 => omega
    · next h3 => omega
    · rfl

/-! ### DMA_ABORT (R390) -/

theorem opDmaAbort_of_notOwned (ho : fwOwned b k = false) : opDmaAbort m (s.request m) b = ({ status := 6, item := k }, b) := by
  simp [opDmaAbort, needLen_carried hl, hk, ho]

theorem opDmaAbort_ends (ho : fwOwned b k = true) (hr : (dma b k).st = .running) : opDmaAbort m (s.request m) b =
    opOk (modDma k (fun x => { x with
      st := .idle, outcome := 2, residual := if x.fetching then 0 else x.count - x.k, fetching := false, aborted := some (b.now, m) }) b) := by
  simp [opDmaAbort, needLen_carried hl, hk, ho, dmaAbort, hr, b2n, opOk]

theorem opDmaAbort_tooLate (ho : fwOwned b k = true) (hr : (dma b k).st ≠ .running) :
    opDmaAbort m (s.request m) b = ({ status := 1 }, b) := by
  simp [opDmaAbort, needLen_carried hl, hk, ho, dmaAbort, hr, b2n]
end

/-! ### DMA_START (R384) -/

omit hk in
/-- Changes of a channel that agree on its state are one change. -/
theorem modDma_congr {f g : DmaSt → DmaSt} (h : f (dma b k) = g (dma b k)) : modDma k f b = modDma k g b := by
  have hset : tmod {} b.dam.dma k f = tmod {} b.dam.dma k g := congrArg (tset ({} : DmaSt) b.dam.dma k) h
  rw [modDma, modDma, hset]

/-- A channel runs from a descriptor, with what an earlier chain left cleared. -/
def chainStarted (desc : Nat) (x : DmaSt) : DmaSt :=
  { x with
    st := .running, outcome := 0, cause := 0, part := 0, residual := 0, faultAddr := 0, descAddr := desc,
    fetching := true, src := 0, dst := 0, count := 0, k := 0, ctrl := 0, next := 0 }

omit hk in
theorem dmaStart_starts (hi : (dma b k).st = .idle) (desc : Nat) : dmaStart k 0 desc b = modDma k (chainStarted desc) b :=
  modDma_congr (if_pos hi)

omit hk in
theorem dmaStart_counts (hi : (dma b k).st ≠ .idle) (desc : Nat) :
    dmaStart k 0 desc b = modDma k (fun x => { x with startsRefused := satInc 32 x.startsRefused }) b :=
  modDma_congr (if_neg hi)

section
variable (hl : s.carries m 8)
include hl

theorem opDmaStart_of_notOwned (ho : fwOwned b k = false) : opDmaStart m (s.request m) b = ({ status := 6, item := k }, b) := by
  simp [opDmaStart, needLen_carried hl, hk, ho]

theorem opDmaStart_starts (ho : fwOwned b k = true) (hi : (dma b k).st = .idle) : opDmaStart m (s.request m) b =
    opOk (modDma k (chainStarted (le 8 (s.request m).payload)) b) := by
  simp [opDmaStart, needLen_carried hl, hk, ho, hi, dmaStart_starts hi]

theorem opDmaStart_counts (ho : fwOwned b k = true) (hi : (dma b k).st ≠ .idle) : opDmaStart m (s.request m) b =
    ({ status := 0xD, item := k }, modDma k (fun x => { x with startsRefused := satInc 32 x.startsRefused }) b) := by
  simp [opDmaStart, needLen_carried hl, hk, ho, hi, dmaStart_counts hi]
end

/-! ### QUEUE_POST (R378, R641) -/

section
variable (hl : s.carries m 32)
include hl

theorem opQueuePost_of_noQueue (h : 64 ≤ k) : opQueuePost m (s.request m) b = ({ status := 6, item := k }, b) := by
  simp [opQueuePost, needLen_carried hl, hk, h]

theorem opQueuePost_of_otherSource (hlt : k < 64) (hs : qSrc b k ≠ 3) :
    opQueuePost m (s.request m) b = ({ status := 0x1B, item := k }, b) := by
  simp [opQueuePost, needLen_carried hl, hk, Nat.not_le.2 hlt, hs]

/-- The post of mailbox m: the words of its payload, at the rank of the host (R374). -/
def hostEntry (m : Nat) (l : List W8) : QPost := ⟨3, m, (upto 8).map fun j => BitVec.ofNat 32 (leAt l (4 * j) 4)⟩

section
variable (hlt : k < 64) (hs : qSrc b k = 3) {u : Block}
include hlt hs

theorem opQueuePost_enters (h : queuePut k (hostEntry m (s.request m).payload) (hwRetry k b) = (true, u)) :
    opQueuePost m (s.request m) b = opOk u := by
  rw [hostEntry] at h
  simp [opQueuePost, needLen_carried hl, hk, Nat.not_le.2 hlt, hs, hostPost, queuePost, h]

theorem opQueuePost_busy (h : queuePut k (hostEntry m (s.request m).payload) (hwRetry k b) = (false, u)) :
    opQueuePost m (s.request m) b = ({ status := 0xD, item := k },
      queueStalls k (modQueue k (fun x => { x with refused := x.refused ++ [hostEntry m (s.request m).payload] }) (queueFresh k u))) := by
  rw [hostEntry] at h ⊢
  simp [opQueuePost, needLen_carried hl, hk, Nat.not_le.2 hlt, hs, hostPost, queuePost, h]
end
end
end

/-- Settles O27: each clause is the answer of its operation on the block while the mailbox is RUNNING, which differs from the block before in
the mailbox only. The places that a post finds follow log entry 30. -/
theorem taskChannelAndQueueCommandsOfTheMailbox : Obligations.task_channel_and_queue_commands_of_the_mailbox := by
  intro s m k
  refine ⟨fun ha hl hk => ?_, fun ha hl hk => ?_, fun ha hl hk => ?_, fun ha hl hk => ?_⟩
  all_goals
    have ⟨_, hm, _⟩ := ha
    have hwf : decide (m < 8) = true := decide_eq_true hm
  · refine ⟨fun hlt h1 hc => ?_, fun hlt h1 hc => ?_, fun hlt h2 => ?_, fun hlt h3 => ?_, fun hbad => ?_⟩
    · exact mail_completes (.taskCtrl m) hwf ha opTaskCtrl (opTaskCtrl_cancels (b := s.runs m) hk hl hlt h1 hc)
    · exact mail_completes (.taskCtrl m) hwf ha opTaskCtrl (opTaskCtrl_refused (b := s.runs m) hk hl hlt h1 hc)
    · exact mail_completes (.taskCtrl m) hwf ha opTaskCtrl (opTaskCtrl_rearms (b := s.runs m) hk hl hlt h2)
    · exact mail_completes (.taskCtrl m) hwf ha opTaskCtrl (opTaskCtrl_rearmsClear (b := s.runs m) hk hl hlt h3)
    · exact mail_completes (.taskCtrl m) hwf ha opTaskCtrl (opTaskCtrl_of_badArg (b := s.runs m) hk hl hbad)
  · refine ⟨fun ho hi => ?_, fun ho hi => ?_, fun ho => ?_⟩
    · exact mail_completes (.dmaStart m) hwf ha opDmaStart (opDmaStart_starts (b := s.runs m) hk hl ho hi)
    · exact mail_completes (.dmaStart m) hwf ha opDmaStart (opDmaStart_counts (b := s.runs m) hk hl ho hi)
    · exact mail_completes (.dmaStart m) hwf ha opDmaStart (opDmaStart_of_notOwned (b := s.runs m) hk hl ho)
  · refine ⟨fun ho hr => ?_, fun ho hr => ?_, fun ho => ?_⟩
    · exact mail_completes (.dmaAbort m) hwf ha opDmaAbort (opDmaAbort_ends (b := s.runs m) hk hl ho hr)
    · exact mail_completes (.dmaAbort m) hwf ha opDmaAbort (opDmaAbort_tooLate (b := s.runs m) hk hl ho hr)
    · exact mail_completes (.dmaAbort m) hwf ha opDmaAbort (opDmaAbort_of_notOwned (b := s.runs m) hk hl ho)
  · refine ⟨fun hlt hs => ?_, fun hlt hs => ?_, fun h64 => ?_⟩
    · rintro p b rfl rfl
      refine ⟨fun hf => ?_, fun y hf hy => ?_, fun hf hy => ?_⟩
      · exact mail_completes (.queuePost m) hwf ha opQueuePost (opQueuePost_enters (b := s.runs m) hk hl hlt hs (queuePut_enters hf))
      · exact mail_completes (.queuePost m) hwf ha opQueuePost (opQueuePost_enters (b := s.runs m) hk hl hlt hs (queuePut_displaces hf hy))
      · exact mail_completes (.queuePost m) hwf ha opQueuePost (opQueuePost_busy (b := s.runs m) hk hl hlt hs (queuePut_fails hf hy))
    · exact mail_completes (.queuePost m) hwf ha opQueuePost (opQueuePost_of_otherSource (b := s.runs m) hk hl hlt hs)
    · exact mail_completes (.queuePost m) hwf ha opQueuePost (opQueuePost_of_noQueue (b := s.runs m) hk hl h64)

end Sys2Proof.Machine
end

section
/-!
PROOFS. The reference, VANA, calibration and spare-slice commands of the measurement units (R408, R409, R423 to R429).
-/

namespace Sys2Proof.Machine

/-! ### The end of a calibration (R428) -/

section
variable (u : Nat) (b : Block)

/-- A sequence that starts anew changes nothing that looks at neither the inputs nor what is stored of them. -/
theorem clearConvs_keeps {β : Type} (p : Block → β) (hp : ∀ (t : Block) x, p { t with adc := { t.adc with inputs := x } } = p t) :
    p (clearConvs u b) = p b :=
  kept_forEach p _ (fun k t => by
    split
    · exact hp t _
    · rfl) _ b

/-- The block in which a calibration leaves the conversions: a running one has disconnected the inputs. -/
def calResumesSequence : Block := if calRunning (adcUnit b u) then clearConvs u b else b

theorem calResumesSequence_keeps {β : Type} (p : Block → β)
    (hp : ∀ (t : Block) x, p { t with adc := { t.adc with inputs := x } } = p t) : p (calResumesSequence u b) = p b := by
  unfold calResumesSequence
  split
  · exact clearConvs_keeps u b p hp
  · rfl

/-- A unit whose calibration has ended at an instant with an outcome and its cause. -/
def calEnded (outcome cause n : Nat) (x : AdcUnit) : AdcUnit :=
  { x with
    calState := 0, calHeld := false, outcome := outcome, cause := cause, calDone := if outcome = 1 then some n else none }

/-- The event of an outcome: done, failed or aborted. -/
def calEvent (outcome : Nat) : Nat := if outcome = 1 then evAdcCalDone else if outcome = 2 then evAdcCalFail else evAdcCalAbort

variable (outcome cause : Nat)

theorem calEnd_eq : calEnd u outcome cause b =
    raise (calEvent outcome) (modUnit u (calEnded outcome cause b.now) (calResumesSequence u b)) := by
  rw [← calResumesSequence_keeps u b Block.now fun _ _ => rfl]
  rfl

theorem adcUnit_calEnd_same : adcUnit (calEnd u outcome cause b) u = calEnded outcome cause b.now (adcUnit b u) := by
  rw [calEnd_eq]
  exact (adcUnit_modUnit_same u _ _).trans (congrArg _ (calResumesSequence_keeps u b (adcUnit · u) fun _ _ => rfl))

theorem adcUnit_calEnd_ne {v : Nat} (h : v ≠ u) : adcUnit (calEnd u outcome cause b) v = adcUnit b v := by
  rw [calEnd_eq]
  exact (adcUnit_modUnit_ne _ _ h).trans (calResumesSequence_keeps u b (adcUnit · v) fun _ _ => rfl)

theorem raised_calEnd : (calEnd u outcome cause b).ev.raised = b.ev.raised ++ [calEvent outcome] := by
  rw [calEnd_eq, raise_raised, modUnit_ev, calResumesSequence_keeps u b Block.ev fun _ _ => rfl]

/-- What looks at neither the units nor the events reads alike after the end of a calibration. -/
theorem calEnd_keeps {β : Type} (p : Block → β) (hp : ∀ (t : Block) x y, p { t with adc := x, ev := y } = p t) :
    p (calEnd u outcome cause b) = p b := by
  rw [calEnd_eq]
  exact (hp (calResumesSequence u b) _ _).trans (calResumesSequence_keeps u b p fun t _ => hp t _ t.ev)

end

section
variable {u : Nat} {b : Block}

/-! ### REF_READY and its loss (R408, R409) -/

/-- A unit in which a calibration begins at an instant; a group that is pending or converts goes first (R425). -/
def calBegun (n : Nat) (x : AdcUnit) : AdcUnit :=
  { x with calState := if x.pend.isSome || x.conv.isSome then 1 else 2, calAt := n, calHeld := false, restarts := 0 }

/-- A unit whose reference has become ready at an instant. -/
def refRisen (n : Nat) (x : AdcUnit) : AdcUnit := { x with refReady := true, refAt := n, calDone := none }

/-- REF_READY of the unit rises at an instant, with its event. -/
def refRises (u n : Nat) (b : Block) : Block := raise evAdcRefReady (modUnit u (refRisen n) { b with now := n })

theorem adcUnit_calBegin_refRises_same (n : Nat) : adcUnit (calBegin u (refRises u n b)) u = calBegun n (refRisen n (adcUnit b u)) :=
  (adcUnit_modUnit_same u (calBegun n) (refRises u n b)).trans (congrArg (calBegun n) (adcUnit_modUnit_same u (refRisen n) _))

theorem adcUnit_calBegin_refRises_ne (n : Nat) {v : Nat} (h : v ≠ u) : adcUnit (calBegin u (refRises u n b)) v = adcUnit b v :=
  (adcUnit_modUnit_ne (calBegun n) (refRises u n b) h).trans (adcUnit_modUnit_ne (refRisen n) _ h)

theorem refReadyStep_idle (h : (adcUnit b u).on = false ∨ (adcUnit b u).refReady = true) : refReadyStep u b = b :=
  if_neg fun ⟨_, hon, hr⟩ => by rcases h with h | h <;> simp [h] at hon hr

theorem refReadyStep_rises (hu : u < 4) (hon : (adcUnit b u).on = true) (hr : (adcUnit b u).refReady = false) {t : Nat}
    (ht : t = max b.now ((adcUnit b u).refFell + 4 * msU)) :
    refReadyStep u b = calBegin u (refRises u t b) := by
  subst ht
  exact if_pos ⟨hu, hon, by simp [hr]⟩

theorem adcRefFaultStep_idle (h : (adcUnit b u).refReady = false) : adcRefFaultStep u b = b := by
  simp [adcRefFaultStep, h]

/-- The unit's reference is lost: REF_READY clears with its event. -/
def refLost (u : Nat) (b : Block) : Block := raise evAdcRefFault (modUnit u (fun x => { x with refReady := false, refFell := b.now }) b)

theorem adcUnit_refLost_same : adcUnit (refLost u b) u = { adcUnit b u with refReady := false, refFell := b.now } :=
  adcUnit_modUnit_same u _ b

theorem adcUnit_refLost_ne {v : Nat} (h : v ≠ u) : adcUnit (refLost u b) v = adcUnit b v := adcUnit_modUnit_ne _ b h

theorem calState_refLost : (adcUnit (refLost u b) u).calState = (adcUnit b u).calState := by
  rw [adcUnit_refLost_same]

theorem adcRefFaultStep_loses (hu : u < 4) (h : (adcUnit b u).refReady = true) :
    adcRefFaultStep u b = if (adcUnit (refLost u b) u).calState ≠ 0 then calEnd u 2 3 (refLost u b) else refLost u b :=
  if_pos ⟨hu, h⟩

theorem adcRefFaultStep_uncalibrating (hu : u < 4) (h : (adcUnit b u).refReady = true) (hc : (adcUnit b u).calState = 0) :
    adcRefFaultStep u b = refLost u b := by
  rw [adcRefFaultStep_loses hu h, calState_refLost, if_neg (not_not.2 hc)]

theorem adcRefFaultStep_calibrating (hu : u < 4) (h : (adcUnit b u).refReady = true) (hc : (adcUnit b u).calState ≠ 0) :
    adcRefFaultStep u b = calEnd u 2 3 (refLost u b) := by
  rw [adcRefFaultStep_loses hu h, calState_refLost, if_pos hc]

/-! ### START and ABORT (R425, R429) -/

theorem calStartStep_refused (h : b.seq.state = .energize ∨ b.seq.state = .run ∨ b.seq.state = .discharge ∨
    (adcUnit b u).refReady = false ∨ (adcUnit b u).calState ≠ 0) : calStartStep u b = b := by
  unfold calStartStep
  split
  · unfold calStart
    dsimp only
    split_ifs with hs hr hc
    · rfl
    · rfl
    · rfl
    · simp only [not_or, Bool.not_eq_true', Bool.not_eq_false, not_not] at hs hr hc
      simp [hs, hr, hc] at h
  · rfl

theorem calStartStep_begins (hu : u < 4) (he : b.seq.state ≠ .energize) (hrun : b.seq.state ≠ .run) (hd : b.seq.state ≠ .discharge)
    (hr : (adcUnit b u).refReady = true) (hc : (adcUnit b u).calState = 0) : calStartStep u b = calBegin u b := by
  simp [calStartStep, hu, calStart, he, hrun, hd, hr, hc]

theorem calAbortStep_late (h : (adcUnit b u).calState = 0 ∨ verifyEnds (adcUnit b u) b.now = true) : calAbortStep u b = b := by
  simp [calAbortStep, calAbort, h]

theorem calAbortStep_aborts (hu : u < 4) (hc : (adcUnit b u).calState ≠ 0) (hv : verifyEnds (adcUnit b u) b.now = false) :
    calAbortStep u b = calEnd u 3 0 b := by
  simp [calAbortStep, calAbort, hu, hc, hv]

/-! ### The states of a calibration (R426, R428) -/

theorem calStateEndStep_idle (h : (adcUnit b u).calState < 2 ∨ (adcUnit b u).calHeld = true) (pass : Bool) :
    calStateEndStep u pass b = b :=
  if_neg fun ⟨_, hrun, hh⟩ => by
    have hrun : 2 ≤ (adcUnit b u).calState := of_decide_eq_true hrun
    rcases h with h | h
    · omega
    · simp [h] at hh

section
variable (hu : u < 4) (hrun : 2 ≤ (adcUnit b u).calState) (hh : (adcUnit b u).calHeld = false)
include hu hrun hh

theorem calStateEndStep_next (hc : (adcUnit b u).calState ≠ 7) (pass : Bool) : calStateEndStep u pass b =
    modUnit u (fun x => { x with
      calState := x.calState + 1, calAt := max b.now ((adcUnit b u).calAt + calTime (adcUnit b u).calState) })
      (atTime ((adcUnit b u).calAt + calTime (adcUnit b u).calState) b) :=
  (if_pos ⟨hu, decide_eq_true hrun, by simp [hh]⟩).trans (if_neg hc)

theorem calStateEndStep_verified (hc : (adcUnit b u).calState = 7) (pass : Bool) : calStateEndStep u pass b =
    calEnd u (if pass then 1 else 2) (if pass then 0 else 1) (atTime ((adcUnit b u).calAt + 8000) b) := by
  have ht : calTime (adcUnit b u).calState = 8000 := by rw [hc]; rfl
  rw [← ht]
  exact (if_pos ⟨hu, decide_eq_true hrun, by simp [hh]⟩).trans (if_pos hc)

end

/-! ### The spare slice (R423, R424) -/

theorem spareSliceRotationStep_off (h : bgCalOn b u = false) (skew : Nat) : spareSliceRotationStep u skew b = b := by
  simp [spareSliceRotationStep, h]

theorem spareSliceRotationStep_rotates (hu : u < 4) (h : bgCalOn b u = true) {skew : Nat} (hs : skew < 65536) :
    spareSliceRotationStep u skew b = modUnit u (fun x => { x with
      spare := (x.spare + 1) % 9, rotAt := max b.now ((adcUnit b u).rotAt + 8000000), skewRes := skew })
      (atTime ((adcUnit b u).rotAt + 8000000) b) := by
  have hclamp : clampU 16 skew = skew := Nat.min_eq_left (by omega)
  simp only [spareSliceRotationStep, hu, h, hclamp]
  rfl

end

/-- Settles O30: each clause is the step of its command. A calibration that ends leaves the unit to `calEnd`, which the lemmas above read. -/
theorem adcReferenceAndCalibrationCommands : Obligations.adc_reference_and_calibration_commands := by
  intro s u h hu
  have hw : decide (u < 4) = true := decide_eq_true hu
  refine ⟨fun t ht hon hr => ?_, fun hi => act_ended (i := .refReady u) h hw (refReadyStep_idle hi), fun hr => ?_,
    fun hr => act_ended (i := .adcRefFault u) h hw (adcRefFaultStep_idle hr),
    act_ended (i := .vanaBad u) h hw (if_pos hu), act_ended (i := .vanaReturn u) h hw (if_pos hu),
    fun hi => act_ended (i := .calStart u) h hw (calStartStep_refused hi),
    fun he hrun hd hr hc => act_ended (i := .calStart u) h hw (calStartStep_begins hu he hrun hd hr hc),
    fun hl => act_ended (i := .calAbort u) h hw (calAbortStep_late hl), fun hc hv => ?_, fun pass hrun hh => ⟨fun hc => ?_, fun hc => ?_⟩,
    fun pass skew => ⟨fun hi => act_ended (i := .calStateEnd u pass) h hw (calStateEndStep_idle hi pass), fun hs hb => ?_, fun hs hb => ?_⟩⟩
  · exact ⟨_, act_ended (i := .refReady u) h hw (refReadyStep_rises hu hon hr ht), adcUnit_calBegin_refRises_same t, rfl,
      fun v hv => adcUnit_calBegin_refRises_ne t hv, rfl, rfl⟩
  · by_cases hc : (adcUnit s.toBlock u).calState = 0
    · exact ⟨_, act_ended (i := .adcRefFault u) h hw (adcRefFaultStep_uncalibrating hu hr hc), fun _ => rfl, fun hn => absurd hc hn,
        fun v hv => adcUnit_refLost_ne hv, rfl⟩
    · refine ⟨_, act_ended (i := .adcRefFault u) h hw (adcRefFaultStep_calibrating hu hr hc), fun h0 => absurd h0 hc, fun _ => ⟨?_, ?_⟩,
        fun v hv => (adcUnit_calEnd_ne _ _ _ _ hv).trans (adcUnit_refLost_ne hv),
        calEnd_keeps _ _ _ _ (fun t : Block => ({ t with adc := s.adc, ev := s.ev } : Block)) fun _ _ _ => rfl⟩
      · rw [adcUnit_calEnd_same, adcUnit_refLost_same]
        rfl
      · rw [raised_calEnd]
        exact List.append_assoc _ _ _
  · exact ⟨_, act_ended (i := .calAbort u) h hw (calAbortStep_aborts hu hc hv), adcUnit_calEnd_same _ _ _ _,
      fun v hv => adcUnit_calEnd_ne _ _ _ _ hv, raised_calEnd _ _ _ _,
      calEnd_keeps _ _ _ _ (fun t : Block => ({ t with adc := s.adc, ev := s.ev } : Block)) fun _ _ _ => rfl⟩
  · exact act_ended (i := .calStateEnd u pass) h hw (calStateEndStep_next hu hrun hh hc pass)
  · refine ⟨_, act_ended (i := .calStateEnd u pass) h hw (calStateEndStep_verified hu hrun hh hc pass), ?_, ?_, ?_⟩
    · rw [adcUnit_calEnd_same]
      cases pass <;> rfl
    · rw [raised_calEnd]
      cases pass <;> rfl
    · exact calEnd_keeps _ _ _ _ (fun t : Block => ({ t with adc := s.adc, ev := s.ev, now := s.now } : Block)) fun _ _ _ => rfl
  · exact act_ended (i := .spareSliceRotation u skew) h (decide_eq_true ⟨hu, hs⟩) (spareSliceRotationStep_rotates hu hb hs)
  · exact act_ended (i := .spareSliceRotation u skew) h (decide_eq_true ⟨hu, hs⟩) (spareSliceRotationStep_off hb skew)

end Sys2Proof.Machine
end

section
/-!
PROOFS. Injected groups, conversions, stream samples and window comparators (R405, R413, R419 to R422, R426, R435, R437).
-/

namespace Sys2Proof.Machine

/-! ### Triggers and the first slot of a group (R419 to R421) -/

section
variable {u : Nat} {b : Block}

theorem injTrigger_ignored (h : injInputs b u = [] ∨ (adcUnit b u).on = false) (t : Nat) (win : Option Nat) : injTrigger u t win b = b :=
  if_pos (h.imp (fun h => by rw [h]; rfl) fun h => by simp [h])

section
variable (hin : injInputs b u ≠ []) (hon : (adcUnit b u).on = true) (t : Nat) (win : Option Nat)
include hin hon

/-- The group has inputs and its unit is on: the trigger is not ignored. -/
theorem injTrigger_unignored : ¬ ((injInputs b u).length = 0 ∨ (!(adcUnit b u).on) = true) := by
  simp [hin, hon]

theorem injTrigger_lost (h : (adcUnit b u).pend.isSome = true ∨ (adcUnit b u).conv.isSome = true ∨ injHeld b u = true ∨
    (adcUnit b u).refReady = false) :
    injTrigger u t win b = raise evAdcInjLost (modUnit u (fun x => { x with injLost := satInc 16 x.injLost }) b) :=
  (if_neg (injTrigger_unignored hin hon)).trans (if_pos (by simpa using h))

theorem injTrigger_pends (hp : (adcUnit b u).pend = none) (hc : (adcUnit b u).conv = none) (hh : injHeld b u = false)
    (hr : (adcUnit b u).refReady = true) : injTrigger u t win b =
    modUnit u (fun x => { x with pend := some ⟨slotAfter b t, injTrig b u, win⟩ }) b :=
  (if_neg (injTrigger_unignored hin hon)).trans (if_neg (by simp [hp, hc, hh, hr]))

end

theorem injGoStep_host (hu : u < 4) (h : injTrig b u = 1) : injGoStep u b = injTrigger u (b.now + 40) none b := if_pos ⟨hu, h⟩

theorem injGoStep_otherTrigger (h : injTrig b u ≠ 1) : injGoStep u b = b := if_neg fun ⟨_, h1⟩ => h h1

theorem injGroupStartStep_none (h : (adcUnit b u).pend = none) : injGroupStartStep u b = b := by
  simp [injGroupStartStep, h]

theorem injGroupStartStep_converts {p : InjPend} (h : (adcUnit b u).pend = some p) : injGroupStartStep u b = modUnit u (fun x => { x with
    pend := none, calHeld := calRunning x, conv := some ⟨p.slot, p.trig, injInputs b u, b.cyc.index, calRunning x, []⟩ })
    (atTime p.slot b) := by
  simp only [injGroupStartStep, h]
  rfl

end

/-- Settles O57: a trigger that is not ignored is lost in each case of R421, and INJ_GO of a HOST unit is a trigger (R419). -/
theorem aLostTriggerCountsAndIsReported : Obligations.a_lost_trigger_counts_and_is_reported := by
  refine ⟨fun u t win b hin hon hl => ?_, fun s u h hu ht => act_ended (i := .injGo u) h (decide_eq_true hu) (injGoStep_host hu ht)⟩
  rw [injTrigger_lost (by simpa using hin) hon t win hl]
  exact ⟨adcUnit_modUnit_same u _ b, fun v hv => adcUnit_modUnit_ne _ b hv, rfl, rfl⟩

/-! ### Hardware entries leave the measurement units alone (R376, R422) -/

section
variable (q : Nat)

theorem adc_queueEnter (p : QPost) (b : Block) : (queueEnter q p b).adc = b.adc := by
  obtain ⟨-, -, -, -, hrest, -⟩ := queueEnter_spec q p b _ rfl
  generalize queueEnter q p b = d at hrest ⊢
  have hadc := congrArg Block.adc hrest
  exact hadc

theorem adc_queueStalls (b : Block) : (queueStalls q b).adc = b.adc := raiseIf_keeps Block.adc (fun _ _ => rfl) _ _ _

theorem adc_queueYield (p : QPost) (b : Block) : (queueYield q p b).adc = b.adc := by
  unfold queueYield
  extract_lets c
  have hc : c.adc = b.adc := (adc_queueStalls q _).trans (modQueue_adc q _ b)
  clear_value c
  split
  · rw [modMbx_adc, modQueue_adc, hc]
  · rw [modTask_adc, modQueue_adc]
    split
    · rw [freeCore, modCore_adc, hc]
    · rw [modPrio_adc, hc]

theorem adc_queuePut (p : QPost) (b : Block) : (queuePut q p b).2.adc = b.adc := by
  cases hf : queueFull b q with
  | false => rw [queuePut_enters hf, adc_queueEnter]
  | true =>
    cases hy : queueBehind b q p.rank with
    | some y => rw [queuePut_displaces hf hy, adc_queueEnter, adc_queueYield]
    | none => rw [queuePut_fails hf hy]

theorem adc_hwRetry (b : Block) : (hwRetry q b).adc = b.adc := by
  cases hw : (queue b q).hwHeld with
  | none => rw [hwRetry_none hw]
  | some w =>
    have hadc := adc_queuePut q { rank := 2, who := 0, w := w } b
    rcases hput : queuePut q { rank := 2, who := 0, w := w } b with ⟨_ | _, c⟩
    · rw [hwRetry_fails hw hput]
    · rw [hput] at hadc
      rw [hwRetry_enters hw hput, modQueue_adc, hadc]

theorem adc_hwOffer (w : List W32) (b : Block) : (hwOffer q w b).adc = b.adc := by
  unfold hwOffer
  extract_lets c
  have hc : c.adc = b.adc := adc_hwRetry q b
  clear_value c
  have hadc := adc_queuePut q { rank := 2, who := 0, w := w } c
  split
  · exact hc
  · rcases hput : queuePut q { rank := 2, who := 0, w := w } c with ⟨_ | _, d⟩ <;> rw [hput] at hadc
    · exact (adc_queueStalls q _).trans (hadc.trans hc)
    · exact hadc.trans hc

theorem adcUnit_hwOffer (w : List W32) (b : Block) (u : Nat) : adcUnit (hwOffer q w b) u = adcUnit b u := by
  rw [adcUnit, adc_hwOffer, adcUnit]

end

/-! ### Conversions (R405, R420, R422, R426) -/

section
variable {u : Nat} {b : Block}

theorem conv_calEnd (outcome cause : Nat) : (adcUnit (calEnd u outcome cause b) u).conv = (adcUnit b u).conv := by
  rw [adcUnit_calEnd_same]
  rfl

/-- A calibration that goes on leaves the group that converts. -/
theorem conv_calResume : (adcUnit (calResume u b) u).conv = (adcUnit b u).conv := by
  unfold calResume
  dsimp only
  split_ifs
  · rfl
  · rw [adcUnit_modUnit_same]
  · rw [conv_calEnd, adcUnit_modUnit_same]
  · rw [adcUnit_modUnit_same]
  · rfl

/-- R422: a group whose last entry is ready converts no longer. -/
theorem conv_injDone (c : InjConv) : (adcUnit (injDone u c b) u).conv = none := by
  unfold injDone
  extract_lets r d e
  have he : (adcUnit e u).conv = none := by
    rw [conv_calResume, adcUnit_modUnit_same]
  clear_value e
  split
  · exact he
  · next q _ =>
    extract_lets f
    have hf : (adcUnit f u).conv = none := by rw [adcUnit_hwOffer, he]
    clear_value f
    split <;> exact hf

/-- The conversion of a slot joins those of the slot's input; the earliest of them are past use (R411, R412). -/
def conversionJoins (u slot : Nat) (code : Int) (b : Block) : Block :=
  modIn (slotInput b u slot) (fun y => { y with convs := trimConvs (b.cyc.t0 - b.cyc.lastLen) y.convs ++ [(slot, code)] })
    (atTime (slot + 320) b)

theorem ainVal_modIn_same (k : Nat) (f : InSt → InSt) (c : Block) : ainVal (modIn k f c) k = f (ainVal c k) := tget_tmod_same _ _ _ _

theorem convs_conversionJoins (slot : Nat) (code : Int) : (ainVal (conversionJoins u slot code b) (slotInput b u slot)).convs =
    trimConvs (b.cyc.t0 - b.cyc.lastLen) (ainVal b (slotInput b u slot)).convs ++ [(slot, code)] := by
  rw [conversionJoins, ainVal_modIn_same]
  rfl

/-- A conversion later than those of its input is a new one. -/
theorem conversionJoins_ne {slot : Nat} (h : ∀ c ∈ (ainVal b (slotInput b u slot)).convs, c.1 < slot) (code : Int) :
    conversionJoins u slot code b ≠ b := fun heq => by
  have hmem : (slot, code) ∈ (ainVal (conversionJoins u slot code b) (slotInput b u slot)).convs := by
    rw [convs_conversionJoins]
    simp
  rw [heq] at hmem
  exact Nat.lt_irrefl _ (h _ hmem)

/-- R446: the recorder takes a gap for the conversion that an entry of the group displaces. -/
theorem adcConversionCmd_entry {slot : Nat} {code : Int} {c : InjConv} {d : Block} (hconv : (adcUnit b u).conv = some c)
    (hslot : slot = c.slot + 20 * c.codes.length) (hstep : adcConversionStep u slot code b = d) (hd : (adcUnit d u).conv ≠ some c) :
    adcConversionCmd u slot code b = recGap (slotInput b u slot) slot d := by
  have hne : d ≠ b := fun heq => hd (heq ▸ hconv)
  simp only [adcConversionCmd, hstep, hne, hconv, ← hslot]
  rfl

section
variable {slot : Nat} {code : Int} (hu : u < 4) (hon : (adcUnit b u).on = true) (hdom : stopped b (26 + u) = false)
  (hst : b.cyc.started = true) (hlo : b.cyc.t0 - b.cyc.lastLen ≤ slot) (hgrid : (slot + 20 * tcU b - b.cyc.t0) % 20 = 0)
include hu hon hdom hst hlo hgrid

/-- R426: outside a calibration the conversion of a slot without a group goes to the slot's input. -/
theorem adcConversionStep_regular (hconv : (adcUnit b u).conv = none) (hcal : (adcUnit b u).calState < 2) :
    adcConversionStep u slot code b = conversionJoins u slot code b := by
  have hrun : calRunning (adcUnit b u) = false := decide_eq_false (Nat.not_le.2 hcal)
  simp only [adcConversionStep, hu, hon, hdom, hst, hlo, hgrid, hconv, hrun]
  rfl

theorem adcConversionCmd_regular (hconv : (adcUnit b u).conv = none) (hcal : (adcUnit b u).calState < 2)
    (hnew : ∀ c ∈ (ainVal b (slotInput b u slot)).convs, c.1 < slot) :
    adcConversionCmd u slot code b = recRaw (slotInput b u slot) slot code (conversionJoins u slot code b) := by
  have hrun : calRunning (adcUnit b u) = false := decide_eq_false (Nat.not_le.2 hcal)
  have hstep := adcConversionStep_regular (code := code) hu hon hdom hst hlo hgrid hconv hcal
  simp only [adcConversionCmd, hstep, conversionJoins_ne hnew code, hconv, hrun]
  rfl

section
variable {c : InjConv} (hconv : (adcUnit b u).conv = some c) (hslot : slot = c.slot + 20 * c.codes.length)
include hconv hslot

theorem adcConversionStep_entry : adcConversionStep u slot code b =
    if c.codes.length + 1 = c.inputs.length then injDone u { c with codes := c.codes ++ [code] } (atTime (slot + 320) b)
    else modUnit u (fun x => { x with conv := some { c with codes := c.codes ++ [code] } }) (atTime (slot + 320) b) := by
  have hlen : (c.codes ++ [code]).length = c.codes.length + 1 := List.length_append
  rw [← hlen]
  simp only [adcConversionStep, hu, hon, hdom, hst, hlo, hgrid, hconv, ← hslot]
  rfl

theorem adcConversionCmd_laterEntries (h : c.codes.length + 1 < c.inputs.length) : adcConversionCmd u slot code b =
    recGap (slotInput b u slot) slot (modUnit u (fun x => { x with conv := some { c with codes := c.codes ++ [code] } })
      (atTime (slot + 320) b)) := by
  refine adcConversionCmd_entry hconv hslot
    ((adcConversionStep_entry hu hon hdom hst hlo hgrid hconv hslot).trans (if_neg (Nat.ne_of_lt h))) ?_
  rw [adcUnit_modUnit_same]
  intro heq
  have hcodes : c.codes ++ [code] = c.codes := congrArg InjConv.codes (Option.some.inj heq)
  simp at hcodes

theorem adcConversionCmd_lastEntry (h : c.codes.length + 1 = c.inputs.length) : adcConversionCmd u slot code b =
    recGap (slotInput b u slot) slot (injDone u { c with codes := c.codes ++ [code] } (atTime (slot + 320) b)) := by
  refine adcConversionCmd_entry hconv hslot
    ((adcConversionStep_entry hu hon hdom hst hlo hgrid hconv hslot).trans (if_pos h)) ?_
  rw [conv_injDone]
  exact (Option.some_ne_none c).symm

end
end
end

/-! ### Stream samples (R413, R426) -/

section
variable {k i : Nat} {b : Block}

/-- The value of a stream sample: R412 at its instant, or the latest sample again during a calibration. -/
def streamValue (k i : Nat) (b : Block) : F32 :=
  if 2 ≤ (adcUnit b (unitOf k)).calState then streamLast b k else (instAt k (ainVal b k) (b.cyc.t0 + 2000 * i)).1

/-- An input's stream with a further sample, without those from before the cycle that ended at t0. -/
def streamExtended (k i : Nat) (b : Block) : List (Nat × F32) :=
  ((tget [] b.adc.stream k).filter fun p => decide (b.cyc.t0 - b.cyc.lastLen ≤ p.1)) ++ [(b.cyc.t0 + 2000 * i, streamValue k i b)]

/-- The block with stream sample i of an input. -/
def streamed (k i : Nat) (b : Block) : Block :=
  { b with
    now := max b.now (b.cyc.t0 + 2000 * i),
    adc := { b.adc with
      inputs := tmod {} b.adc.inputs k fun x => { x with last := streamValue k i b },
      stream := tset [] b.adc.stream k (streamExtended k i b) } }

theorem streamSample_streamed (hk : k < 64) (hi : i < b.cyc.n) (hs : inSeq b k = true) (hdom : stopped b (26 + unitOf k) = false)
    (hst : b.cyc.started = true) : streamSample k i b = streamed k i b := by
  have hv : (if calRunning (adcUnit b (unitOf k)) = true then streamLast b k else (instAt k (ainVal b k) (b.cyc.t0 + 2000 * i)).1) =
      streamValue k i b := by simp [streamValue, calRunning]
  rw [streamSample, if_pos ⟨hk, hi, hs, by simp [hdom], hst⟩]
  unfold streamed streamExtended
  rw [← hv]
  rfl

/-- A sample that changes the block reaches the recorder too. -/
theorem adcStreamSampleCmd_eq_or {d : Block} (h : streamSample k i b = d) :
    adcStreamSampleCmd k i b = d ∨ adcStreamSampleCmd k i b = recStream k i (streamLast d k) (b.cyc.t0 + 2000 * i) d := by
  subst h
  by_cases heq : streamSample k i b = b
  · exact .inl ((if_pos heq).trans heq.symm)
  · exact .inr (if_neg heq)

end

/-! ### Window comparators (R435, R437) -/

section
variable {j : Nat} {b : Block}

theorem cmpInputCrossStep_disabled (h : cmpP b j 0 = 0#32) (v : Int) : cmpInputCrossStep j v b = b := if_neg fun ⟨_, hn⟩ => hn h

theorem cmpLevel1Step_asserts {t : Nat} (hj : j < 16) (h1 : (tget {} b.adc.cmps j : CmpSt).l1 = some t)
    (ho : (tget {} b.adc.cmps j : CmpSt).l1Out = false) (he : cmpP b j 0 ≠ 0#32) : cmpLevel1Step j b =
    cmpDrive j (setCmp j { (tget {} b.adc.cmps j : CmpSt) with l1Out := true }
      (atTime (t + parDur b (0x7407 + 16 * j) 4000) b)) := by
  simp only [cmpLevel1Step, h1]
  exact if_pos ⟨hj, he, by simp [ho]⟩

end

/-- Settles O31: each clause is the step of its command; a conversion or a sample that changes the block goes to the recorder too. -/
theorem conversionsStreamsGroupsAndComparators : Obligations.conversions_streams_groups_and_comparators := by
  refine fun s h => ⟨fun u slot code hu hon hdom hst hlo hgrid => ?_, fun k i hk hi hi128 hs hdom hst => ?_, fun u hu => ?_, fun u hu => ?_,
    fun j v hj => ?_, fun j t hj h1 ho he => act_ended (i := .cmpLevel1 j) h (decide_eq_true hj) (cmpLevel1Step_asserts hj h1 ho he)⟩
  · have hw : (Instr.adcConversion u slot code).wf = true := decide_eq_true hu
    exact ⟨fun hconv hcal hnew => act_ended h hw (adcConversionCmd_regular hu hon hdom hst hlo hgrid hconv hcal hnew),
      fun c hconv hslot => ⟨fun hlt => act_ended h hw (adcConversionCmd_laterEntries hu hon hdom hst hlo hgrid hconv hslot hlt),
        fun heq => act_ended h hw (adcConversionCmd_lastEntry hu hon hdom hst hlo hgrid hconv hslot heq)⟩⟩
  · exact ⟨streamed k i s.toBlock,
      ⟨_, act_ended (i := .adcStreamSample k i) h (decide_eq_true ⟨hk, hi128⟩) rfl,
        adcStreamSampleCmd_eq_or (streamSample_streamed hk hi hs hdom hst)⟩,
      rfl, tget_tset_same _ _ _ _, fun j hj => tget_tset_ne _ _ _ hj, rfl⟩
  · have hw : (Instr.injGroupStart u).wf = true := decide_eq_true hu
    exact ⟨fun hp => act_ended h hw (injGroupStartStep_none hp), fun p hp => act_ended h hw (injGroupStartStep_converts hp)⟩
  · have hw : (Instr.injGo u).wf = true := decide_eq_true hu
    refine ⟨fun hi => act_ended h hw ?_, fun ht hin hon => ⟨fun hl => act_ended h hw ?_, fun hp hc hh hr => act_ended h hw ?_⟩⟩
    · by_cases ht : injTrig s.toBlock u = 1
      · exact (injGoStep_host hu ht).trans (injTrigger_ignored (hi.resolve_left (not_not.2 ht)) _ _)
      · exact injGoStep_otherTrigger ht
    · exact (injGoStep_host hu ht).trans (injTrigger_lost hin hon _ _ hl)
    · rw [← ht]
      exact (injGoStep_host hu ht).trans (injTrigger_pends hin hon _ _ hp hc hh hr)
  · have hw : (Instr.cmpInputCross j v).wf = true := decide_eq_true hj
    refine ⟨fun hd => act_ended h hw (cmpInputCrossStep_disabled hd v), ?_⟩
    rintro he l1 l2 rfl rfl
    exact act_ended h hw (if_pos ⟨hj, he⟩)

end Sys2Proof.Machine
end

section
/-!
PROOFS. The recorder's commands: arming, stopping, forcing, completing and re-arming a capture, and releasing its buffer (R451, R454 to R456,
R461, R467).
-/

namespace Sys2Proof.Machine

/-! ### Taking a buffer (R451) -/

section
variable {t : Block} (buf : Nat) (m : Bool)

/-- What the checks of Table 12-2 find in the configuration in force. -/
def armResult (t : Block) : Nat × Nat := armCheck t (recChans t) (recSize t) (recTrgs t)

/-- The capture that a passed arm makes of the configuration in force. -/
def armedCap (m : Bool) (t : Block) : RecCap :=
  let rows := capRowsOf (recChans t) (recSize t)
  let pre := (qfloor (qmul (qi rows) (q32 (parW t 0x8002)))).toNat
  let post := min (parN t 0x8003) (rows - pre)
  { div := parN t 0x8001, capRows := rows, preRows := pre, postRows := post, clamped := decide (post < parN t 0x8003), rearm := parB t 0x8004,
    manual := m, chans := placeChans rows 4096 (recChans t), trgs := recTrgs t }

theorem recTake_eq : recTake buf m t =
    if (armResult t).1 ≠ 0 then recArmErr (armResult t).1 (armResult t).2 (modRec (fun r => { r with rearmAt := none }) t)
    else modRec (fun r => { r with
      buf := buf, armErr := 0, errItem := 0, trg := 0, cap := some (armedCap m t), waiting := true, ended := false })
      (modBuf buf (fun _ => { bstate := 1 }) t) := rfl

theorem recTake_passed (h : (armResult t).1 = 0) : recTake buf m t = { t with recd := { t.recd with
    bufs := tmod {} t.recd.bufs buf (fun _ => { bstate := 1 }), buf := buf, armErr := 0, errItem := 0, trg := 0, cap := some (armedCap m t),
    waiting := true, ended := false } } := by
  rw [recTake_eq, if_neg (not_not.2 h)]
  rfl

theorem recTake_failed (h : (armResult t).1 ≠ 0) : recTake buf m t = raise evRecArmErr { t with recd := { t.recd with
    rearmAt := none, armErr := (armResult t).1, errItem := (armResult t).2 } } := by
  rw [recTake_eq, if_pos h]
  rfl

end

section
variable {b : Block} {c : RecCap}

/-! ### REC_ARM (R451) -/

theorem recArmStep_busy (h : b.recd.st ≠ 0 ∨ b.recd.cap.isSome) : recArmStep b = b :=
  if_neg fun ⟨hst, hcap⟩ => by simp [hst, Option.isNone_iff_eq_none.1 hcap] at h

section
variable (hst : b.recd.st = 0) (hcap : b.recd.cap = none)
include hst hcap

theorem recArmStep_takes {k : Nat} (hk : freeBuf b 0 = some k) :
    recArmStep b = recTake k true { b with recd := { b.recd with rearmAt := none, fullWait := false } } := by
  simp [recArmStep, hst, hcap, hk, modRec]

/-- With no buffer free a failed check is reported first, and error 6 where all pass. -/
theorem recArmStep_full (hk : freeBuf b 0 = none) : recArmStep b = raise evRecArmErr { b with recd := { b.recd with
    armErr := if (armResult b).1 = 0 then 6 else (armResult b).1, errItem := if (armResult b).1 = 0 then 0 else (armResult b).2 } } := by
  have hfull : recArmStep b = if (armResult b).1 ≠ 0 then recArmErr (armResult b).1 (armResult b).2 b else recArmErr 6 0 b := by
    simp only [recArmStep, hst, hcap, hk, Option.isNone_none, and_self, if_true]
    rfl
  by_cases he : (armResult b).1 = 0
  · rw [hfull, if_neg (not_not.2 he), if_pos he, if_pos he]
    rfl
  · rw [hfull, if_pos he, if_neg he, if_neg he]
    rfl

end

/-! ### Without a capture -/

section
variable (hcap : b.recd.cap = none)
include hcap

theorem recStopStep_idle : recStopStep b = { b with recd := { b.recd with rearmAt := none, fullWait := false, stopLate := b.recd.ended } } := by
  simp [recStopStep, hcap, modRec]

theorem recForceStep_idle : recForceStep b = { b with recd := { b.recd with ignPre := min (b.recd.ignPre + 1) 65535 } } := by
  simp [recForceStep, hcap, modRec, satInc]

theorem preRowsFilledStep_idle : preRowsFilledStep b = b := by simp [preRowsFilledStep, hcap]

theorem recDoneStep_idle : recDoneStep b = b := by simp [recDoneStep, hcap]

end

/-! ### With a capture -/

theorem capDone_eq_true {r : RecSt} (hst : r.st = 3) (hr : endRow c ≤ c.rows) : capDone r c = true := by
  simp [capDone, hst, hr]

theorem capDone_eq_false {r : RecSt} (h : r.st = 3 → c.rows < endRow c) : capDone r c = false := by
  simpa [capDone] using h

section
variable (hcap : b.recd.cap = some c)
include hcap

/-! ### REC_STOP (R456) -/

/-- Before POST the capture is dropped and its buffer free. -/
theorem recStopStep_drops (hst : b.recd.st < 3) : recStopStep b = { b with recd := { b.recd with
    rearmAt := none, fullWait := false, stopLate := false, bufs := tmod {} b.recd.bufs b.recd.buf (fun _ => {}), st := 0, cap := none,
    waiting := false } } := by
  simp [recStopStep, hcap, hst, recDiscard, modBuf, modRec]

theorem recStopStep_late (hst : b.recd.st = 3) (hr : endRow c ≤ c.rows) : recStopStep b = { b with recd := { b.recd with
    rearmAt := none, fullWait := false, stopLate := true, cap := some { c with rearm := false } } } := by
  simp [recStopStep, hcap, hst, modRec, capDone_eq_true, hr]

theorem recStopStep_ends (hst : 3 ≤ b.recd.st) (hr : b.recd.st = 3 → c.rows < endRow c) : recStopStep b = { b with recd := { b.recd with
    rearmAt := none, fullWait := false, stopLate := false
    cap := some { c with rearm := false, stopRow := some (min (endRow c) (c.rows + 1)), stopAt := b.now } } } := by
  simp +contextual [recStopStep, hcap, Nat.not_lt.2 hst, modRec, capDone_eq_false, hr]

/-! ### A firing, and REC_FORCE (R461 to R463) -/

section
variable (f : RecLog)

theorem recFire_waiting (hw : b.recd.waiting = true) :
    recFire [f] b = { b with recd := { b.recd with ignPre := min (b.recd.ignPre + 1) 65535 } } := by
  simp [recFire, hcap, hw, modRec, satAdd]

variable (hw : b.recd.waiting = false)
include hw

theorem recFire_beforeReady (hst : b.recd.st < 2) : recFire [f] b = { b with recd := { b.recd with
    ignPre := min (b.recd.ignPre + 1) 65535, cap := some { c with ignPre := min (c.ignPre + 1) 4294967295 } } } := by
  simp [recFire, hcap, hw, hst, modRec, satAdd]

theorem recFire_ready (hst : b.recd.st = 2) : recFire [f] b = raise evRecTriggered { b with recd := { b.recd with
    st := 3, cap := some { (setPrimary f (addLog c f)) with trigAt := b.now } } } := by
  simp [recFire, hcap, hw, hst, modRec]

/-- In POST a firing becomes the primary only within the trigger's fabric cycle. -/
theorem recFire_post (hst : 3 ≤ b.recd.st) : recFire [f] b = { b with recd := { b.recd with
    cap := some (if fabric c.trigAt = fabric b.now ∧ logLt f c.prim = true then setPrimary f (addLog c f) else addLog c f) } } := by
  have h2 : ¬ b.recd.st < 2 := by omega
  have hne : b.recd.st ≠ 2 := by omega
  by_cases hp : fabric c.trigAt = fabric b.now ∧ logLt f c.prim = true <;> simp [recFire, hcap, hw, h2, hne, modRec, hp]

end

theorem recForceStep_fires : recForceStep b = recFire [{ time := rowStart c, cond := 255, evalAt := fabric b.now }] b := by
  simp [recForceStep, hcap]

/-! ### PRE_ROWS_FILLED and REC_DONE (R451, R454) -/

theorem preRowsFilledStep_ready (hst : b.recd.st = 1) (hr : c.preRows ≤ c.rows) :
    preRowsFilledStep b = { b with recd := { b.recd with st := 2 } } := by
  simp [preRowsFilledStep, hcap, hst, hr, modRec]

theorem preRowsFilledStep_notYet (h : b.recd.st ≠ 1 ∨ c.rows < c.preRows) : preRowsFilledStep b = b := by
  have hn : ¬ (b.recd.st = 1 ∧ c.preRows ≤ c.rows) := by omega
  simp [preRowsFilledStep, hcap, hn]

theorem recDoneStep_notYet (h : b.recd.st ≠ 3 ∨ c.rows < endRow c) : recDoneStep b = b := by
  simp [recDoneStep, hcap, capDone_eq_false h.neg_resolve_left]

theorem recDoneStep_completes (hst : b.recd.st = 3) (hr : endRow c ≤ c.rows) :
    recDoneStep b = recHeld c c.stopRow.isSome false (atTime (c.start + c.rows * rowLen c) b) := by
  simp [recDoneStep, hcap, capDone_eq_true hst hr]

end

/-! ### The capture held (R455) -/

/-- The buffer of a capture that has become HELD. -/
def heldBuf (c : RecCap) (aborted truncated : Bool) (r : RecSt) : RecBuf :=
  { bstate := 2, clamped := c.clamped, aborted := aborted, truncated := truncated, seq := r.seq }

/-- The recorder once its capture has become HELD at an instant. -/
def recHeldSt (c : RecCap) (aborted truncated : Bool) (n : Nat) (r : RecSt) : RecSt :=
  { r with
    st := 0, cap := none, ended := true, captures := min (r.captures + 1) 65535, seq := (r.seq + 1) % 2 ^ 32, sinceDone := 0,
    rearmAt := if c.rearm && !truncated then some (n, c.div) else none,
    bufs := tmod {} r.bufs r.buf (fun _ => heldBuf c aborted truncated r) }

section
variable (c : RecCap) (aborted truncated : Bool) (b : Block)

/-- The head is written, the capture is held, and REC_DONE reports it. The head stays opaque: it is a list of 4096 bytes, which no proof evaluates. -/
theorem recHeld_eq : recHeld c aborted truncated b = raise evRecDone (modRec (recHeldSt c aborted truncated b.now)
    (writeBytes (recBase b b.recd.buf) (capHead b c (heldBuf c aborted truncated b.recd)) b)) := by
  dsimp only [recHeld, heldBuf]
  generalize capHead b c _ = head
  rfl

theorem recd_recHeld : (recHeld c aborted truncated b).recd = recHeldSt c aborted truncated b.now b.recd := by
  rw [recHeld_eq, raise_recd, modRec_recd, writeBytes_recd]

theorem now_recHeld : (recHeld c aborted truncated b).now = b.now := by
  rw [recHeld_eq, raise_now, modRec_now, writeBytes_now]

theorem raised_recHeld : (recHeld c aborted truncated b).ev.raised = b.ev.raised ++ [evRecDone] := by
  rw [recHeld_eq, raise_raised, modRec_ev, writeBytes_ev]

/-- What looks at neither the recorder, the events nor the memory reads alike after a capture has become HELD. -/
theorem recHeld_keeps {β : Type} (p : Block → β) (hp : ∀ (t : Block) x y z, p { t with recd := x, ev := y, mem := z } = p t) :
    p (recHeld c aborted truncated b) = p b := by
  rw [recHeld_eq]
  generalize capHead b c _ = head
  exact hp b _ _ _

end

/-! ### BUFFER_RELEASE (R467) -/

section
variable {k : Nat}

theorem bufferReleaseStep_notHeld (h : recBufs b ≤ k ∨ (recBuf b k).bstate < 2) : bufferReleaseStep k b = b :=
  if_neg (by omega)

section
variable (hk : k < recBufs b) (hheld : 2 ≤ (recBuf b k).bstate)
include hk hheld

theorem bufferReleaseStep_frees (hw : b.recd.fullWait = false) :
    bufferReleaseStep k b = { b with recd := { b.recd with bufs := tmod {} b.recd.bufs k (fun _ => {}) } } := by
  simp [bufferReleaseStep, hk, hheld, modBuf, hw]

/-- R455: a re-arm that waits for a buffer takes the released one. -/
theorem bufferReleaseStep_takes (hw : b.recd.fullWait = true) : bufferReleaseStep k b =
    recTake k false { b with recd := { b.recd with bufs := tmod {} b.recd.bufs k (fun _ => {}), fullWait := false } } := by
  simp [bufferReleaseStep, hk, hheld, modBuf, modRec, hw]

end

end

/-! ### REC_REARM (R455) -/

theorem recRearmStep_ignored (h : b.recd.rearmAt = none ∨ b.recd.st ≠ 0 ∨ b.recd.cap.isSome ∨ b.recd.fullWait = true) : recRearmStep b = b := by
  cases hr : b.recd.rearmAt with
  | none => simp [recRearmStep, hr]
  | some p =>
    have hn : ¬ (b.recd.st = 0 ∧ b.recd.cap.isNone ∧ !b.recd.fullWait) := by
      rintro ⟨hst, hcap, hw⟩
      rw [Bool.not_eq_true'] at hw
      simp [hr, hst, Option.isNone_iff_eq_none.1 hcap, hw] at h
    simp only [recRearmStep, hr, if_neg hn]

section
variable {t d : Nat} (hr : b.recd.rearmAt = some (t, d)) (hst : b.recd.st = 0) (hcap : b.recd.cap = none) (hw : b.recd.fullWait = false)
include hr hst hcap hw

theorem recRearmStep_takes {k : Nat} (hk : freeBuf b (b.recd.buf + 1) = some k) :
    recRearmStep b = recTake k false { b with now := max b.now (t + 1600) } := by
  have hk' : freeBuf (atTime (t + 1600) b) ((atTime (t + 1600) b).recd.buf + 1) = some k := hk
  simp only [recRearmStep, hr, hst, hcap, hw, hk', Option.isNone_none, Bool.not_false, and_self, if_true]
  rfl

theorem recRearmStep_waits (hk : freeBuf b (b.recd.buf + 1) = none) : recRearmStep b =
    raise evRecWait { b with now := max b.now (t + 1600), recd := { b.recd with fullWait := true } } := by
  have hk' : freeBuf (atTime (t + 1600) b) ((atTime (t + 1600) b).recd.buf + 1) = none := hk
  calc recRearmStep b = raise evRecWait (modRec (fun r => { r with fullWait := true }) (atTime (t + 1600) b)) := by
        simp only [recRearmStep, hr, hst, hcap, hw, hk', Option.isNone_none, Bool.not_false, and_self, if_true]
    _ = _ := rfl

end

end

/-- Settles O36: each clause is the step of its command. A completing capture is left to `recHeld`, a firing to `recFire` and a buffer taken to
`recTake`, which the lemmas above read. -/
theorem recorderCommandsArmStopForceAndRelease : Obligations.recorder_commands_arm_stop_force_and_release := by
  refine ⟨?_, fun s h => ⟨fun hbusy => act_ended (i := .recArm) h rfl (recArmStep_busy hbusy), ?_,
    fun hcap => ⟨act_ended (i := .recStop) h rfl (recStopStep_idle hcap), act_ended (i := .recForce) h rfl (recForceStep_idle hcap),
      act_ended (i := .preRowsFilled) h rfl (preRowsFilledStep_idle hcap), act_ended (i := .recDone) h rfl (recDoneStep_idle hcap)⟩,
    fun c hcap => ⟨fun hst => act_ended (i := .recStop) h rfl (recStopStep_drops hcap hst),
      fun hst hr => act_ended (i := .recStop) h rfl (recStopStep_late hcap hst hr),
      fun hst hr => act_ended (i := .recStop) h rfl (recStopStep_ends hcap hst hr), ?_, ?_, ?_,
      fun hst hr => act_ended (i := .preRowsFilled) h rfl (preRowsFilledStep_ready hcap hst hr),
      fun hn => act_ended (i := .preRowsFilled) h rfl (preRowsFilledStep_notYet hcap hn),
      fun hn => act_ended (i := .recDone) h rfl (recDoneStep_notYet hcap hn), ?_⟩,
    fun k hk hn => act_ended (i := .bufferRelease k) h (decide_eq_true hk) (bufferReleaseStep_notHeld hn),
    fun k hk hb hheld hw => act_ended (i := .bufferRelease k) h (decide_eq_true hk) (bufferReleaseStep_frees hb hheld hw),
    fun k hk hb hheld hw => act_ended (i := .bufferRelease k) h (decide_eq_true hk) (bufferReleaseStep_takes hb hheld hw),
    fun hn => act_ended (i := .recRearm) h rfl (recRearmStep_ignored hn), fun t d hr hst hcap hw =>
      ⟨fun k hk => act_ended (i := .recRearm) h rfl (recRearmStep_takes hr hst hcap hw hk),
        fun hk => act_ended (i := .recRearm) h rfl (recRearmStep_waits hr hst hcap hw hk)⟩⟩⟩
  · rintro k m t e rfl
    exact ⟨fun hp => ⟨armedCap m t, rfl, rfl, rfl, rfl, rfl, rfl, rfl, rfl, recTake_passed k m hp⟩, fun hf => recTake_failed k m hf⟩
  · rintro hst hcap e rfl
    exact ⟨fun k hk => act_ended (i := .recArm) h rfl (recArmStep_takes hst hcap hk),
      fun hk => act_ended (i := .recArm) h rfl (recArmStep_full hst hcap hk)⟩
  · exact fun hw => act_ended (i := .recForce) h rfl ((recForceStep_fires hcap).trans (recFire_waiting hcap _ hw))
  · exact fun hw hst => act_ended (i := .recForce) h rfl ((recForceStep_fires hcap).trans (recFire_beforeReady hcap _ hw hst))
  · rintro hw f rfl
    exact ⟨fun hst => act_ended (i := .recForce) h rfl ((recForceStep_fires hcap).trans (recFire_ready hcap _ hw hst)),
      fun hst => act_ended (i := .recForce) h rfl ((recForceStep_fires hcap).trans (recFire_post hcap _ hw hst))⟩
  · refine fun hst hr => ⟨_, act_ended (i := .recDone) h rfl (recDoneStep_completes hcap hst hr), now_recHeld _ _ _ _, ?_,
      raised_recHeld _ _ _ _, recHeld_keeps _ _ _ _ (fun t : Block => ({ t with now := s.now, recd := s.recd, ev := s.ev, mem := s.mem } : Block))
        fun _ _ _ _ => rfl⟩
    rw [recd_recHeld, now_recHeld, recHeldSt, Bool.not_false, Bool.and_true]
    rfl

end Sys2Proof.Machine
end

section
/-!
PROOFS. Tentering's update, the silicon monitors, the plan of the core supply and its history in flash (R474, R494 to R496, R499).
-/

namespace Sys2Proof.Machine

/-! ### TENT_UPDATE (R474, R482 to R484) -/

section
variable (b : Block)

/-- The records that an update leaves for the next cycle start. -/
def updatedRecords : List TentNext :=
  (b.cells.filter fun x => x.2.st ≠ .none).map fun x => { cell := x.1, val := tentUpdateCell b x.1 x.2 }

/-- An arm's current accumulators begin anew. -/
def restarted (x : ArmSt) : ArmSt := { x with iSq := 0#64, iCyc := 0 }

theorem tentUpdateStep_eq : tentUpdateStep b =
    forEach (upto 12) (fun a => modArm a restarted) { b with tentNext := b.tentNext ++ updatedRecords b } := rfl

theorem tentNext_tentUpdateStep : (tentUpdateStep b).tentNext = b.tentNext ++ updatedRecords b := by
  rw [tentUpdateStep_eq]
  exact kept_forEach Block.tentNext (fun a => modArm a restarted) (fun _ _ => rfl) _ _

theorem arm_tentUpdateStep {a : Nat} (ha : a < 12) : arm (tentUpdateStep b) a = restarted (arm b a) := by
  rw [tentUpdateStep_eq, arm_forEach, if_pos ha]
  rfl

theorem tentUpdateStep_keeps : { tentUpdateStep b with tentNext := b.tentNext, arms := b.arms } = b :=
  forEach_keeps (fun c => { c with tentNext := b.tentNext, arms := b.arms } = b) (fun a => modArm a restarted) (fun _ _ h => h) _ _ rfl

variable (g : Nat) (c : CellSt)

/-- R482: the wear index never falls. -/
theorem w_le_tentUpdateCell : c.tent.w ≤ (tentUpdateCell b g c).w := le_max_left _ _

/-- R483: the ceiling in force only falls. -/
theorem ceil_tentUpdateCell_le : (tentUpdateCell b g c).ceil ≤ c.tent.ceil := by
  unfold tentUpdateCell
  dsimp only
  split
  · exact min_le_left _ _
  · exact le_rfl

/-- R484. -/
theorem retireDue_tentUpdateCell :
    (tentUpdateCell b g c).retireDue = decide (parN b (0x90A0 + cellArm b g) ≤ (tentUpdateCell b g c).w) := rfl

end

/-! ### The monitors (R494) -/

/-- A table of the first `n` monitors after a list of reports, each held through `f`. -/
def reported {α : Type} (n : Nat) (f : α → α) (ws : List (Nat × α)) (t : Tab α) : Tab α :=
  (ws.filter fun w => decide (w.1 < n)).foldl (fun t w => tput w.1 (f w.2) t) t

section
variable {α : Type} {d : α} {n k : Nat} {f : α → α}

theorem reported_append (l r : List (Nat × α)) (t : Tab α) : reported n f (l ++ r) t = reported n f r (reported n f l t) := by
  simp [reported]

theorem reported_cons_within (hk : k < n) (v : α) (r : List (Nat × α)) (t : Tab α) :
    reported n f ((k, v) :: r) t = reported n f r (tput k (f v) t) := by
  simp [reported, hk]

theorem tget_reported_of_notReported {ws : List (Nat × α)} (h : (∀ w ∈ ws, w.1 ≠ k) ∨ n ≤ k) (t : Tab α) :
    tget d (reported n f ws t) k = tget d t k := by
  induction ws generalizing t with
  | nil => rfl
  | cons w ws ih =>
    obtain ⟨j, v⟩ := w
    have hws : (∀ w ∈ ws, w.1 ≠ k) ∨ n ≤ k := h.imp_left fun hw w hm => hw w (List.mem_cons_of_mem _ hm)
    by_cases hj : j < n
    · have hne : k ≠ j := h.elim (fun hw => (hw _ List.mem_cons_self).symm) (fun hk => by omega)
      rw [reported_cons_within hj, ih hws, tget_tput_ne _ _ _ hne]
    · simpa [reported, hj] using ih hws t

theorem tget_reported_of_last (hk : k < n) {r : List (Nat × α)} (h : ∀ w ∈ r, w.1 ≠ k) (l : List (Nat × α)) (v : α) (t : Tab α) :
    tget d (reported n f (l ++ (k, v) :: r) t) k = f v := by
  rw [reported_append, reported_cons_within hk, tget_reported_of_notReported (.inl h), tget_tput_same]

end

/-- The reports of path and SRAM monitors are entered. -/
def monitored (paths : List (Nat × Int)) (srams : List (Nat × Nat)) (b : Block) : Block :=
  { b with si := { b.si with slacks := reported 64 id paths b.si.slacks, margins := reported 16 (· % 16) srams b.si.margins } }

/-- A plan begins: what `siPlanStart` sets before its first round. -/
def planBegun (tenMin : Bool) (tj : Int) (b : Block) : Block :=
  { b with si := { b.si with tenMin := tenMin, tj := tj, raised := false, lowering := false } }

section
variable {b : Block}

/-- R495: a slack below half the target plans at once. -/
theorem siMonitorStep_eq (paths : List (Nat × Int)) (srams : List (Nat × Nat)) (tj : Int) : siMonitorStep paths srams tj b =
    if powered b = true ∧ b.si.planning = false ∧ ∃ w ∈ paths, qlt (qi w.2) (qmul (q32 (parW b 0x9100)) (qf 1 2)) = true
    then vddFollow (planLoop (planBegun false tj (monitored paths srams b))) else monitored paths srams b :=
  if_congr (and_congr_right' (and_congr (.of_eq (Bool.not_eq_true' _)) List.any_eq_true)) rfl rfl

theorem siPlanStep_eq (tj : Int) : siPlanStep tj b =
    if powered b = true ∧ b.si.planning = false ∧ b.host.mpOverload = false ∧ b.pwr.throttle < 2
    then vddFollow (planLoop (planBegun true tj (countStress tj b))) else b :=
  if_congr (and_congr_right' (and_congr (.of_eq (Bool.not_eq_true' _)) (and_congr_left' (.of_eq (Bool.not_eq_true' _))))) rfl rfl

/-! ### One round of a plan (R495) -/

/-- The plan can raise no further. -/
def atTop (b : Block) : Prop := b.si.vddSet = siVmax b ∧ (b.si.bias = 1 ∨ siFwd b = false)

/-- A step given back: FORWARD to NEUTRAL, else 5 mV. -/
def lowered (f : Bool) (b : Block) : Block :=
  { b with si := { b.si with
      bias := if f then 0 else b.si.bias, vddSet := if f then b.si.vddSet else b.si.vddSet - 5000, lowering := true, planning := true
      stepAt := b.now + 4000000 } }

/-- The loop's own condition for one more raising step. -/
def raises (b : Block) : Bool :=
  qlt (qi (worstSlack b).1) (slackNeed b) && !(decide (b.si.vddSet = siVmax b) && (decide (b.si.bias = 1) || !siFwd b))

theorem raises_iff : raises b = true ↔ qlt (qi (worstSlack b).1) (slackNeed b) = true ∧ ¬ atTop b := by
  simp [raises, atTop, imp_iff_not_or]

theorem planLoop_eq : planLoop b = if raises b = true then planRaise b else
    if (!b.si.raised && b.si.tenMin && qle (qadd (slackNeed b) (qi 10)) (qi (worstSlack b).1)) = true then
      match b.si.steps.getLast? with
      | some f => lowered f b
      | none => planEnd b
    else planEnd b := rfl

theorem planLoop_short (hs : qlt (qi (worstSlack b).1) (slackNeed b) = true) (ht : ¬ atTop b) : planLoop b = planRaise b :=
  planLoop_eq.trans (if_pos (raises_iff.2 ⟨hs, ht⟩))

section
variable (h : qlt (qi (worstSlack b).1) (slackNeed b) = false ∨ atTop b)
include h

theorem not_raises : ¬ raises b = true := fun hr => by
  obtain ⟨hs, ht⟩ := raises_iff.1 hr
  exact h.elim (fun hn => Bool.false_ne_true (hn.symm.trans hs)) ht

theorem planLoop_lowers (hr : b.si.raised = false) (hm : b.si.tenMin = true)
    (hq : qle (qadd (slackNeed b) (qi 10)) (qi (worstSlack b).1) = true) {f : Bool} (hf : b.si.steps.getLast? = some f) :
    planLoop b = lowered f b := by
  simp [planLoop_eq, not_raises h, hr, hm, hq, hf]

theorem planLoop_ends (hn : b.si.raised = true ∨ b.si.tenMin = false ∨
    qle (qadd (slackNeed b) (qi 10)) (qi (worstSlack b).1) = false ∨ b.si.steps = []) : planLoop b = planEnd b := by
  rw [planLoop_eq, if_neg (not_raises h)]
  rcases hn with hn | hn | hn | hn <;> simp [hn]

end

/-! ### The end of a plan (R495 to R497) -/

/-- The silicon at a plan's end, before RESERVE and the projection are formed. -/
def planJudged (b : Block) : SiSt :=
  { b.si with
    planning := false, lowering := false, raised := false, slackLow := qlt (qi (worstSlack b).1) (slackNeed b),
    slackMin := (worstSlack b).1, slackMon := (worstSlack b).2, sramMargin := (worstMargin b).1, sramMon := (worstMargin b).2,
    sramAssist := b.si.sramAssist || decide ((worstMargin b).1 < parN b 0x9105) }

/-- RESERVE, the projection and the count of plans are all that `planReserve` writes of the silicon. -/
theorem si_planReserve (b : Block) : ∃ r l a j m, (planReserve b).si = { b.si with
    reserve := r, resLow := l, reserveArmed := a, projValid := j, lifeRem := m, plans := min (b.si.plans + 1) 65535 } :=
  ⟨_, _, _, _, _, raiseIf_keeps Block.si (fun _ _ => rfl) _ _ _⟩

theorem planEnd_eq (b : Block) : planEnd b =
    planReserve (raiseIf (planJudged b).slackLow evSiSlackLow { b with si := planJudged b }) := rfl

theorem si_planEnd (b : Block) : ∃ r l a j m, (planEnd b).si = { planJudged b with
    reserve := r, resLow := l, reserveArmed := a, projValid := j, lifeRem := m, plans := min (b.si.plans + 1) 65535 } := by
  obtain ⟨r, l, a, j, m, h⟩ := si_planReserve (raiseIf (planJudged b).slackLow evSiSlackLow { b with si := planJudged b })
  rw [← planEnd_eq, raiseIf_keeps Block.si (fun _ _ => rfl)] at h
  exact ⟨r, l, a, j, m, h⟩

/-! ### PLAN_STEP (R495) -/

theorem planStepStep_idle (paths : List (Nat × Int)) (h : b.si.planning = false) : planStepStep paths b = b :=
  if_pos (by simp [h])

section
variable {paths : List (Nat × Int)} (hp : b.si.planning = true) {m : Block} (hm : m = monitored paths [] (atTime b.si.stepAt b))
include hp hm

theorem planStepStep_measured : planStepStep paths b = vddFollow (if b.si.lowering then
      if qlt (qi (worstSlack m).1) (slackNeed m) then
        match b.si.steps.getLast? with
        | some f => planEnd { m with si := { m.si with
            bias := if f then 1 else m.si.bias, vddSet := if f then m.si.vddSet else m.si.vddSet + 5000 } }
        | none => planEnd m
      else planEnd { m with si := { m.si with steps := m.si.steps.dropLast } }
    else planLoop m) := by
  subst hm
  exact if_neg (by simp [hp])

theorem planStepStep_goesOn (hl : b.si.lowering = false) : planStepStep paths b = vddFollow (planLoop m) := by
  simp [planStepStep_measured hp hm, hl]

section
variable (hl : b.si.lowering = true)
include hl

theorem planStepStep_keepsLowered (hs : qlt (qi (worstSlack m).1) (slackNeed m) = false) :
    planStepStep paths b = vddFollow (planEnd { m with si := { m.si with steps := m.si.steps.dropLast } }) := by
  simp [planStepStep_measured hp hm, hl, hs]

section
variable (hs : qlt (qi (worstSlack m).1) (slackNeed m) = true)
include hs

theorem planStepStep_restores {f : Bool} (hf : b.si.steps.getLast? = some f) :
    planStepStep paths b = vddFollow (planEnd { m with si := { m.si with
      bias := if f then 1 else m.si.bias, vddSet := if f then m.si.vddSet else m.si.vddSet + 5000 } }) := by
  simp [planStepStep_measured hp hm, hl, hs, hf]

theorem planStepStep_noStep (hn : b.si.steps = []) : planStepStep paths b = vddFollow (planEnd m) := by
  simp [planStepStep_measured hp hm, hl, hs, hn]

end

end

end

end

/-- Settles O37: an update's loop over the arms, the reports entered into the monitors' tables, then each round, each end and each command of a
plan, read from the lemmas above. -/
theorem tenteringUpdatesAndTheSiliconPlan : Obligations.tentering_updates_and_the_silicon_plan := by
  refine fun s h => ⟨⟨_, act_ended (i := .tentUpdate) h rfl rfl, tentNext_tentUpdateStep _, fun a ha => arm_tentUpdateStep _ ha,
      tentUpdateStep_keeps _⟩,
    fun g c => ⟨w_le_tentUpdateCell _ g c, ceil_tentUpdateCell_le _ g c, retireDue_tentUpdateCell _ g c⟩,
    fun paths srams tj => ⟨monitored paths srams s.toBlock, fun k hk => tget_reported_of_notReported hk _, ?_,
      fun k hk => tget_reported_of_notReported (n := 16) (f := (· % 16)) hk _, ?_, rfl,
      act_ended (i := .siMonitor paths srams tj) h rfl (siMonitorStep_eq paths srams tj)⟩,
    fun tj => act_ended (i := .siPlan tj) h rfl (siPlanStep_eq tj), ?_,
    fun b hb => ⟨fun f hr hm hq hf => planLoop_lowers hb hr hm hq hf, fun hn => planLoop_ends hb hn⟩,
    fun b => ?_,
    fun paths => ⟨fun hp => act_ended (i := .planStep paths) h rfl (planStepStep_idle paths hp), fun hp => ?_⟩,
    act_ended (i := .siHistoryWrite) h rfl rfl⟩
  · rintro l r k v rfl hk hr
    exact tget_reported_of_last hk hr l v _
  · rintro l r k v rfl hk hr
    exact tget_reported_of_last (f := (· % 16)) hk hr l v _
  · rintro b hs ht f rfl
    exact planLoop_short hs ht
  · obtain ⟨_, _, _, _, _, hsi⟩ := si_planEnd b
    rw [hsi]
    exact ⟨rfl, rfl, rfl, rfl, rfl, rfl⟩
  · refine ⟨monitored paths [] (atTime s.si.stepAt s.toBlock), rfl, ?_, rfl,
      fun hl => act_ended (i := .planStep paths) h rfl (planStepStep_goesOn hp rfl hl),
      fun hl hs => act_ended (i := .planStep paths) h rfl (planStepStep_keepsLowered hp rfl hl hs),
      fun f hl hs hf => act_ended (i := .planStep paths) h rfl (planStepStep_restores hp rfl hl hs hf),
      fun hl hs hn => act_ended (i := .planStep paths) h rfl (planStepStep_noStep hp rfl hl hs hn)⟩
    rintro l r k v rfl hk hr
    exact tget_reported_of_last hk hr l v _

end Sys2Proof.Machine
end

section
/-!
PROOFS. What every step keeps: the queue, the settled events, and the block while a reset pin is low.
-/

namespace Sys2Proof.Machine

/-! ### The queue and the outcome of a command -/

/-- Settles O1. -/
theorem stepRunsFront : Obligations.step_runs_front := fun _ _ => rfl

theorem idle_porstLow {b : Block} (h : b.rst.porstLow = true) : idle b = b := if_pos h

theorem idle_live {b : Block} (h : inReset b = false) : idle b = settle { b with now := b.now + 8 } := by
  have hp : b.rst.porstLow = false := (Bool.or_eq_false_iff.1 h).1
  have hr : inReset { b with now := b.now + 8 } = false := h
  simp [idle, run, hp, hr]

theorem step_idle {s : State} (h : s.pending = []) : step s = .next { s with toBlock := idle s.toBlock } := by
  simp [step, h]

/-- Settles O2: an idle step with PORST_N low and one with both pins high. -/
theorem emptyQueueIdles : Obligations.empty_queue_idles := by
  intro s h
  refine ⟨fun hp => ?_, fun hl => ?_⟩
  · rw [step_idle h, idle_porstLow hp]
  · rw [step_idle h, idle_live hl]; rfl

/-- Settles O3: neither way in which a command acts touches the queue. -/
theorem execKeepsQueue : Obligations.exec_keeps_queue := by
  intro c s t h
  obtain ⟨f, hf | hf⟩ := exec_is_act c
  · exact act_pending c f s t ((hf s).symm.trans h)
  · exact actAlways_pending c f s t ((hf s).symm.trans h)

/-- Settles O4: both ways in which a command acts answer a next state. -/
theorem execNeverStops : Obligations.exec_never_stops := by
  intro c s
  obtain ⟨f, hf | hf⟩ := exec_is_act c
  · exact ⟨_, hf s⟩
  · exact ⟨_, hf s⟩

/-- Settles O5: every command not named acts as `act` says, which leaves the state while a pin is low. -/
theorem resetPinsHoldTheBlock : Obligations.reset_pins_hold_the_block := by
  intro c s h hc
  cases c with
  | porstNAssert | porstNRelease | rstNAssert | rstNRelease | jtagInstruction => exact hc.elim
  | _ => exact act_reset _ _ s h

/-! ### Events are settled after every step -/

theorem settled_of_act {c : Instr} {f : Block → Block} {s t : State} (h : s.toBlock.eventsSettled = true)
    (e : act c f s = .next t) : t.toBlock.eventsSettled = true := by
  cases hw : c.wf with
  | false =>
    rw [act_of_not_wf hw] at e
    cases e
    exact h
  | true =>
    cases hr : inReset s.toBlock with
    | true =>
      rw [act_reset _ _ _ hr] at e
      cases e
      exact h
    | false =>
      rw [act_live _ _ _ hr hw] at e
      cases e
      exact settle_settled _

theorem settled_of_actAlways {c : Instr} {f : Block → Block} {s t : State} (h : s.toBlock.eventsSettled = true)
    (e : actAlways c f s = .next t) : t.toBlock.eventsSettled = true := by
  cases hw : c.wf with
  | false =>
    rw [actAlways_of_not_wf hw] at e
    cases e
    exact h
  | true =>
    rw [actAlways_next _ _ _ hw] at e
    cases e
    exact settle_settled _

theorem settled_of_exec {c : Instr} {s t : State} (h : s.toBlock.eventsSettled = true) (e : exec c s = .next t) :
    t.toBlock.eventsSettled = true := by
  obtain ⟨f, hf | hf⟩ := exec_is_act c
  · exact settled_of_act h ((hf s).symm.trans e)
  · exact settled_of_actAlways h ((hf s).symm.trans e)

theorem settled_idle {b : Block} (h : b.eventsSettled = true) : (idle b).eventsSettled = true := by
  unfold idle run
  split
  · exact h
  · split
    · exact h
    · exact settle_settled _

/-- Settles O7: a step runs the front command or idles, and both evaluate what was raised. -/
theorem eventsSettledIsInvariant : Obligations.events_settled_is_invariant := by
  intro s t h e
  cases hp : s.pending with
  | nil =>
    rw [step_idle hp] at e
    cases e
    exact settled_idle h
  | cons c r =>
    have hs : step s = exec c { s with pending := r } := by simp [step, hp]
    exact settled_of_exec (s := { s with pending := r }) h (hs.symm.trans e)

/-- Settles O8: the reset state is a literal. -/
theorem resetIsSettled : Obligations.reset_is_settled := by
  unfold Obligations.reset_is_settled
  decide

end Sys2Proof.Machine
end

section
/-!
PROOFS. Reset pins, the ROM's choice of an image and the end of start-up (chapter 20).
-/

namespace Sys2Proof.Machine

/-- A command of the reset pins or the boundary scan ends in the block that its effect gives. -/
theorem actAlways_ended {i : Instr} {f : Block → Block} {s : State} (hw : i.wf = true) {b : Block} (e : f s.toBlock = b) :
    actAlways i f s = .next (ended s b) := by
  rw [actAlways_next i f s hw, e]

/-! ### Cold and warm resets -/

/-- Settles O17: every part named is one that `coldReset` writes out or leaves at its default. -/
theorem coldResetKeepsOnlyTheBootFlash : Obligations.cold_reset_keeps_only_the_boot_flash := fun _ =>
  ⟨_, actAlways_ended rfl rfl, rfl, rfl, rfl, rfl, rfl, rfl, rfl, rfl, rfl, rfl, rfl, rfl, rfl, rfl, rfl, rfl, rfl, rfl, rfl, rfl,
    rfl, rfl, rfl, rfl, rfl, rfl, rfl, rfl, rfl, rfl, rfl, rfl, rfl, rfl, rfl, rfl, rfl, rfl, rfl⟩

theorem st_spbWarm_killed {x : SpbSt} (h : x.st = .killed) : (spbWarm x).st = .killed ∧ (spbWarm x).cause = x.cause := by
  simp [spbWarm, h]

theorem st_spbWarm_startup {x : SpbSt} (h : x.st ≠ .killed) : (spbWarm x).st = .startup := by
  simp [spbWarm, h, spbFlash]

theorem flash_spbWarm (x : SpbSt) : (spbWarm x).flash = x.flash ∧ (spbWarm x).log = x.log := by
  unfold spbWarm
  dsimp only
  split <;> exact ⟨rfl, rfl⟩

/-- Either pin is low while PORST_N is, and with both high neither is. -/
theorem live_pins {s : State} (h : s.live) : s.rst.porstLow = false ∧ s.rst.rstLow = false :=
  Bool.or_eq_false_iff.1 h

theorem internalWarmReset_live {b : Block} (h : inReset b = false) (cause : Nat) :
    internalWarmReset cause b = warmReset cause b := by simp [internalWarmReset, h]

theorem rstNAssertStep_warm {b : Block} (hp : b.rst.porstLow = false) (hr : b.rst.rstLow = false) :
    rstNAssertStep b = warmReset 2 (modRst (fun x => { x with rstLow := true }) b) := by
  simp [rstNAssertStep, hp, hr]

theorem rstNAssertStep_cold {b : Block} (hp : b.rst.porstLow = true) (hr : b.rst.rstLow = false) :
    rstNAssertStep b = { b with rst := { b.rst with rstLow := true } } := by
  simp [rstNAssertStep, hp, hr, modRst]

theorem rstNAssertStep_low {b : Block} (hr : b.rst.rstLow = true) : rstNAssertStep b = b := by
  simp [rstNAssertStep, hr]

/-- What a warm reset with a cause leaves of the block `s`; the RST_N pin is low only after RST_N_ASSERT (cause 2). -/
structure WarmReset (s b : Block) (cause : Nat) : Prop where
  rst : b.rst.cause = cause ∧ b.rst.rstLow = decide (cause = 2) ∧ b.rst.porstLow = false ∧ b.rst.phase = .waiting ∧
    b.rst.warmResets = min (s.rst.warmResets + 1) (2 ^ 16 - 1) ∧ b.rst.relAt = s.now ∧ b.now = s.now
  rest : b = { warmReset cause s with rst := b.rst }

theorem warmReset_of_rstN {b : Block} (hp : b.rst.porstLow = false) :
    WarmReset b (warmReset 2 (modRst (fun x => { x with rstLow := true }) b)) 2 :=
  ⟨⟨rfl, rfl, hp, rfl, rfl, rfl, rfl⟩, rfl⟩

theorem warmReset_internal {b : Block} (hp : b.rst.porstLow = false) (hr : b.rst.rstLow = false) {cause : Nat} (hc : cause ≠ 2) :
    WarmReset b (warmReset cause b) cause :=
  ⟨⟨rfl, hr.trans (by simp [hc]), hp, rfl, rfl, rfl, rfl⟩, rfl⟩

/-- The parts of a block after a warm reset, as the statement of R732 lists them. -/
theorem WarmReset.parts {s b : Block} {cause : Nat} (h : WarmReset s b cause) :
    b.rst.cause = cause ∧ b.rst.rstLow = decide (cause = 2) ∧ b.rst.porstLow = false ∧ b.rst.phase = .waiting ∧
    b.rst.warmResets = min (s.rst.warmResets + 1) (2 ^ 16 - 1) ∧ b.rst.relAt = s.now ∧ b.now = s.now ∧
    b.time = { base := s.time.base, fB := s.time.fB, rate := s.time.rate,
               stepSeq := s.time.stepSeq, timeValid := s.time.timeValid, everLocked := s.time.everLocked } ∧
    b.host.slots = s.host.slots ∧ b.host.twinId = s.host.twinId ∧ b.host.straps = s.host.straps ∧ b.host.fwReady = false ∧
    b.host.mbx = [] ∧ b.spb.flash = s.spb.flash ∧ b.spb.log = s.spb.log ∧
    (s.spb.st = .killed → b.spb.st = .killed ∧ b.spb.cause = s.spb.cause) ∧ (s.spb.st ≠ .killed → b.spb.st = .startup) ∧
    b.cyc = {} ∧ b.par = {} ∧ b.model = {} ∧ b.ev = {} ∧ b.cells = [] ∧ b.changes = [] ∧ b.ports = [] ∧ b.arms = [] ∧
    b.trip = {} ∧ b.seq = {} ∧ b.gov = {} ∧ b.eng = {} ∧ b.adc = {} ∧ b.graph = {} ∧ b.dam = {} ∧ b.mem = [] ∧ b.pwr = {} := by
  obtain ⟨⟨h1, h2, h3, h4, h5, h6, h7⟩, e⟩ := h
  have k : ∀ {α : Type} (p : Block → α), p b = p { warmReset cause s with rst := b.rst } := fun p => congrArg p e
  have hs : b.spb = spbWarm s.spb := k Block.spb
  rw [hs]
  exact ⟨h1, h2, h3, h4, h5, h6, h7, k Block.time, k (·.host.slots), k (·.host.twinId), k (·.host.straps), k (·.host.fwReady), k (·.host.mbx),
    (flash_spbWarm _).1, (flash_spbWarm _).2, st_spbWarm_killed, st_spbWarm_startup, k Block.cyc, k Block.par, k Block.model, k Block.ev,
    k Block.cells, k Block.changes, k Block.ports, k Block.arms, k Block.trip, k Block.seq, k Block.gov, k Block.eng, k Block.adc,
    k Block.graph, k Block.dam, k Block.mem, k Block.pwr⟩

/-- Settles O18: the three warm resets leave what `WarmReset` says; RST_N_ASSERT with a pin low already is one bit or nothing. -/
theorem warmResetKeepsTimeAndFlash : Obligations.warm_reset_keeps_time_and_flash := by
  intro s
  refine ⟨fun hl p hp => ?_, fun hp hr => actAlways_ended rfl (rstNAssertStep_cold hp hr), fun hr => actAlways_ended rfl (rstNAssertStep_low hr)⟩
  obtain ⟨h1, h2⟩ := live_pins hl
  simp only [List.mem_cons, List.not_mem_nil, or_false] at hp
  rcases hp with rfl | rfl | rfl
  · exact ⟨_, actAlways_ended rfl (rstNAssertStep_warm h1 h2), (warmReset_of_rstN h1).parts⟩
  · exact ⟨_, act_ended hl rfl (internalWarmReset_live hl 3), (warmReset_internal h1 h2 (by decide)).parts⟩
  · exact ⟨_, act_ended hl rfl (internalWarmReset_live hl 4), (warmReset_internal h1 h2 (by decide)).parts⟩

/-! ### Release of a pin and boundary scan -/

theorem strapsBad_byte (st : W8) : strapsBad st.toNat = (decide (64 ≤ st.toNat) || decide (st.toNat / 2 % 4 = 3)) := by
  have h := st.isLt
  have h6 : bits st.toNat 6 2 = st.toNat / 64 := by simp only [bits, Nat.shiftRight_eq_div_pow]; omega
  have h1 : bits st.toNat 1 2 = st.toNat / 2 % 4 := by simp only [bits, Nat.shiftRight_eq_div_pow]; omega
  have hd : decide (st.toNat / 64 ≠ 0) = decide (64 ≤ st.toNat) := decide_eq_decide.2 (by omega)
  simp only [strapsBad, h6, h1]
  rw [hd]

theorem samplePins_byte (id : Bool) (st : W8) (b : Block) : samplePins id st.toNat b = { b with
    tw := { b.tw with unitB := id }, host := { b.host with twinId := id, straps := st.toNat },
    rst := { b.rst with strapBad := decide (64 ≤ st.toNat) || decide (st.toNat / 2 % 4 = 3), relAt := b.now } } := by
  simp only [samplePins, strapsBad_byte, Nat.mod_eq_of_lt st.isLt]

theorem porstNReleaseStep_high {b : Block} (h : b.rst.porstLow = false) (id : Bool) (n : Nat) : porstNReleaseStep id n b = b := by
  simp [porstNReleaseStep, h]

theorem porstNReleaseStep_low {b : Block} (h : b.rst.porstLow = true) (id : Bool) (st : W8) : porstNReleaseStep id st.toNat b = { b with
    now := 0, tw := { b.tw with unitB := id }, host := { b.host with twinId := id, straps := st.toNat },
    rst := { b.rst with porstLow := false, jtag := .bypass, relAt := 0,
                        strapBad := decide (64 ≤ st.toNat) || decide (st.toNat / 2 % 4 = 3) } } := by
  rw [porstNReleaseStep, if_pos h, samplePins_byte]

theorem rstNReleaseStep_high {b : Block} (h : b.rst.rstLow = false) (id : Bool) (n : Nat) : rstNReleaseStep id n b = b := by
  simp [rstNReleaseStep, h]

theorem rstNReleaseStep_low {b : Block} (h : b.rst.rstLow = true) (id : Bool) (st : W8) : rstNReleaseStep id st.toNat b = { b with
    tw := { b.tw with unitB := id }, host := { b.host with twinId := id, straps := st.toNat },
    rst := { b.rst with rstLow := false, relAt := b.now,
                        strapBad := decide (64 ≤ st.toNat) || decide (st.toNat / 2 % 4 = 3) } } := by
  rw [rstNReleaseStep, if_pos h, samplePins_byte]; rfl

/-- Settles O19: the releases sample the pins; each boundary-scan instruction is one write of the register. -/
theorem resetReleaseSamplesThePins : Obligations.reset_release_samples_the_pins := by
  intro s id st
  refine ⟨fun h => actAlways_ended rfl (porstNReleaseStep_low h id st), fun h => actAlways_ended rfl (porstNReleaseStep_high h id _),
    fun h => actAlways_ended rfl (rstNReleaseStep_low h id st), fun h => actAlways_ended rfl (rstNReleaseStep_high h id _),
    fun i hi => ?_, fun i hi => ?_, actAlways_ended rfl rfl⟩
  · simp only [List.mem_cons, List.not_mem_nil, or_false] at hi
    rcases hi with rfl | rfl | rfl <;> exact actAlways_ended rfl (by simp [jtagInstructionStep, modRst])
  · simp only [List.mem_cons, List.not_mem_nil, or_false] at hi
    rcases hi with rfl | rfl | rfl <;>
      exact actAlways_ended rfl (by cases h : s.rst.porstLow <;> simp [jtagInstructionStep, modRst, h])

/-! ### The ROM (R737, R738) -/

/-- The block when the ROM starts: 20 ms after the release, PCI Express up and the PLL locked. -/
def romWoken (f : BootFlash) (b : Block) : Block :=
  let b := atTime (b.rst.relAt + 20 * msU) b
  let b := modPwr (fun x => { x with pllLock := true }) { b with host := { b.host with pcieUp := true } }
  modRst (fun x => { x with mirrorUsed := f.dirPrimary ≠ f.dirMirror }) b

/-- A debug challenge is published (R749). -/
def challengeShown (b : Block) : Block :=
  useFree (useFree (modRst (fun x => { x with challenge := some (Config.freeWord b.free ++ Config.freeWord (b.free + 1)) }) b))

/-- The block when the ROM looks for an image, with a challenge published where DEBUG_REQ asks. -/
def romReady (f : BootFlash) (b : Block) : Block :=
  if bitAt (strapsOf b) 5 then challengeShown (romWoken f b) else romWoken f b

theorem startStep_waiting {f : BootFlash} {b : Block} (h : b.rst.phase = .waiting) (hl : inReset b = false) :
    startStep f b = romBoot f (romReady f b) := by
  rw [startStep, if_neg (by simp [h, hl])]; rfl

theorem startStep_later {f : BootFlash} {b : Block} (h : b.rst.phase ≠ .waiting) : startStep f b = b := by
  rw [startStep, if_pos (.inl h)]

theorem romReady_debug {f : BootFlash} {b : Block} (h : bitAt (strapsOf b) 5 = true) : (romReady f b).rst.challenge.isSome = true := by
  rw [romReady, if_pos h]; rfl

theorem romReady_noDebug {f : BootFlash} {b : Block} (h : bitAt (strapsOf b) 5 = false) :
    (romReady f b).rst.challenge = b.rst.challenge := by
  rw [romReady, if_neg (ne_true_of_eq_false h)]; rfl

theorem romReady_spec (f : BootFlash) (b : Block) : (romReady f b).now = max b.now (b.rst.relAt + 20 * msU) ∧
    (romReady f b).host.pcieUp = true ∧ (romReady f b).pwr.pllLock = true ∧
    (romReady f b).rst.mirrorUsed = decide (f.dirPrimary ≠ f.dirMirror) ∧ strapsOf (romReady f b) = strapsOf b ∧
    (romReady f b).rst.retried = b.rst.retried ∧ (romReady f b).rst.prefer = b.rst.prefer := by
  unfold romReady
  split <;> exact ⟨rfl, rfl, rfl, rfl, rfl, rfl, rfl⟩

/-- The ROM changes neither the time, the links, MIRROR_USED nor the challenge. -/
theorem romBoot_keeps (f : BootFlash) (b : Block) : (romBoot f b).now = b.now ∧ (romBoot f b).host.pcieUp = b.host.pcieUp ∧
    (romBoot f b).pwr = b.pwr ∧ (romBoot f b).rst.mirrorUsed = b.rst.mirrorUsed ∧ (romBoot f b).rst.challenge = b.rst.challenge := by
  have hs : ∀ k v c, (startImage k v c b).now = b.now ∧ (startImage k v c b).host.pcieUp = b.host.pcieUp ∧ (startImage k v c b).pwr = b.pwr ∧
      (startImage k v c b).rst.mirrorUsed = b.rst.mirrorUsed ∧ (startImage k v c b).rst.challenge = b.rst.challenge :=
    fun _ _ _ => ⟨rfl, rfl, rfl, rfl, rfl⟩
  have hf : ∀ st, (bootFail st b).now = b.now ∧ (bootFail st b).host.pcieUp = b.host.pcieUp ∧ (bootFail st b).pwr = b.pwr ∧
      (bootFail st b).rst.mirrorUsed = b.rst.mirrorUsed ∧ (bootFail st b).rst.challenge = b.rst.challenge :=
    fun _ => ⟨rfl, rfl, rfl, rfl, rfl⟩
  unfold romBoot
  dsimp only
  split_ifs <;> first | exact hs _ _ _ | exact hf _

theorem firstImage_fresh {b : Block} (h : b.rst.retried = false) : firstImage b =
    if bits (strapsOf b) 1 2 = 1 then 0 else if bits (strapsOf b) 1 2 = 2 then 1 else b.rst.prefer % 2 := by
  rw [firstImage, if_neg (by simp [h])]
  split <;> simp_all

/-- The images in the order R737 tries them, on a first attempt. -/
theorem romBoot_fresh {f : BootFlash} {b : Block} (h : b.rst.retried = false) : romBoot f b =
    if f.dirPrimary = false ∧ f.dirMirror = false ∧ bits (strapsOf b) 1 2 = 0 then bootFail 1 b
    else if f.check (firstImage b) = .good then startImage (firstImage b) (if firstImage b = 0 then f.fwA else f.fwB) f.siPrimary b
    else if bits (strapsOf b) 1 2 ≠ 0 then bootFail (checkStatus (f.check (firstImage b))) b
    else if f.check (1 - firstImage b) = .good then
      startImage (1 - firstImage b) (if 1 - firstImage b = 0 then f.fwA else f.fwB) f.siPrimary b
    else bootFail (checkStatus (f.check (1 - firstImage b))) b := by
  unfold romBoot
  by_cases hn : bits (strapsOf b) 1 2 = 0 <;> simp [hn, h]

/-- Settles O20: the ROM starts from `romReady`, whose straps are those sampled, and tries the images in turn. -/
theorem romBootChoosesAnImage : Obligations.rom_boot_chooses_an_image := by
  intro s f hl
  refine ⟨fun hw hr => ?_, fun hw => act_ended hl rfl (startStep_later hw)⟩
  obtain ⟨r1, r2, r3, r4, r5, r6, r7⟩ := romReady_spec f s.toBlock
  obtain ⟨k1, k2, k3, k4, k5⟩ := romBoot_keeps f (romReady f s.toBlock)
  refine ⟨_, act_ended hl rfl (startStep_waiting hw hl), k1.trans r1, k2.trans r2, (congrArg _ k3).trans r3, k4.trans r4,
    fun hd => k5 ▸ romReady_debug hd, fun hd => k5.trans (romReady_noDebug hd), ?_⟩
  have e := romBoot_fresh (f := f) (r6.trans hr)
  rw [firstImage_fresh (r6.trans hr), r5, r7] at e
  rw [e]
  dsimp only
  generalize bits (strapsOf s.toBlock) 1 2 = n
  generalize (if n = 1 then 0 else if n = 2 then 1 else s.rst.prefer % 2) = k
  have hs : ∀ j v, (startImage j v f.siPrimary (romReady f s.toBlock)).rst.phase = .starting ∧ (startImage j v f.siPrimary (romReady f s.toBlock)).rst.image = j ∧
      (startImage j v f.siPrimary (romReady f s.toBlock)).host.fwSlot = j ∧ (startImage j v f.siPrimary (romReady f s.toBlock)).host.fwVersion = v :=
    fun _ _ => ⟨rfl, rfl, rfl, rfl⟩
  have hc : ∀ j, (if j = 0 then f.imageA else f.imageB) = f.check j := fun _ => rfl
  simp only [hc]
  by_cases c1 : f.dirPrimary = false ∧ f.dirMirror = false ∧ n = 0
  · rw [if_pos c1, if_pos c1]; exact ⟨rfl, rfl⟩
  rw [if_neg c1, if_neg c1]
  by_cases c2 : f.check k = .good
  · rw [if_pos c2, if_pos c2]; exact hs _ _
  rw [if_neg c2, if_neg c2]
  by_cases c3 : n ≠ 0
  · rw [if_pos c3, if_pos c3]; exact ⟨rfl, rfl⟩
  rw [if_neg c3, if_neg c3]
  by_cases c4 : f.check (1 - k) = .good
  · rw [if_pos c4, if_pos c4]; exact hs _ _
  rw [if_neg c4, if_neg c4]; exact ⟨rfl, rfl⟩

/-! ### The end of start-up (R739 to R742, R749) -/

theorem inReset_atTime (t : Nat) (b : Block) : inReset (atTime t b) = inReset b := rfl

theorem fwTimeoutStep_again {b : Block} (h : b.rst.phase = .starting) (hr : b.rst.retried = true) :
    fwTimeoutStep b = bootFail 4 (modRst (fun x => { x with failed := setBit x.failed b.rst.image true })
      (atTime (b.rst.fwAt + (if bitAt (strapsOf b) 4 then 3 else 1) * sU) b)) := by
  rw [fwTimeoutStep, if_neg (by simp [h])]
  exact if_pos hr

theorem fwTimeoutStep_first {b : Block} (hl : inReset b = false) (h : b.rst.phase = .starting) (hr : b.rst.retried = false) :
    fwTimeoutStep b = modRst (fun x => { x with image := b.rst.image, failed := setBit b.rst.failed b.rst.image true, retried := true })
      (warmReset 4 (atTime (b.rst.fwAt + (if bitAt (strapsOf b) 4 then 3 else 1) * sU) b)) := by
  rw [fwTimeoutStep, if_neg (by simp [h]), ← internalWarmReset_live ((inReset_atTime _ b).trans hl)]
  exact if_neg (ne_true_of_eq_false hr)

theorem startUpEndStep_fatal {b : Block} (h : b.rst.phase = .starting) (ms pg bad : Nat) :
    startUpEndStep ms true pg bad b = bootFail 5 (atTime (b.rst.relAt + ms * msU) b) := by
  rw [startUpEndStep, if_neg (by simp [h])]; rfl

/-- The role that start-up ends in is WAIT or SOLO (R577). -/
theorem startUpEndStep_up {b : Block} (h : b.rst.phase = .starting) (ms bad : Nat) {pg : Nat} (hp : pg < 256) :
    ∃ d, startUpEndStep ms false pg bad b = d ∧ d.rst.phase = .up ∧ d.host.fwReady = true ∧ d.rst.resetOut = true ∧
      d.rst.pgFailed = pg ∧ d.rst.bootTime = (d.now - b.rst.relAt) / msU ∧ d.now = max b.now (b.rst.relAt + ms * msU) ∧
      (d.tw.role = .wait ∨ d.tw.role = .solo) ∧ d.seq = b.seq ∧ d.par = b.par ∧ d.mem = b.mem := by
  rw [startUpEndStep, if_neg (by simp [h])]
  refine ⟨_, rfl, rfl, rfl, rfl, Nat.mod_eq_of_lt hp, rfl, rfl, ?_, rfl, rfl, rfl⟩
  show (if _ then Role.wait else Role.solo) = .wait ∨ (if _ then Role.wait else Role.solo) = .solo
  split
  · exact .inl rfl
  · exact .inr rfl

/-- The role's change is one of the twin state and of the events (R577). -/
theorem autoloadRole_keeps (b : Block) : (∀ x y, { autoloadRole b with tw := x, ev := y } = { b with tw := x, ev := y }) ∧
    ∀ e ∈ b.ev.raised, e ∈ (autoloadRole b).ev.raised := by
  unfold autoloadRole setRole
  split_ifs
  · exact ⟨fun _ _ => rfl, fun _ h => h⟩
  · exact ⟨fun _ _ => rfl, fun _ h => List.mem_append_left _ h⟩
  · exact ⟨fun _ _ => rfl, fun _ h => h⟩

/-- AUTOLOAD once its first slot is chosen, which passes its CRCs or does not. -/
def autoloadFrom (good : Bool) (b : Block) : Block :=
  match (slotOf b b.host.waitSlot).set with
  | none => autoloadRole (raise evCfgRejected b)
  | some c =>
    if !good then autoloadRole (raise evCfgRejected b)
    else match (validate b { c with safety := safetyInForce b } none).1 with
      | some _ => if (autoloadFails b).host.waiting.isSome then autoloadFails b else autoloadRole (autoloadFails b)
      | none => { b with host := { b.host with
          committing := true, waiting := some { c with safety := safetyInForce b }, waitMbx := 8, waitState := b.seq.state, waitSafe := false } }

theorem autoloadFrom_empty {good : Bool} {b : Block} (h : (slotOf b b.host.waitSlot).set = none) :
    autoloadFrom good b = autoloadRole (raise evCfgRejected b) := by simp only [autoloadFrom, h]

theorem autoloadFrom_valid {b : Block} {c : CfgSet} (h : (slotOf b b.host.waitSlot).set = some c)
    (hv : (validate b { c with safety := safetyInForce b } none).1 = none) :
    autoloadFrom true b = { b with host := { b.host with
      committing := true, waiting := some { c with safety := safetyInForce b }, waitMbx := 8, waitState := b.seq.state, waitSafe := false } } := by
  simp [autoloadFrom, h, hv]

/-- A slot holds a set whose CRCs pass. -/
def slotGood (bad : Nat) (b : Block) (k : Nat) : Bool := (slotOf b k).set.isSome && !bitAt bad k

/-- The slot of the higher CFG_SEQ. -/
def newestSlot (b : Block) : Nat := if (slotOf b 0).seq < (slotOf b 1).seq then 1 else 0

/-- The slot AUTOLOAD tries first, and whether the other may be tried after it. -/
def autoloadChosen (bad k : Nat) (b : Block) : Block :=
  { b with host := { b.host with waitSlot := k, waitRetry := !slotGood bad b (1 - k) } }

section
variable {b : Block} (hp : b.rst.phase = .up) (hs : b.seq.state = .await) (hn : bitAt (strapsOf b) 3 = false) (hc : b.host.committing = false)
include hp hs hn hc

/-- R742, where it lets AUTOLOAD act. -/
theorem autoloadStep_acts (bad k : Nat) (hk : k = if slotGood bad b (newestSlot b) then newestSlot b else 1 - newestSlot b) :
    autoloadStep bad b = autoloadFrom (slotGood bad b k) (autoloadChosen bad k b) := by
  have hb : (!b.rst.strapBad && bitAt b.host.straps 3) = false := by
    unfold strapsOf at hn
    cases hx : b.rst.strapBad
    · simpa [hx] using hn
    · rfl
  rw [autoloadStep, if_neg (by simp [hp, hs, hb, hc]), hk]
  rfl

/-- With no set in either slot there is nothing to wait for. -/
theorem autoloadStep_empty (bad : Nat) (h0 : (slotOf b 0).set = none) (h1 : (slotOf b 1).set = none) :
    ∃ k, autoloadStep bad b = autoloadRole (raise evCfgRejected (autoloadChosen bad k b)) := by
  have hnone : ∀ k, k < 2 → (slotOf b k).set = none := fun k hk => by
    match k with
    | 0 => exact h0
    | 1 => exact h1
  have hnew : newestSlot b < 2 := by unfold newestSlot; split <;> omega
  refine ⟨_, (autoloadStep_acts hp hs hn hc bad _ rfl).trans (autoloadFrom_empty (hnone _ ?_))⟩
  show (if slotGood bad b (newestSlot b) then newestSlot b else 1 - newestSlot b) < 2
  split <;> omega

/-- The set of the slot of higher CFG_SEQ, when it passes the checks, waits for its commit (R742). -/
theorem autoloadStep_waits {bad k : Nat} {c : CfgSet} (hk : newestSlot b = k) (hg : slotGood bad b k = true)
    (hset : (slotOf b k).set = some c) (hv : (validate (autoloadChosen bad k b) { c with safety := safetyInForce b } none).1 = none) :
    autoloadStep bad b = { autoloadChosen bad k b with host := { (autoloadChosen bad k b).host with
      committing := true, waiting := some { c with safety := safetyInForce b }, waitMbx := 8, waitState := b.seq.state, waitSafe := false } } := by
  rw [autoloadStep_acts hp hs hn hc bad k (by rw [hk, hg]; rfl), hg]
  exact autoloadFrom_valid (b := autoloadChosen bad k b) hset hv

end

/-- Settles O21: each clause is the step of its command, read from the lemmas above. -/
theorem startUpEndsOrIsRetried : Obligations.start_up_ends_or_is_retried := by
  intro s hl
  refine ⟨fun hp hr => ⟨_, act_ended hl rfl (fwTimeoutStep_again hp hr), rfl, rfl, rfl, rfl⟩,
    fun hp hr => ⟨_, act_ended hl rfl (fwTimeoutStep_first hl hp hr), rfl, rfl, rfl, rfl, rfl, rfl, rfl, rfl⟩,
    fun ms pg bad hp => ⟨⟨_, act_ended hl rfl (startUpEndStep_fatal hp _ _ _), rfl, rfl, rfl⟩, ?_⟩,
    fun bad k c hp hs hn hc hk hle hlt hset hbad hv => ?_, fun bad hp hs hn hc h0 h1 => ?_,
    fun hc => act_ended hl rfl (by simp [debugResponseStep, hc, modRst]), fun hc => act_ended hl rfl (by simp [debugResponseStep, hc]),
    act_ended hl rfl (by simp [debugResponseStep])⟩
  · obtain ⟨d, e, h⟩ := startUpEndStep_up hp ms bad.toNat pg.isLt
    exact ⟨d, act_ended hl rfl e, h⟩
  · have hnew : newestSlot s.toBlock = k := by
      match k with
      | 0 => exact if_neg (Nat.not_lt.2 hle)
      | 1 => exact if_pos (hlt rfl)
    have hg : slotGood bad.toNat s.toBlock k = true := by simp [slotGood, hset, bitAt, hbad]
    exact ⟨_, act_ended hl rfl (autoloadStep_waits hp hs hn hc hnew hg hset hv), rfl, rfl, rfl, rfl, rfl, rfl, rfl⟩
  · obtain ⟨k, e⟩ := autoloadStep_empty hp hs hn hc bad.toNat h0 h1
    obtain ⟨k1, k2⟩ := autoloadRole_keeps (raise evCfgRejected (autoloadChosen bad.toNat k s.toBlock))
    have kp : ∀ {α : Type} (p : Block → α), p { autoloadRole (raise evCfgRejected (autoloadChosen bad.toNat k s.toBlock)) with
        tw := s.tw, ev := s.ev } = p { autoloadChosen bad.toNat k s.toBlock with tw := s.tw, ev := s.ev } := fun p => congrArg p (k1 _ _)
    exact ⟨_, act_ended hl rfl e, k2 _ (mem_raised_raise_self _ _), kp (·.host.waiting), (kp (·.host.committing)).trans hc, kp Block.seq, kp Block.par⟩

end Sys2Proof.Machine
end

section
/-!
PROOFS. The PCI Express function, event registers and mailboxes (R625 to R641, R659 to R662).
-/

namespace Sys2Proof.Machine

/-! ### Link, power state and setpoints -/

/-- Settles O11: each command is one write of the function's registers. -/
theorem pcieLinkAndPowerStateCommands : Obligations.pcie_link_and_power_state_commands := fun _ hl =>
  ⟨act_ended hl rfl rfl, fun _ => act_ended hl rfl rfl, fun _ => act_ended hl rfl rfl⟩

theorem isActive_eq_true {b : Block} (h : b.tw.role = .solo ∨ b.tw.role = .active) : isActive b = true := by
  rcases h with h | h <;> simp [isActive, h]

theorem isActive_eq_false {b : Block} (h1 : b.tw.role ≠ .solo) (h2 : b.tw.role ≠ .active) : isActive b = false := by
  simp [isActive, h1, h2]

theorem setpointWriteStep_active {k : Nat} {b : Block} (hk : k < 64) (ha : isActive b = true) (v : W32) :
    setpointWriteStep k v b = { b with cyc := { b.cyc with
      setpoints := tset 0#32 b.cyc.setpoints k v, setWrites := b.cyc.setWrites ++ [(k, v, b.now)] } } := by
  simp [setpointWriteStep, hk, ha]

theorem setpointWriteStep_standby {k : Nat} {b : Block} (ha : isActive b = false) (v : W32) : setpointWriteStep k v b = b := by
  simp [setpointWriteStep, ha]

/-- Settles O13: the write and its note in an active unit, nothing in another. -/
theorem setpointWriteAndStandby : Obligations.setpoint_write_and_standby := by
  intro s k v hl hk
  have hw : (Instr.setpointWrite k v).wf = true := decide_eq_true hk
  refine ⟨fun hr => ⟨_, act_ended hl hw (setpointWriteStep_active hk (isActive_eq_true hr) v), tget_tset_same _ _ _ _,
    fun j hj => tget_tset_ne _ _ _ hj, rfl, rfl, rfl⟩, fun h1 h2 => act_ended hl hw (setpointWriteStep_standby (isActive_eq_false h1 h2) v)⟩

/-! ### Event registers (R659 to R661) -/

theorem evtPendClearStep_word {w : Nat} (hw : w < 8) (m : W32) (b : Block) : evtPendClearStep w m.toNat b = { b with ev := { b.ev with
    active := b.ev.active &&& vecActive (modEv (fun x => { x with pend := clearMask x.pend (m.toNat <<< (32 * w)) }) b)
    pend := clearMask b.ev.pend (clearMask (m.toNat <<< (32 * w)) (if b.ev.lastAt = fabric b.now then b.ev.lastSet else 0)) } } := by
  rw [evtPendClearStep, if_neg (by omega), Nat.mod_eq_of_lt m.isLt]; rfl

theorem testBit_pendCleared (p last w i : Nat) (m : W32) (c : Prop) [Decidable c] :
    (clearMask p (clearMask (m.toNat <<< (32 * w)) (if c then last else 0))).testBit i =
      (p.testBit i && !((decide (32 * w ≤ i) && m.toNat.testBit (i - 32 * w)) && !(decide c && last.testBit i))) := by
  simp only [testBit_clearMask, Nat.testBit_shiftLeft, ge_iff_le]
  by_cases h : c <;> simp [h]

theorem evtEnWriteStep_enable {w : Nat} (hw : w < 8) (v : W32) (b : Block) : evtEnWriteStep false w v b =
    { b with ev := { b.ev with en := clearMask b.ev.en ((2 ^ 32 - 1) <<< (32 * w)) ||| (v.toNat <<< (32 * w)) } } := by
  rw [evtEnWriteStep, if_neg Bool.false_ne_true, if_neg (by omega)]; rfl

theorem evtEnWriteStep_noWord {w : Nat} (hw : 8 ≤ w) (v : W32) (b : Block) : evtEnWriteStep false w v b = b := by
  rw [evtEnWriteStep, if_neg Bool.false_ne_true, if_pos hw]

/-- A 32-bit word written over the word of a wide register. -/
theorem testBit_wordWritten (e w i : Nat) (v : W32) :
    (clearMask e ((2 ^ 32 - 1) <<< (32 * w)) ||| (v.toNat <<< (32 * w))).testBit i =
      if 32 * w ≤ i ∧ i < 32 * w + 32 then v.toNat.testBit (i - 32 * w) else e.testBit i := by
  simp only [Nat.testBit_or, testBit_clearMask, Nat.testBit_shiftLeft, Nat.testBit_two_pow_sub_one, ge_iff_le]
  by_cases h1 : 32 * w ≤ i
  · by_cases h2 : i < 32 * w + 32
    · have : i - 32 * w < 32 := by omega
      simp [h1, h2, this]
    · have hb : v.toNat.testBit (i - 32 * w) = false :=
        Nat.testBit_lt_two_pow (Nat.lt_of_lt_of_le v.isLt (Nat.pow_le_pow_right (by decide) (by omega)))
      have : ¬ i - 32 * w < 32 := by omega
      simp [h1, h2, this, hb]
  · simp [h1]

/-- The sources whose vectors word w of EVT_VEC holds. -/
theorem tget_vectorsWritten (t : Tab Nat) (w v i : Nat) :
    tget 0 ((upto 4).foldl (fun t b => tset 0 t (4 * w + b) (bits v (8 * b) 6)) t) i =
      if i / 4 = w then bits v (8 * (i % 4)) 6 else tget 0 t i := by
  show tget 0 (tset 0 (tset 0 (tset 0 (tset 0 t (4 * w + 0) (bits v (8 * 0) 6)) (4 * w + 1) (bits v (8 * 1) 6))
    (4 * w + 2) (bits v (8 * 2) 6)) (4 * w + 3) (bits v (8 * 3) 6)) i = _
  have key : ∀ (t : Tab Nat) (j x : Nat), tget 0 (tset 0 t j x) i = if i = j then x else tget 0 t i := fun t j x => by
    by_cases h : i = j
    · rw [if_pos h, h, tget_tset_same]
    · rw [if_neg h, tget_tset_ne _ _ _ h]
  simp only [key]
  by_cases h : i / 4 = w
  · have hi : i = 4 * w + i % 4 := by omega
    rw [if_pos h]
    have h4 : i % 4 = 0 ∨ i % 4 = 1 ∨ i % 4 = 2 ∨ i % 4 = 3 := by omega
    rcases h4 with h4 | h4 | h4 | h4 <;> rw [h4] at hi ⊢ <;> simp [hi]
  · rw [if_neg h, if_neg (by omega), if_neg (by omega), if_neg (by omega), if_neg (by omega)]

theorem evtEnWriteStep_vectors {w : Nat} (hw : w < 64) (v : W32) (b : Block) : evtEnWriteStep true w v b =
    { b with ev := { b.ev with vec := (upto 4).foldl (fun t k => tset 0 t (4 * w + k) (bits v.toNat (8 * k) 6)) b.ev.vec } } := by
  rw [evtEnWriteStep, if_pos rfl, if_neg (by omega)]; rfl

theorem vectorUnmaskStep_vector {v : Nat} (hv : v < 64) (b : Block) :
    vectorUnmaskStep v b = { b with ev := { b.ev with mask := setBit b.ev.mask v false } } := by
  rw [vectorUnmaskStep, if_pos hv]; rfl

/-- Settles O14: the bits of each register after its write, read from the lemmas above. -/
theorem eventRegisterWrites : Obligations.event_register_writes := by
  intro s hl
  have hp : ∀ w m, w < 8 → (Instr.evtPendClear w m).wf = true := fun _ _ h => decide_eq_true h
  have hu : ∀ v, v < 64 → (Instr.vectorUnmask v).wf = true := fun _ h => decide_eq_true h
  have he : ∀ vec w v, w < 64 → (Instr.evtEnWrite vec w v).wf = true := fun _ _ _ h => decide_eq_true h
  refine ⟨fun w m hw => ⟨_, act_ended hl (hp w m hw) (evtPendClearStep_word hw m _), fun i => testBit_pendCleared _ _ _ _ _ _, rfl, rfl, rfl, rfl⟩,
    fun w v hw => ⟨_, act_ended hl (he false w v (by omega)) (evtEnWriteStep_enable hw v _), fun i => testBit_wordWritten _ _ _ _, rfl, rfl, rfl, rfl⟩,
    fun w v h8 hw => act_ended hl (he false w v hw) (evtEnWriteStep_noWord h8 v _),
    fun w v hw => ⟨_, act_ended hl (he true w v hw) (evtEnWriteStep_vectors hw v _), fun i => tget_vectorsWritten _ _ _ _, rfl, rfl, rfl, rfl⟩,
    fun v hv => ⟨_, act_ended hl (hu v hv) (vectorUnmaskStep_vector hv _), rfl, testBit_setBit_same _ _ _⟩⟩

/-! ### Function resets (R625) -/

/-- A mailbox through a Function Level Reset. -/
def mbxReset (x : MbxSt) : MbxSt :=
  if x.mstate = 1 then { x with mstate := 0 } else if x.mstate = 2 then { x with discard := true } else x

/-- The block once the mailboxes are reset. -/
def mailboxesReset (b : Block) : Block := forEach (upto 8) (fun m => modMbx m mbxReset) b

theorem mailboxesReset_frame (b : Block) : { mailboxesReset b with host := { (mailboxesReset b).host with mbx := b.host.mbx } } = b :=
  kept_forEach (fun t : Block => { t with host := { t.host with mbx := b.host.mbx } }) (fun m => modMbx m mbxReset) (fun _ _ => rfl) _ _

theorem dmaTouchesHost_mailboxesReset (b : Block) : dmaTouchesHost (mailboxesReset b) = dmaTouchesHost b :=
  kept_forEach dmaTouchesHost _ (fun m t => dmaTouchesHost_modMbx m _ t) _ _

/-- The channels of a list are aborted; nothing but the channels changes. -/
theorem dmaAborts_frame (l : List Nat) (b : Block) :
    { forEach l (fun c s => (dmaAbort 8 c s).2) b with dam := { (forEach l (fun c s => (dmaAbort 8 c s).2) b).dam with dma := b.dam.dma } } = b :=
  (kept_forEach (fun t : Block => { t with dam := { t.dam with dma := b.dam.dma } }) _ (fun c t => by
    unfold dmaAbort; dsimp only; split <;> rfl) _ _).trans rfl

theorem dma_dmaAbort_ne {c k : Nat} (h : k ≠ c) (b : Block) : dma (dmaAbort 8 c b).2 k = dma b k := by
  unfold dmaAbort
  dsimp only
  split
  · exact dma_modDma_ne _ _ h
  · rfl

theorem dma_dmaAbort_same {c : Nat} {b : Block} (h : (dma b c).st = .running) :
    (dma (dmaAbort 8 c b).2 c).st = .idle ∧ (dma (dmaAbort 8 c b).2 c).outcome = 2 := by
  simp only [dmaAbort, h, if_true, dma_modDma_same, and_self]

theorem dma_dmaAborts_out {l : List Nat} {k : Nat} (h : k ∉ l) (b : Block) :
    dma (forEach l (fun c s => (dmaAbort 8 c s).2) b) k = dma b k := by
  induction l generalizing b with
  | nil => rfl
  | cons c t ih =>
    obtain ⟨h1, h2⟩ := not_or.1 (List.mem_cons.not.1 h)
    exact (ih h2 _).trans (dma_dmaAbort_ne h1 b)

theorem dma_dmaAborts_in {l : List Nat} (hl : l.Nodup) {k : Nat} (h : k ∈ l) {b : Block} (hr : (dma b k).st = .running) :
    (dma (forEach l (fun c s => (dmaAbort 8 c s).2) b) k).st = .idle ∧
      (dma (forEach l (fun c s => (dmaAbort 8 c s).2) b) k).outcome = 2 := by
  induction l generalizing b with
  | nil => exact absurd h List.not_mem_nil
  | cons c t ih =>
    obtain ⟨hc, ht⟩ := List.nodup_cons.1 hl
    show (dma (forEach t _ (dmaAbort 8 c b).2) k).st = .idle ∧ (dma (forEach t _ (dmaAbort 8 c b).2) k).outcome = 2
    by_cases hk : k = c
    · subst hk
      rw [dma_dmaAborts_out hc]
      exact dma_dmaAbort_same hr
    · exact ih ht ((List.mem_cons.1 h).resolve_left hk) ((congrArg DmaSt.st (dma_dmaAbort_ne hk b)).trans hr)

theorem running_of_dmaTouchesHost {b : Block} {k : Nat} (h : dmaTouchesHost b k = true) : (dma b k).st = .running := by
  unfold dmaTouchesHost at h
  simp only [Bool.and_eq_true, decide_eq_true_eq] at h
  exact h.1.1

/-- The channels that touch host memory. -/
def hostChannels (b : Block) : List Nat := (upto 32).filter (dmaTouchesHost b)

/-- The block once the mailboxes are reset and the channels that touch host memory aborted. -/
def channelsReset (b : Block) : Block := forEach (hostChannels b) (fun c s => (dmaAbort 8 c s).2) (mailboxesReset b)

theorem functionReset_eq (b : Block) : functionReset b = { channelsReset b with
    ev := { (channelsReset b).ev with pend := 0, en := 0, vec := [], mask := 2 ^ 64 - 1, pba := 0, active := 0, tab := [] },
    host := { (channelsReset b).host with session := false, busMaster := false } } := by
  have e : functionReset b = (fun t : Block => { t with
      ev := { t.ev with pend := 0, en := 0, vec := [], mask := 2 ^ 64 - 1, pba := 0, active := 0, tab := [] },
      host := { t.host with session := false, busMaster := false } })
    (forEach ((upto 32).filter (dmaTouchesHost (mailboxesReset b))) (fun c s => (dmaAbort 8 c s).2) (mailboxesReset b)) := rfl
  rw [e, dmaTouchesHost_mailboxesReset]; rfl

/-- What a Function Level Reset leaves outside the host interface, and what it does to mailboxes and channels. -/
theorem channelsReset_spec (b : Block) :
    (∀ m, m < 8 → mbx (channelsReset b) m = mbxReset (mbx b m)) ∧
    (∀ k, k < 32 → dmaTouchesHost b k = true → (dma (channelsReset b) k).st = .idle ∧ (dma (channelsReset b) k).outcome = 2) ∧
    (∀ k, dmaTouchesHost b k = false → dma (channelsReset b) k = dma b k) ∧
    ∀ x y, { channelsReset b with dam := { (channelsReset b).dam with dma := x }, host := y } = { b with dam := { b.dam with dma := x }, host := y } := by
  have hf := dmaAborts_frame (hostChannels b) (mailboxesReset b)
  have hm := mailboxesReset_frame b
  have hd : ∀ k, dma (mailboxesReset b) k = dma b k := fun k => kept_forEach (fun t : Block => dma t k) (fun m => modMbx m mbxReset) (fun _ _ => rfl) _ _
  have hmem : ∀ k, k ∈ hostChannels b ↔ k < 32 ∧ dmaTouchesHost b k = true := fun k => by simp [hostChannels]
  refine ⟨fun m hm' => ?_, fun k hk ht => ?_, fun k ht => ?_, fun x y => ?_⟩
  · have h1 : mbx (channelsReset b) m = mbx (mailboxesReset b) m := by
      have := congrArg (fun t : Block => mbx t m) hf
      exact this
    rw [h1, mailboxesReset, mbx_forEach, if_pos hm']
  · exact dma_dmaAborts_in ((nodup_upto 32).filter _) ((hmem k).2 ⟨hk, ht⟩) ((congrArg DmaSt.st (hd k)).trans (running_of_dmaTouchesHost ht))
  · refine (dma_dmaAborts_out (fun h => ?_) _).trans (hd k)
    rw [((hmem k).1 h).2] at ht; cases ht
  · have h1 := congrArg (fun t : Block => { t with dam := { t.dam with dma := x }, host := y }) hf
    have h2 := congrArg (fun t : Block => { t with dam := { t.dam with dma := x }, host := y }) hm
    exact h1.trans h2

/-- The link trains again, in D0 (log entry 27). -/
def linkTrained (b : Block) : Block := { b with host := { b.host with pcieUp := true, d3hot := false } }

/-- The parts of a block that R625 names, after a reset of the function, also with its link trained again. -/
theorem functionReset_parts (b : Block) : ∀ d, d = functionReset b ∨ d = linkTrained (functionReset b) →
    (∀ m, m < 8 → mbx d m = (if (mbx b m).mstate = 1 then { mbx b m with mstate := 0 }
      else if (mbx b m).mstate = 2 then { mbx b m with discard := true } else mbx b m)) ∧
    d.ev.pend = 0 ∧ d.ev.en = 0 ∧ d.ev.vec = [] ∧ d.ev.mask = 2 ^ 64 - 1 ∧ d.ev.pba = 0 ∧ d.ev.tab = [] ∧
    d.host.session = false ∧ d.host.busMaster = false ∧
    (∀ k, k < 32 → dmaTouchesHost b k = true → (dma d k).st = .idle ∧ (dma d k).outcome = 2) ∧
    (∀ k, dmaTouchesHost b k = false → dma d k = dma b k) ∧
    d.cyc = b.cyc ∧ d.par = b.par ∧ d.model = b.model ∧ d.cells = b.cells ∧ d.ports = b.ports ∧ d.arms = b.arms ∧
    d.trip = b.trip ∧ d.seq = b.seq ∧ d.dam.tasks = b.dam.tasks ∧ d.mem = b.mem ∧ d.spb = b.spb ∧ d.time = b.time := by
  intro d hd
  obtain ⟨h1, h2, h3, h4⟩ := channelsReset_spec b
  have k : ∀ {α : Type} (p : Block → α), p { channelsReset b with dam := { (channelsReset b).dam with dma := [] }, host := {} } =
    p { b with dam := { b.dam with dma := [] }, host := {} } := fun p => congrArg p (h4 _ _)
  rw [functionReset_eq] at hd
  rcases hd with rfl | rfl <;>
  exact ⟨h1, rfl, rfl, rfl, rfl, rfl, rfl, rfl, rfl, h2, h3, k Block.cyc, k Block.par, k Block.model, k Block.cells, k Block.ports,
    k Block.arms, k Block.trip, k Block.seq, k (·.dam.tasks), k Block.mem, k Block.spb, k Block.time⟩

/-- Settles O12: the two other resets are a Function Level Reset and then the link's state. -/
theorem functionResetsClearTheHostInterface : Obligations.function_resets_clear_the_host_interface := by
  intro s hl c hc
  obtain ⟨h1, h2, h3, h4, h5, h6, h7, h8, h9, h10⟩ := functionReset_parts s.toBlock _ (.inl rfl)
  obtain ⟨k1, k2, k3, k4, k5, k6, k7, k8, k9, k10⟩ := functionReset_parts s.toBlock _ (.inr rfl)
  have hup : (linkTrained (functionReset s.toBlock)).host.pcieUp = true ∧ (linkTrained (functionReset s.toBlock)).host.d3hot = false := ⟨rfl, rfl⟩
  have e1 : exec .functionLevelReset s = .next (ended s (functionReset s.toBlock)) := act_ended hl rfl rfl
  have e2 : exec .hotReset s = .next (ended s (linkTrained (functionReset s.toBlock))) := act_ended hl rfl rfl
  have e3 : exec .fundamentalReset s = .next (ended s (linkTrained (functionReset s.toBlock))) := act_ended hl rfl rfl
  simp only [List.mem_cons, List.not_mem_nil, or_false] at hc
  rcases hc with rfl | rfl | rfl
  · exact ⟨_, e1, h1, h2, h3, h4, h5, h6, h7, h8, h9, fun h => absurd rfl h, h10⟩
  · exact ⟨_, e2, k1, k2, k3, k4, k5, k6, k7, k8, k9, fun _ => hup, k10⟩
  · exact ⟨_, e3, k1, k2, k3, k4, k5, k6, k7, k8, k9, fun _ => hup, k10⟩

/-! ### A mailbox completes (R634, R636, R639) -/

/-- The response that a completing mailbox holds. -/
def mbxAnswer (stopped : Bool) (st d it : Nat) (pl : List W8) (x : MbxSt) : MbxResp :=
  if stopped then { opcode := x.req.opcode, tag := x.req.tag, status := 2, cls := x.cls }
  else { opcode := x.req.opcode, tag := x.req.tag, status := st, cls := x.cls, detail := d, item := it, payload := pl }

/-- A mailbox that completes at an instant. -/
def mbxCompleted (now st d it : Nat) (pl : List W8) (x : MbxSt) : MbxSt :=
  { x with
    mstate := 3, doneAt := now, progress := if x.cls = 2 then 1000 else 0, abortAt := none,
    abortResult := if x.abortAt.isNone then x.abortResult else if abortDue x.abortAt now then 1 else 2,
    resp := mbxAnswer (abortDue x.abortAt now) st d it pl x }

section
variable {b : Block} {m : Nat} (st d it : Nat) (pl : List W8)

theorem mbxDone_idle (h : (mbx b m).mstate = 0 ∨ (mbx b m).mstate = 3) : mbxDone m st d it pl b = b := by
  rw [mbxDone, if_neg (by omega)]

theorem mbxDone_discards (h : (mbx b m).mstate = 1 ∨ (mbx b m).mstate = 2) (hd : (mbx b m).discard = true) :
    mbxDone m st d it pl b = modMbx m (fun x => { x with mstate := 0, discard := false, abortAt := none }) b := by
  rw [mbxDone, if_pos h]; exact if_pos hd

theorem mbxDone_completes (h : (mbx b m).mstate = 1 ∨ (mbx b m).mstate = 2) (hd : (mbx b m).discard = false) :
    mbxDone m st d it pl b = raiseIf ((mbx b m).req.flags % 2 = 1) evMbxDone (raiseIf ((mbx b m).cls = 2) evMbxProgress
      (modMbx m (fun _ => mbxCompleted b.now st d it pl (mbx b m)) b)) := by
  rw [mbxDone, if_pos h]
  exact if_neg (ne_true_of_eq_false hd)

theorem mbx_raiseIf (c : Bool) (e : Nat) (b : Block) (k : Nat) : mbx (raiseIf c e b) k = mbx b k :=
  raiseIf_keeps (fun t : Block => mbx t k) (fun _ _ => rfl) c e b

theorem mbx_mbxDone_same (h : (mbx b m).mstate = 1 ∨ (mbx b m).mstate = 2) (hd : (mbx b m).discard = false) :
    mbx (mbxDone m st d it pl b) m = mbxCompleted b.now st d it pl (mbx b m) := by
  rw [mbxDone_completes st d it pl h hd, mbx_raiseIf, mbx_raiseIf, mbx_modMbx_same]

theorem mbx_mbxDone_ne {k : Nat} (hk : k ≠ m) : mbx (mbxDone m st d it pl b) k = mbx b k := by
  by_cases h : (mbx b m).mstate = 1 ∨ (mbx b m).mstate = 2
  · cases hd : (mbx b m).discard with
    | true => rw [mbxDone_discards st d it pl h hd, mbx_modMbx_ne _ _ hk]
    | false => rw [mbxDone_completes st d it pl h hd, mbx_raiseIf, mbx_raiseIf, mbx_modMbx_ne _ _ hk]
  · rw [mbxDone, if_neg h]

/-- A completing mailbox changes mailboxes and events only. -/
theorem mbxDone_frame : (∀ x y, { mbxDone m st d it pl b with host := x, ev := y } = { b with host := x, ev := y }) ∧
    ∀ x, { (mbxDone m st d it pl b).host with mbx := x } = { b.host with mbx := x } := by
  have hr : ∀ c e t, (∀ x y, { raiseIf c e t with host := x, ev := y } = { t with host := x, ev := y }) ∧ (raiseIf c e t).host = t.host :=
    fun c e t => by unfold raiseIf; split <;> exact ⟨fun _ _ => rfl, rfl⟩
  by_cases h : (mbx b m).mstate = 1 ∨ (mbx b m).mstate = 2
  · cases hd : (mbx b m).discard with
    | true => rw [mbxDone_discards st d it pl h hd]; exact ⟨fun _ _ => rfl, fun _ => rfl⟩
    | false =>
      rw [mbxDone_completes st d it pl h hd]
      exact ⟨fun x y => ((hr _ _ _).1 x y).trans ((hr _ _ _).1 x y), fun x => by rw [(hr _ _ _).2, (hr _ _ _).2]; rfl⟩
  · rw [mbxDone, if_neg h]; exact ⟨fun _ _ => rfl, fun _ => rfl⟩

end

theorem abortResult_mbxCompleted (now st d it : Nat) (pl : List W8) (x : MbxSt) : (mbxCompleted now st d it pl x).abortResult =
    if x.abortAt = none then x.abortResult else if abortDue x.abortAt now = true then 1 else 2 := by
  simp [mbxCompleted]

/-- Settles O22: the completed mailbox is `mbxCompleted`; a discarded response and a mailbox not running are the other cases. -/
theorem aMailboxCompletesWithItsResponse : Obligations.a_mailbox_completes_with_its_response := by
  intro b m st d it pl
  refine ⟨fun h hd => ?_, fun h hd => ?_, fun h => mbxDone_idle st d it pl h⟩
  · rw [mbx_mbxDone_same st d it pl h hd]
    refine ⟨rfl, rfl, fun ha => ?_, fun ha => ?_, abortResult_mbxCompleted _ _ _ _ _ _, ?_, fun k hk => mbx_mbxDone_ne st d it pl hk,
      ((mbxDone_frame st d it pl).1 _ _)⟩
    · simp [mbxCompleted, mbxAnswer, ha]
    · simp [mbxCompleted, mbxAnswer, ha]
    · rw [mbxDone_completes st d it pl h hd, raised_raiseIf, raised_raiseIf]
      simp only [decide_eq_true_eq]
      rfl
  · refine ⟨?_, fun k hk => mbx_mbxDone_ne st d it pl hk, ?_⟩
    · rw [mbxDone_discards st d it pl h hd, mbx_modMbx_same]
    · rw [mbxDone_discards st d it pl h hd]; rfl

/-! ### Doorbells (R635, R639) -/

section
variable {b : Block} {m : Nat} (hm : m < 8)
include hm

theorem mbxRingStep_accepts (h : (mbx b m).mstate = 0 ∨ (mbx b m).mstate = 3) : mbxRingStep m b = modMbx m (fun y => { y with
    mstate := 1, req := requestOf (areaBytes (mbx b m) 0 0x800), cls := opClass (requestOf (areaBytes (mbx b m) 0 0x800)).opcode,
    resp := {}, abortResult := 0, abortAt := none, progress := 0, accAt := b.now }) b := by
  rw [mbxRingStep, if_neg (by omega)]; exact if_pos h

theorem mbxRingStep_ignored (h : (mbx b m).mstate = 1 ∨ (mbx b m).mstate = 2) :
    mbxRingStep m b = modMbx m (fun y => { y with ringIgn := min (y.ringIgn + 1) (2 ^ 16 - 1) }) b := by
  rw [mbxRingStep, if_neg (by omega)]; exact if_neg (by omega)

theorem mbxAbortStep_accepted (h : (mbx b m).mstate = 1) :
    mbxAbortStep m b = modMbx m (fun x => { x with abortResult := 1 }) (mbxDone m 2 0 0 [] b) := by
  simp [mbxAbortStep, Nat.not_le.2 hm, h]

theorem mbxAbortStep_fast (h : (mbx b m).mstate = 2) (hc : (mbx b m).cls = 0) :
    mbxAbortStep m b = modMbx m (fun y => { y with abortResult := 3 }) b := by
  simp [mbxAbortStep, Nat.not_le.2 hm, h, hc]

theorem mbxAbortStep_storing (h : (mbx b m).mstate = 2) (hc : (mbx b m).cls ≠ 0) (hs : b.host.storing.isSome = true)
    (hw : b.host.waitMbx = m) : mbxAbortStep m b = modMbx m (fun y => { y with abortResult := 2 }) b := by
  simp [mbxAbortStep, Nat.not_le.2 hm, h, hc, hs, hw]

theorem mbxAbortStep_held (h : (mbx b m).mstate = 2) (hc : (mbx b m).cls ≠ 0) (ha : (mbx b m).abortAt = none)
    (hs : b.host.storing = none ∨ b.host.waitMbx ≠ m) :
    mbxAbortStep m b = modMbx m (fun y => { y with abortAt := some b.now }) b := by
  have hn : ¬ (b.host.storing.isSome = true ∧ b.host.waitMbx = m) := by
    rintro ⟨h1, h2⟩
    rcases hs with hs | hs
    · rw [hs] at h1; cases h1
    · exact hs h2
  simp [mbxAbortStep, Nat.not_le.2 hm, h, hc, ha, hn]

theorem mbxAbortStep_late (h : (mbx b m).mstate = 0 ∨ (mbx b m).mstate = 3) :
    mbxAbortStep m b = modMbx m (fun y => { y with abortResult := 2 }) b := by
  rcases h with h | h <;> simp [mbxAbortStep, Nat.not_le.2 hm, h]

theorem mbxReleaseStep_done (h : (mbx b m).mstate = 3) : mbxReleaseStep m b = modMbx m (fun y => { y with mstate := 0 }) b := by
  simp [mbxReleaseStep, hm, h]

omit hm in
theorem mbxReleaseStep_other (h : (mbx b m).mstate ≠ 3) : mbxReleaseStep m b = b := by
  simp [mbxReleaseStep, h]

end

/-- A command that stops at its abort point leaves the mailboxes and the time to its completion. -/
theorem mbx_abortRunning (m k : Nat) (b : Block) : mbx (abortRunning m b) k = mbx b k ∧ (abortRunning m b).now = b.now := by
  have hk : ∀ {α : Type} (p : Block → α), (∀ q f t, p (modPort q f t) = p t) → (∀ f t, p (modTw f t) = p t) →
      (p { b with host := { b.host with committing := false, waiting := none } } = p b) → p (abortRunning m b) = p b := fun p h1 h2 h3 => by
    unfold abortRunning
    refine (kept_forEach p _ (fun _ _ => h1 _ _ _) _ _).trans ((h2 _ _).trans ?_)
    split
    · exact h3
    · rfl
  exact ⟨hk (fun t => mbx t k) (fun _ _ _ => rfl) (fun _ _ => rfl) rfl, hk Block.now (fun _ _ _ => rfl) (fun _ _ => rfl) rfl⟩

theorem abortSettle_due {b : Block} {m : Nat} (h : (mbx b m).mstate = 2) (ha : abortDue (mbx b m).abortAt b.now = true) :
    abortSettle m b = mbxDone m 2 0 0 [] (abortRunning m b) := by
  simp [abortSettle, h, ha]

/-- Settles O15: each doorbell by the state of its mailbox, then what the abort point and a completion make of a held ABORT. -/
theorem mailboxDoorbells : Obligations.mailbox_doorbells := by
  intro s m hl hm x
  have hring : (Instr.mbxRing m).wf = true := decide_eq_true hm
  have habort : (Instr.mbxAbort m).wf = true := decide_eq_true hm
  have hrel : (Instr.mbxRelease m).wf = true := decide_eq_true hm
  refine ⟨fun h => act_ended hl hring (mbxRingStep_accepts hm h), fun h => act_ended hl hring (mbxRingStep_ignored hm h), fun h hd => ?_,
    fun h hc => act_ended hl habort (mbxAbortStep_fast hm h hc), fun h hc hs hm' => act_ended hl habort (mbxAbortStep_storing hm h hc hs hm'),
    fun h hc ha hs => act_ended hl habort (mbxAbortStep_held hm h hc ha hs), fun b t h hd ha => ⟨fun ht => ?_, fun ht st d i l => ?_⟩,
    fun h => act_ended hl habort (mbxAbortStep_late hm h), fun h => act_ended hl hrel (mbxReleaseStep_done hm h),
    fun h => act_ended hl hrel (mbxReleaseStep_other h)⟩
  · have e := mbx_mbxDone_same (b := s.toBlock) 2 0 0 [] (.inl h) hd
    have hf := (mbxDone_frame (b := s.toBlock) (m := m) 2 0 0 []).1 s.host s.ev
    have k : ∀ {α : Type} (p : Block → α), p { mbxDone m 2 0 0 [] s.toBlock with host := s.host, ev := s.ev } = p s.toBlock :=
      fun p => congrArg p hf
    refine ⟨_, act_ended hl habort (mbxAbortStep_accepted hm h), ?_, ?_, ?_, ?_, ?_, fun j hj => ?_, k Block.seq, k Block.par, k Block.mem, k Block.dam⟩
    · rw [mbx_modMbx_same, e]; rfl
    · rw [mbx_modMbx_same]
    · rw [mbx_modMbx_same, e]; simp only [mbxCompleted, mbxAnswer]; split <;> rfl
    · rw [mbx_modMbx_same, e]; simp only [mbxCompleted, mbxAnswer]; split <;> rfl
    · rw [mbx_modMbx_same, e]; simp only [mbxCompleted, mbxAnswer]; split <;> rfl
    · rw [mbx_modMbx_ne _ _ hj, mbx_mbxDone_ne _ _ _ _ hj]
  · have hdue : abortDue (mbx b m).abortAt b.now = true := by simp [abortDue, ha, ht]
    obtain ⟨h1, h2⟩ := mbx_abortRunning m m b
    rw [abortSettle_due h hdue, mbx_mbxDone_same _ _ _ _ (.inr (h1 ▸ h)) (h1 ▸ hd), h1, h2]
    refine ⟨rfl, ?_, ?_⟩
    · rw [abortResult_mbxCompleted, ha, if_neg (by simp), ← ha, if_pos hdue]
    · simp [mbxCompleted, mbxAnswer, hdue]
  · have hdue : abortDue (mbx b m).abortAt b.now = false := by simp [abortDue, ha, ht]
    rw [mbx_mbxDone_same _ _ _ _ (.inr h) hd]
    refine ⟨rfl, ?_, ?_⟩
    · rw [abortResult_mbxCompleted, ha, if_neg (by simp), ← ha, if_neg (by simp [hdue])]
    · simp [mbxCompleted, mbxAnswer, hdue]

/-! ### The start of a command (R635, R637, R738) -/

/-- Neither the firmware nor the ROM of a failed boot serves. -/
theorem serves_eq_false {b : Block} (h1 : b.rst.phase ≠ .up ∨ b.host.fwReady = false ∨ b.host.mpRestarting = true)
    (h2 : b.rst.phase ≠ .failed) : serves b = false := by
  have hf : fwServes b = false := by rcases h1 with h | h | h <;> simp [fwServes, h]
  simp [serves, hf, romServes, h2]

section
variable {code m : Nat} {f : Nat → MbxReq → Block → OpRes × Block} {b : Block}

theorem runOp_waits (h : (mbx b m).mstate ≠ 1 ∨ (mbx b m).req.opcode ≠ code ∨ serves b = false ∨ mbxTurn b m = false) :
    runOp code f m b = b := by
  rcases h with h | h | h | h <;> simp [runOp, h]

theorem runOp_unknownToRom (hm : m < 8) (h1 : (mbx b m).mstate = 1) (h2 : (mbx b m).req.opcode = code) (hp : b.rst.phase = .failed)
    (h : m ≠ 0 ∨ code ∉ romOps) : runOp code f m b = mbxDone m 4 0 0 [] b := by
  have hr : romServes b = true := by simp [romServes, hp]
  have ho : (decide (m ≠ 0) || !romOps.contains code) = true := by
    rcases h with h | h <;> simp [h]
  simp only [runOp, hm, h1, h2, serves, hr, mbxTurn, ho, decide_true, Bool.or_true, Bool.true_or, Bool.and_self, if_true]

end

/-- Settles O23: every command of the list acts by `runOp` with its opcode. -/
theorem onlyAnAcceptedRequestOfItsOpcodeRuns : Obligations.only_an_accepted_request_of_its_opcode_runs := by
  intro s m hl hm c hc
  have key : c.2.wf = true ∧ ∃ f, ∀ s, exec c.2 s = act c.2 (runOp c.1 f m) s := by
    have hw : decide (m < 8) = true := decide_eq_true hm
    simp only [List.mem_cons, List.not_mem_nil, or_false] at hc
    rcases hc with rfl | rfl | rfl | rfl | rfl | rfl | rfl | rfl | rfl | rfl | rfl | rfl | rfl | rfl | rfl | rfl | rfl | rfl | rfl | rfl |
      rfl | rfl | rfl | rfl | rfl | rfl | rfl | rfl | rfl | rfl <;> exact ⟨hw, _, fun _ => rfl⟩
  obtain ⟨hw, f, hf⟩ := key
  refine ⟨fun h => ?_, fun h1 h2 hp h => ?_⟩
  · rw [hf]
    refine act_ended hl hw (runOp_waits ?_)
    rcases h with h | h | h | h
    · exact .inl h
    · exact .inr (.inl h)
    · exact .inr (.inr (.inl (serves_eq_false h.1 h.2)))
    · exact .inr (.inr (.inr h))
  · rw [hf]
    exact act_ended hl hw (runOp_unknownToRom hm h1 h2 hp h)

end Sys2Proof.Machine
end

section
/-!
PROOFS. The mailbox commands that read (Table 17-8, R641 to R647).
-/

namespace Sys2Proof.Machine

/-! ### What the reading operations answer -/

section
variable {s : State} {m : Nat} {b : Block}

theorem opNop_answers (hl : s.carries m 0) : opNop m (s.request m) b = ({}, b) := needLen_carried hl b _

theorem opIdentify_answers (hl : s.carries m 0) : opIdentify m (s.request m) b =
    ({ payload := (upto 5).flatMap fun k => leBytes 4 (identWord b k).toNat }, b) := needLen_carried hl b _

/-- PARAM_READ of indices that are all defined (R646). -/
theorem opParamRead_answers (h1 : 1 ≤ (s.request m).arg0) (h2 : (s.request m).arg0 ≤ 64) (hl : s.carries m (pad4 (2 * (s.request m).arg0)))
    (hd : ∀ k, k < (s.request m).arg0 → (paramRow (leAt (s.request m).payload (2 * k) 2)).isSome = true) :
    opParamRead m (s.request m) b = ({ payload := itemsUpTo 2032 ((upto (s.request m).arg0).map fun k =>
      itemBytes (leAt (s.request m).payload (2 * k) 2) (valueBytes b (leAt (s.request m).payload (2 * k) 2))) }, b) := by
  have hnone : (upto (s.request m).arg0).find? (fun k =>
      (paramRow ((((upto (s.request m).arg0).map fun k => leAt (s.request m).payload (2 * k) 2)[k]?).getD 0)).isNone) = none := by
    refine List.find?_eq_none.2 fun k hk => ?_
    have hlt := (mem_upto _ _).1 hk
    have hget : (((upto (s.request m).arg0).map fun k => leAt (s.request m).payload (2 * k) 2)[k]?).getD 0 =
        leAt (s.request m).payload (2 * k) 2 := by simp [upto, hlt]
    rw [hget]
    have := hd k hlt
    simp [Option.isNone_iff_eq_none, Option.isSome_iff_ne_none.1 this]
  rw [opParamRead, paramReadUpTo, if_neg (by omega), needLen_carried hl]
  simp only [hnone, List.map_map]
  rfl

theorem opParamInfo_defined (hl : s.carries m 0) {w : PRow} {i j : Nat} (hr : paramRow (s.request m).arg0 = some (w, i, j)) :
    opParamInfo m (s.request m) b = ({
      payload := textBytes 64 (paramName w i j) ++ leBytes 4 (infoWord (s.request m).arg0 0).toNat ++
        leBytes 4 (infoMin w (s.request m).arg0).toNat ++ leBytes 4 (infoMax w (s.request m).arg0).toNat ++
        leBytes 4 (paramDefault (s.request m).arg0).toNat ++ textBytes 16 w.unit ++ leBytes 4 (infoWord (s.request m).arg0 3).toNat }, b) := by
  rw [opParamInfo, needLen_carried hl, hr]
  simp only [payOk, List.flatMap_cons, List.flatMap_nil, List.append_nil, List.append_assoc]

theorem opParamInfo_undefined (hl : s.carries m 0) (hr : paramRow (s.request m).arg0 = none) :
    opParamInfo m (s.request m) b = ({ status := 7, item := (s.request m).arg0 }, b) := by
  rw [opParamInfo, needLen_carried hl, hr]

/-- The name that a payload holds up to its NUL (R647). -/
def payloadName (l : List W8) : String := String.ofList ((l.takeWhile (· ≠ 0#8)).map fun b => Char.ofNat b.toNat)

theorem opParamFind_named (h1 : 4 ≤ (s.request m).len) (h2 : (s.request m).len ≤ 64) (h3 : (s.request m).len % 4 = 0)
    (hp : (s.request m).payload.length = (s.request m).len) (h0 : 0#8 ∈ (s.request m).payload) :
    opParamFind m (s.request m) b = match paramFind (payloadName (s.request m).payload) with
      | some i => ({ item := i }, b)
      | none => opErr 7 b := by
  have hn : ¬ ((s.request m).len = 0 ∨ 64 < (s.request m).len ∨ (s.request m).payload.length ≠ (s.request m).len ∨
      (s.request m).len % 4 ≠ 0 ∨ (!(s.request m).payload.contains 0#8) = true) := by
    have hc : (s.request m).payload.contains 0#8 = true := List.contains_iff_mem.2 h0
    rw [hc]
    simp only [Bool.not_true, Bool.false_eq_true, or_false]
    omega
  rw [opParamFind, if_neg hn]
  rfl

theorem opCfgInfo_answers (hl : s.carries m 0) : opNoPay (fun _ => opCfgInfo) m (s.request m) b =
    ({ payload := setInfo b.host.cfgSeq b.host.setInForce ++ setInfo (slotOf b 0).seq (slotOf b 0).set ++
      setInfo (slotOf b 1).seq (slotOf b 1).set }, b) := needLen_carried hl b _

/-- The cells that a request names, up to a limit of their number. -/
theorem cellRange_in {r : MbxReq} {n : Nat} (h1 : 1 ≤ r.arg1) (h2 : r.arg1 ≤ n) (h3 : r.arg0 + r.arg1 ≤ 6144) :
    cellRange r n = some ((upto r.arg1).map fun k => r.arg0 + k) := by
  exact if_pos ⟨h1, h2, h3⟩

theorem cellRange_out {r : MbxReq} {n : Nat} (h : r.arg1 = 0 ∨ n < r.arg1 ∨ 6144 < r.arg0 + r.arg1) : cellRange r n = none := by
  exact if_neg (by omega)

/-- What CELL_STATUS shows of a cell. -/
def cellStatusBytes (c : CellSt) : List W8 :=
  leBytes 1 (cellStateCode c) ++ leBytes 1 c.cause ++ leBytes 2 (c.vcap.getD 0) ++ leBytes 2 c.flags ++ leBytes 2 c.repErr

theorem opCellStatus_answers (hl : s.carries m 0) (h1 : 1 ≤ (s.request m).arg1) (h2 : (s.request m).arg1 ≤ 254)
    (h3 : (s.request m).arg0 + (s.request m).arg1 ≤ 6144) : opCellStatus m (s.request m) b =
      ({ payload := (upto (s.request m).arg1).flatMap fun k => cellStatusBytes (cell b ((s.request m).arg0 + k)) }, b) := by
  rw [opCellStatus, needLen_carried hl, cellRange_in h1 h2 h3]
  simp only [payOk, List.flatMap_map]
  rfl

theorem opCellStatus_outOfRange (hl : s.carries m 0)
    (h : (s.request m).arg1 = 0 ∨ 254 < (s.request m).arg1 ∨ 6144 < (s.request m).arg0 + (s.request m).arg1) :
    opCellStatus m (s.request m) b = opErr 6 b := by
  rw [opCellStatus, needLen_carried hl, cellRange_out h]

theorem opCellRecordRead_answers (hl : s.carries m 0) (h1 : 1 ≤ (s.request m).arg1) (h2 : (s.request m).arg1 ≤ 84)
    (h3 : (s.request m).arg0 + (s.request m).arg1 ≤ 6144) : opCellRecordRead m (s.request m) b =
      ({ payload := (upto (s.request m).arg1).flatMap fun k => recordBytes (cell b ((s.request m).arg0 + k)).tent }, b) := by
  rw [opCellRecordRead, needLen_carried hl, cellRange_in h1 h2 h3]
  simp only [payOk, List.flatMap_map]

theorem opCellRecordRead_outOfRange (hl : s.carries m 0)
    (h : (s.request m).arg1 = 0 ∨ 84 < (s.request m).arg1 ∨ 6144 < (s.request m).arg0 + (s.request m).arg1) :
    opCellRecordRead m (s.request m) b = opErr 6 b := by
  rw [opCellRecordRead, needLen_carried hl, cellRange_out h]

theorem opDmaStatus_answers (hl : s.carries m 0) {c : Nat} (hc : (s.request m).arg0 = c) (h : c < 32) : opDmaStatus m (s.request m) b =
    ({ payload := leBytes 1 (dmaCode (dma b c).st) ++ leBytes 1 (dma b c).outcome ++ leBytes 1 (dma b c).cause ++ leBytes 1 (dma b c).part ++
       leBytes 4 (dma b c).residual ++ leBytes 8 (dma b c).faultAddr ++ leBytes 8 (dma b c).descAddr ++ leBytes 4 (dma b c).startsRefused ++
       leBytes 4 0 }, b) := by
  rw [opDmaStatus, needLen_carried hl, hc, if_neg (Nat.not_le.2 h)]; rfl

theorem opDmaStatus_noChannel (hl : s.carries m 0) (h : 32 ≤ (s.request m).arg0) :
    opDmaStatus m (s.request m) b = ({ status := 6, item := (s.request m).arg0 }, b) := by
  rw [opDmaStatus, needLen_carried hl, if_pos h]

theorem opQueueStatus_answers (hl : s.carries m 0) {q : Nat} (hq : (s.request m).arg0 = q) (h : q < 64) : opQueueStatus m (s.request m) b =
    ({ payload := leBytes 4 ((queue b q).fill + 512 * (queue b q).fillMax) ++ leBytes 4 ((queue b q).stallCnt + 2 ^ 16 * (queue b q).lostCnt) },
      modQueue q (fun x => { x with fillMax := x.fill }) b) := by
  rw [opQueueStatus, needLen_carried hl, hq]
  exact if_neg (Nat.not_le.2 h)

theorem opQueueStatus_noQueue (hl : s.carries m 0) (h : 64 ≤ (s.request m).arg0) :
    opQueueStatus m (s.request m) b = ({ status := 6, item := (s.request m).arg0 }, b) := by
  rw [opQueueStatus, needLen_carried hl]
  exact if_pos h

theorem opSpbLogRead_answers (hl : s.carries m 0) (h1 : 1 ≤ (s.request m).arg1) (h2 : (s.request m).arg1 ≤ 63) :
    opSpbLogRead m (s.request m) b = ({ payload := (b.spb.log.filter fun e => decide ((s.request m).arg0 ≤ leAt e 0 4 % 2 ^ 28 ∧
      leAt e 0 4 % 2 ^ 28 < (s.request m).arg0 + (s.request m).arg1)).flatten }, b) := by
  rw [opSpbLogRead, needLen_carried hl, if_neg (by omega)]; rfl

theorem opSpbLogRead_badCount (hl : s.carries m 0) (h : (s.request m).arg1 = 0 ∨ 63 < (s.request m).arg1) :
    opSpbLogRead m (s.request m) b = opErr 6 b := by
  rw [opSpbLogRead, needLen_carried hl, if_pos h]

theorem opLogRead_answers (hl : s.carries m 0) : opLogRead m (s.request m) b =
    ({ payload := fitPayload (Config.fwLog b.free (s.request m).arg0) }, { b with free := b.free + 1 }) := needLen_carried hl b _

theorem opSelfTest_answers (hl : s.carries m 0) : opSelfTest m (s.request m) b =
    ({ payload := fitPayload (Config.selfTest b.free) }, { b with free := b.free + 1 }) := needLen_carried hl b _

end

/-- A command that first looks at the length of its payload refuses another length (R641). -/
theorem mail_badLength {s : State} {m code n : Nat} {i : Instr} {f : Nat → MbxReq → Block → OpRes × Block} (hw : i.wf = true)
    (hi : exec i s = act i (runOp code f m) s) (hf : ∀ r b, ∃ k, f m r b = needLen n r b k) (h : s.asked m code) (hl : ¬ s.carries m n) :
    exec i s = completed s m 5 0 0 [] (s.runs m) := by
  obtain ⟨k, e⟩ := hf (s.request m) (s.runs m)
  rw [hi]
  exact mail_completes i hw h f (e.trans (needLen_refused hl _ k))

/-- Settles O24: the lengths by `mail_badLength`, then each command's answer on the block while its mailbox is RUNNING, which differs
from the block before in that mailbox alone. -/
theorem mailboxReadsAnswerWhatIsInForce : Obligations.mailbox_reads_answer_what_is_in_force := by
  intro s m
  have hw : ∀ {code}, s.asked m code → decide (m < 8) = true := fun h => decide_eq_true h.2.1
  refine ⟨fun c hc ha hl => ?_, fun ha hl => ?_, fun ha hl => ?_, fun ha h1 h2 hl hd => ?_, fun ha hl => ⟨fun w i j hr => ?_, fun hr => ?_⟩,
    fun ha h1 h2 h3 hp h0 => ?_, fun ha hl => ?_, fun ha hl => ⟨fun h1 h2 h3 => ?_, fun h => ?_⟩,
    fun ha hl => ⟨fun h1 h2 h3 => ?_, fun h => ?_⟩, fun ha hl => ⟨fun c hc h => ?_, fun h => ?_⟩,
    fun ha hl => ⟨fun q hq h => ?_, fun h => ?_⟩, fun ha hl => ⟨fun h1 h2 => ?_, fun h => ?_⟩, fun ha hl => ?_, fun ha hl => ?_⟩
  · have key : c.2.2.wf = true ∧ ∃ f, exec c.2.2 s = act c.2.2 (runOp c.1 f m) s ∧ ∀ r b, ∃ k, f m r b = needLen c.2.1 r b k := by
      have hm := hw ha
      simp only [List.mem_cons, List.not_mem_nil, or_false] at hc
      rcases hc with rfl | rfl | rfl | rfl | rfl | rfl | rfl | rfl | rfl | rfl | rfl | rfl | rfl | rfl | rfl | rfl | rfl | rfl | rfl | rfl |
        rfl | rfl | rfl | rfl | rfl | rfl <;> exact ⟨hm, _, rfl, fun _ _ => ⟨_, rfl⟩⟩
    obtain ⟨hwf, f, hi, hf⟩ := key
    exact mail_badLength hwf hi hf ha hl
  · exact mail_completes (.nop m) (hw ha) ha opNop (opNop_answers hl)
  · exact mail_completes (.identify m) (hw ha) ha opIdentify (opIdentify_answers hl)
  · exact mail_completes (.paramRead m) (hw ha) ha opParamRead (opParamRead_answers h1 h2 hl hd)
  · exact mail_completes (.paramInfo m) (hw ha) ha opParamInfo (opParamInfo_defined hl hr)
  · exact mail_completes (.paramInfo m) (hw ha) ha opParamInfo (opParamInfo_undefined hl hr)
  · have e := opParamFind_named (b := s.runs m) h1 h2 h3 hp h0
    unfold payloadName at e
    split
    · next i hi =>
      rw [hi] at e
      exact mail_completes (.paramFind m) (hw ha) ha opParamFind e
    · next hi =>
      rw [hi] at e
      exact mail_completes (.paramFind m) (hw ha) ha opParamFind e
  · exact mail_completes (.cfgInfo m) (hw ha) ha (opNoPay fun _ => opCfgInfo) (opCfgInfo_answers hl)
  · exact mail_completes (.cellStatus m) (hw ha) ha opCellStatus (opCellStatus_answers hl h1 h2 h3)
  · exact mail_completes (.cellStatus m) (hw ha) ha opCellStatus (opCellStatus_outOfRange hl h)
  · exact mail_completes (.cellRecordRead m) (hw ha) ha opCellRecordRead (opCellRecordRead_answers hl h1 h2 h3)
  · exact mail_completes (.cellRecordRead m) (hw ha) ha opCellRecordRead (opCellRecordRead_outOfRange hl h)
  · exact mail_completes (.dmaStatus m) (hw ha) ha opDmaStatus (opDmaStatus_answers hl hc h)
  · exact mail_completes (.dmaStatus m) (hw ha) ha opDmaStatus (opDmaStatus_noChannel hl h)
  · exact mail_completes (.queueStatus m) (hw ha) ha opQueueStatus (opQueueStatus_answers hl hq h)
  · exact mail_completes (.queueStatus m) (hw ha) ha opQueueStatus (opQueueStatus_noQueue hl h)
  · exact mail_completes (.spbLogRead m) (hw ha) ha opSpbLogRead (opSpbLogRead_answers hl h1 h2)
  · exact mail_completes (.spbLogRead m) (hw ha) ha opSpbLogRead (opSpbLogRead_badCount hl h)
  · exact mail_completes (.logRead m) (hw ha) ha opLogRead (opLogRead_answers hl)
  · exact mail_completes (.selfTest m) (hw ha) ha opSelfTest (opSelfTest_answers hl)

end Sys2Proof.Machine
end

section
/-!
PROOFS. The configuration session: staging, commit, its instant and its store (R651 to R658).
-/

namespace Sys2Proof.Machine

/-! ### Session and staging -/

section
variable {s : State} {m : Nat} {b : Block} (hl : s.carries m 0)
include hl

theorem opNoPay_carried (f : Nat → MbxReq → Block → OpRes × Block) : opNoPay f m (s.request m) b = f m (s.request m) b :=
  needLen_carried hl b _

theorem cfgOpen_opens (hc : b.host.committing = false)
    (hs : b.host.session = false ∨ b.host.sessionMbx = m ∨ (s.request m).arg0 % 2 = 1) : opNoPay opCfgOpen m (s.request m) b =
      ({}, { b with
        host := { b.host with session := true, sessionMbx := m }
        mem := b.mem.filter fun c => !(decide (0x1800000 ≤ c.1 ∧ c.1 < 0x1800000 + 0x800000)) }) := by
  have hn : ¬ (b.host.session = true ∧ b.host.sessionMbx ≠ m ∧ (!decide ((s.request m).arg0 % 2 = 1)) = true) := by
    rintro ⟨h1, h2, h3⟩
    rcases hs with hs | hs | hs
    · rw [hs] at h1; cases h1
    · exact h2 hs
    · simp [hs] at h3
  rw [opNoPay_carried hl, opCfgOpen, if_neg (by simp [hc])]
  exact if_neg hn

theorem cfgOpen_busy (h : b.host.committing = true ∨ (b.host.session = true ∧ b.host.sessionMbx ≠ m ∧ (s.request m).arg0 % 2 = 0)) :
    opNoPay opCfgOpen m (s.request m) b = opErr 0xD b := by
  rw [opNoPay_carried hl, opCfgOpen]
  rcases h with h | ⟨h1, h2, h3⟩
  · exact if_pos h
  · cases hc : b.host.committing with
    | true => exact if_pos rfl
    | false =>
      rw [if_neg (by simp)]
      exact if_pos ⟨h1, h2, by simp [h3]⟩

omit hl in
theorem ownSession_eq_true (h1 : b.host.session = true) (h2 : b.host.sessionMbx = m) : ownSession b m = true := by
  simp [ownSession, h1, h2]

omit hl in
theorem ownSession_eq_false (h : b.host.session = false ∨ b.host.sessionMbx ≠ m) : ownSession b m = false := by
  rcases h with h | h <;> simp [ownSession, h]

theorem cfgClose_closes (ho : ownSession b m = true) (hc : b.host.committing = false) :
    opNoPay opCfgClose m (s.request m) b = ({}, { b with host := { b.host with session := false } }) := by
  simp [opNoPay_carried hl, opCfgClose, ho, hc, opOk]

theorem cfgClose_busy (ho : ownSession b m = true) (hc : b.host.committing = true) :
    opNoPay opCfgClose m (s.request m) b = opErr 0xD b := by
  simp [opNoPay_carried hl, opCfgClose, ho, hc]

theorem cfgClose_notOwner (ho : ownSession b m = false) : opNoPay opCfgClose m (s.request m) b = opErr 0xE b := by
  simp [opNoPay_carried hl, opCfgClose, ho]

theorem cfgLoad_delivers (ho : ownSession b m = true) (hc : b.host.committing = false) (h2 : (s.request m).arg0 < 2) {c : CfgSet}
    (hs : (slotOf b (s.request m).arg0).set = some c) : opNoPay opCfgLoad m (s.request m) b = ({}, deliver c b) := by
  simp [opNoPay_carried hl, opCfgLoad, ho, hc, Nat.not_le.2 h2, hs, opOk]

theorem cfgRead_delivers (ho : ownSession b m = true) (hc : b.host.committing = false) {c : CfgSet}
    (hs : b.host.setInForce = some c) : opNoPay opCfgRead m (s.request m) b = ({}, deliver c b) := by
  simp [opNoPay_carried hl, opCfgRead, ho, hc, hs, opOk]

theorem cfgLoad_busy (hc : b.host.committing = true) : opNoPay opCfgLoad m (s.request m) b = opErr 0xD b := by
  simp [opNoPay_carried hl, opCfgLoad, hc]

theorem cfgRead_busy (hc : b.host.committing = true) : opNoPay opCfgRead m (s.request m) b = opErr 0xD b := by
  simp [opNoPay_carried hl, opCfgRead, hc]

end

/-! ### CFG_COMMIT (R652, R655, R656) -/

/-- The block a commit goes on with after the password it presented. -/
def afterPassword (wrong : Bool) (b : Block) : Block := if wrong then wrongPassword b else b

theorem host_afterPassword (wrong : Bool) (b : Block) : (afterPassword wrong b).host = b.host ∧ (afterPassword wrong b).seq = b.seq := by
  cases wrong <;> exact ⟨rfl, rfl⟩

section
variable {r : MbxReq} {m : Nat} {b : Block}

theorem opCfgCommit_notOwner (ho : ownSession b m = false) : opCfgCommit m r b = opErr 0xE b := by simp [opCfgCommit, ho]

variable (ho : ownSession b m = true) (hc : b.host.committing = false)
include ho hc

theorem opCfgCommit_malformed {f : Fail} (hf : firstFail [checkFormat b, checkCrc b] = some f) :
    opCfgCommit m r b = (rejectRes f, rejected b) := by
  simp [opCfgCommit, ho, hc, hf]

variable (hf : firstFail [checkFormat b, checkCrc b] = none)
include hf

theorem opCfgCommit_notActive (ha : (!isActive b && !sameButSafety b (stagedSet b)) = true) :
    opCfgCommit m r b = ({ status := 0xC }, zeroPasswords b) := by
  simp only [opCfgCommit, ho, hc, hf, ha, Bool.not_true, Bool.false_eq_true, if_false, if_true]

variable (ha : (!isActive b && !sameButSafety b (stagedSet b)) = false)
include ha

theorem opCfgCommit_invalid {f : Fail} {wrong : Bool} (hv : validate b (stagedSet b) (some (secBytes b 5)) = (some f, wrong)) :
    opCfgCommit m r b = (rejectRes f, rejected (afterPassword wrong b)) := by
  simp only [opCfgCommit, ho, hc, hf, ha, hv, Bool.not_true, Bool.false_eq_true, if_false]
  rfl

theorem opCfgCommit_checked {wrong : Bool} (hv : validate b (stagedSet b) (some (secBytes b 5)) = (none, wrong)) (h1 : r.arg0 % 2 = 1) :
    opCfgCommit m r b = ({ payload := commitRecord false false 0 0 0 (afterPassword wrong b) }, zeroPasswords (afterPassword wrong b)) := by
  simp only [opCfgCommit, ho, hc, hf, ha, hv, h1, Bool.not_true, Bool.false_eq_true, if_false, if_true]
  rfl

theorem opCfgCommit_waits {wrong : Bool} (hv : validate b (stagedSet b) (some (secBytes b 5)) = (none, wrong)) (h1 : ¬ r.arg0 % 2 = 1) :
    opCfgCommit m r b = ({ wait := true }, zeroPasswords { afterPassword wrong b with host := { b.host with
      committing := true, waiting := some (stagedSet b), waitMbx := m, waitState := b.seq.state,
      waitSafe := safetyChanged (afterPassword wrong b) (stagedSet b) (leAt (secBytes b 5) 9 1) } }) := by
  rw [← (host_afterPassword wrong b).1, ← (host_afterPassword wrong b).2]
  simp only [opCfgCommit, ho, hc, hf, ha, hv, h1, Bool.not_true, Bool.false_eq_true, if_false]
  rfl

end

/-! ### CFG_APPLY (R652 to R657) -/

section
variable {b : Block} (ok : Bool)

theorem cfgApplyStep_idle (h : b.host.waiting = none) : cfgApplyStep ok b = b := by simp [cfgApplyStep, h]

variable {c : CfgSet} (hw : b.host.waiting = some c) {b0 : Block} (h0 : b0 = atTime (nextStart b).1 b)
include hw h0

theorem cfgApplyStep_aborted (h8 : b.host.waitMbx ≠ 8) (ha : abortDue (mbx b b.host.waitMbx).abortAt b0.now = true) :
    cfgApplyStep ok b = abortSettle b.host.waitMbx b0 := by
  subst h0
  rw [cfgApplyStep, hw]
  refine if_pos ?_
  rw [Bool.and_eq_true]
  exact ⟨by rw [Bool.not_eq_true']; exact decide_eq_false h8, ha⟩

/-- Without an ABORT due, or for a start-up set, the state decides whether the set applies. -/
theorem cfgApplyStep_goesOn (hn : b.host.waitMbx = 8 ∨ abortDue (mbx b b.host.waitMbx).abortAt b0.now = false) {bad : Option Fail}
    (hb : bad = if b.seq.state ≠ b.host.waitState then checkState b0 c b.host.waitSafe else none) :
    cfgApplyStep ok b = match bad with
      | some f => if b.host.waitMbx = 8 then autoloadRole (autoloadFails b0)
        else mbxDone b.host.waitMbx 0x0F (f.code + 256 * f.row) f.item [] (rejected b0)
      | none => (fun b1 : Block => if b.host.waitMbx = 8 then autoloadRole { b1 with host := { b1.host with
            cfgSeq := (slotOf b1 b1.host.waitSlot).seq, committing := false, waiting := none } }
          else { b1 with host := { b1.host with
            waiting := none
            storing := some ⟨b1.now, nextIndex b1 (nextStart b1).1 (nextStart b1).2, appliedMask b0 c b.host.waitSafe, ok⟩ } })
        (raise evCfgCommitted (commitApply c b.host.waitSafe b0)) := by
  subst h0
  have hd : ¬ (!decide (b.host.waitMbx = 8) && abortDue (mbx b b.host.waitMbx).abortAt (atTime (nextStart b).1 b).now) = true := by
    rcases hn with h | h <;> simp [h]
  rw [cfgApplyStep, hw]
  refine (if_neg hd).trans ?_
  have hb' : (if (atTime (nextStart b).1 b).seq.state ≠ (atTime (nextStart b).1 b).host.waitState then
      checkState (atTime (nextStart b).1 b) c (atTime (nextStart b).1 b).host.waitSafe else none) = bad := hb.symm
  dsimp only
  rw [hb']
  cases bad with
  | some f => rfl
  | none => rfl

end

/-! ### The store of a set (R652, R656, R657) -/

/-- The session closes once the set is stored. -/
def storeClosed (c : CfgSet) (ok : Bool) (b : Block) : Block :=
  { (storeSet c ok b).2 with host := { (storeSet c ok b).2.host with committing := false, session := false, storing := none, waitMbx := 8 } }

theorem storeSettle_early {b : Block} {x : Storing} (hx : b.host.storing = some x)
    (h : fabric b.now ≤ fabric x.at_ ∨ b.host.mpRestarting = true) : storeSettle b = b := by
  rw [storeSettle, hx]; exact if_pos h

theorem storeSettle_stores {b : Block} {x : Storing} {c : CfgSet} (hx : b.host.storing = some x) (hc : b.host.setInForce = some c)
    (ht : fabric x.at_ < fabric b.now) (hr : b.host.mpRestarting = false) : storeSettle b =
      if b.host.waitMbx < 8 then mbxDone b.host.waitMbx 0 0 0 (commitRecord true x.flashOk (storeSet c x.flashOk b).1 x.mask x.index
        (storeClosed c x.flashOk b)) (storeClosed c x.flashOk b)
      else storeClosed c x.flashOk b := by
  rw [storeSettle, hx]
  refine (if_neg (by simp [Nat.not_le.2 ht, hr])).trans ?_
  simp only [hc]
  rfl

theorem storeSet_slot (c : CfgSet) (ok : Bool) (b : Block) :
    (storeSet c ok b).1 = if (slotOf b 0).seq ≤ (slotOf b 1).seq then 0 else 1 := by
  cases ok <;> rfl

/-- Settles O28: each clause is the answer of its operation, the step of CFG_APPLY or the end of the store, read from the lemmas above. -/
theorem aConfigurationSetIsStagedCheckedAndApplied : Obligations.a_configuration_set_is_staged_checked_and_applied := by
  intro s m
  have hw : ∀ {code}, s.asked m code → decide (m < 8) = true := fun h => decide_eq_true h.2.1
  refine ⟨fun ha hl => ⟨fun hc hs => ?_, fun h => ?_⟩, fun ha hl => ⟨fun h1 h2 hc => ?_, fun h1 h2 hc => ?_, fun h => ?_⟩,
    fun c hc h1 h2 => ⟨fun ha hl hk hs => ?_, fun ha hl hs => ?_⟩, fun hc => ⟨fun ha hl => ?_, fun ha hl => ?_⟩,
    fun ha hl => ⟨fun h => ?_, fun h1 h2 hc => ?_⟩, fun ok hlive => ⟨fun hn => act_ended hlive rfl (cfgApplyStep_idle ok hn), ?_⟩,
    fun b x c k hx hc hk => ⟨fun h => storeSettle_early hx h, fun ht hr => ?_⟩⟩
  · exact mail_completes (.cfgOpen m) (hw ha) ha (opNoPay opCfgOpen) (cfgOpen_opens hl hc hs)
  · exact mail_completes (.cfgOpen m) (hw ha) ha (opNoPay opCfgOpen) (cfgOpen_busy hl h)
  · exact mail_completes (.cfgClose m) (hw ha) ha (opNoPay opCfgClose) (cfgClose_closes hl (ownSession_eq_true h1 h2) hc)
  · exact mail_completes (.cfgClose m) (hw ha) ha (opNoPay opCfgClose) (cfgClose_busy hl (ownSession_eq_true h1 h2) hc)
  · exact mail_completes (.cfgClose m) (hw ha) ha (opNoPay opCfgClose) (cfgClose_notOwner hl (ownSession_eq_false h))
  · exact mail_completes (.cfgLoad m) (hw ha) ha (opNoPay opCfgLoad) (cfgLoad_delivers (b := s.runs m) hl (ownSession_eq_true h1 h2) hc hk hs)
  · exact mail_completes (.cfgRead m) (hw ha) ha (opNoPay opCfgRead) (cfgRead_delivers (b := s.runs m) hl (ownSession_eq_true h1 h2) hc hs)
  · exact mail_completes (.cfgLoad m) (hw ha) ha (opNoPay opCfgLoad) (cfgLoad_busy hl hc)
  · exact mail_completes (.cfgRead m) (hw ha) ha (opNoPay opCfgRead) (cfgRead_busy hl hc)
  · exact mail_completes (.cfgCommit m) (hw ha) ha (opNoPay opCfgCommit) ((opNoPay_carried hl _).trans (opCfgCommit_notOwner (ownSession_eq_false h)))
  · have ho : ownSession (s.runs m) m = true := ownSession_eq_true h1 h2
    have hc : (s.runs m).host.committing = false := hc
    have ends : ∀ {st d it pl b}, opCfgCommit m (s.request m) (s.runs m) = ({ status := st, detail := d, item := it, payload := pl }, b) →
        exec (.cfgCommit m) s = completed s m st d it pl b := fun e =>
      mail_completes (.cfgCommit m) (hw ha) ha (opNoPay opCfgCommit) ((opNoPay_carried hl _).trans e)
    cases hf : firstFail [checkFormat (s.runs m), checkCrc (s.runs m)] with
    | some f => exact ends (opCfgCommit_malformed ho hc hf)
    | none =>
      show exec (.cfgCommit m) s = if (!isActive (s.runs m) && !sameButSafety (s.runs m) (stagedSet (s.runs m))) = true then _ else _
      cases hna : !isActive (s.runs m) && !sameButSafety (s.runs m) (stagedSet (s.runs m)) with
      | true => exact (ends (opCfgCommit_notActive ho hc hf hna)).trans (if_pos rfl).symm
      | false =>
        refine Eq.trans ?_ (if_neg Bool.false_ne_true).symm
        cases hv : validate (s.runs m) (stagedSet (s.runs m)) (some (secBytes (s.runs m) 5)) with
        | mk bad wrong =>
          cases bad with
          | some f => exact ends (opCfgCommit_invalid ho hc hf hna hv)
          | none =>
            by_cases h1 : (s.request m).arg0 % 2 = 1
            · exact (ends (opCfgCommit_checked ho hc hf hna hv h1)).trans (if_pos h1).symm
            · refine Eq.trans ?_ (if_neg h1).symm
              exact mail_waits (.cfgCommit m) (hw ha) ha (opNoPay opCfgCommit) rfl
                ((opNoPay_carried hl _).trans (opCfgCommit_waits ho hc hf hna hv h1))
  · intro c b0 b1 hwait h0 h1
    refine ⟨fun h8 hab => act_ended hlive rfl (cfgApplyStep_aborted ok hwait h0 h8 hab), fun h8 hab => ⟨fun f hst hbad => ?_, fun h => ?_⟩,
      fun h8 hst => ?_⟩
    · exact act_ended hlive rfl ((cfgApplyStep_goesOn ok hwait h0 (.inr hab) (bad := some f) (by rw [if_pos hst, hbad])).trans (if_neg h8))
    · have hb : none = if s.seq.state ≠ s.host.waitState then checkState b0 c s.host.waitSafe else none := by
        split
        · next hne => exact (h.resolve_left hne).symm
        · rfl
      subst h1
      exact act_ended hlive rfl ((cfgApplyStep_goesOn ok hwait h0 (.inr hab) hb).trans (if_neg h8))
    · subst h1
      exact act_ended hlive rfl ((cfgApplyStep_goesOn ok hwait h0 (.inl h8) (bad := none) (by rw [if_neg (by simp [hst])])).trans (if_pos h8))
  · refine ⟨storeClosed c x.flashOk b, fun h8 => ?_, fun h8 => ?_, rfl, rfl, rfl, ?_, fun hf => ?_, fun hf => ?_, ?_⟩
    · rw [storeSettle_stores hx hc ht hr, if_pos h8, storeSet_slot, ← hk]
    · rw [storeSettle_stores hx hc ht hr, if_neg (Nat.not_lt.2 h8)]
    · cases x.flashOk <;> rfl
    · rw [hf, hk]; exact ⟨rfl, rfl⟩
    · rw [hf]; exact ⟨rfl, rfl⟩
    · cases x.flashOk <;> rfl

end Sys2Proof.Machine
end

section
/-!
PROOFS. Commands on the safety block, the twin and the firmware; the UDP transport; MP load and restart (R554, R611, R640,
R663 to R668, R745).
-/

namespace Sys2Proof.Machine

/-! ### SPB_ACK, RELINQUISH and FW_UPDATE -/

section
variable {s : State} {m : Nat} {b : Block} (hl : s.carries m 0)
include hl

theorem opSpbAck_lost (h : b.spb.mpWdLost = true) : opSpbAck m (s.request m) b = opErr 0x1B b := by
  rw [opSpbAck, needLen_carried hl, if_pos h]

theorem opSpbAck_answers (h : b.spb.mpWdLost = false) {st c i : Nat} {b' : Block} (e : spbAck b = (st, c, i, b')) :
    opSpbAck m (s.request m) b = ({ status := st, detail := if st = 0 then 0 else c, item := i },
      modSpb (fun x => { x with ackBy := some (b'.now, m) }) b') := by
  rw [opSpbAck, needLen_carried hl, if_neg (ne_true_of_eq_false h), e]

theorem opRelinquish_standby (h : isActive b = false) : opRelinquish m (s.request m) b = opErr 0xC b := by
  simp [opRelinquish, needLen_carried hl, h]

theorem opRelinquish_refuses (ha : isActive b = true) (h : b.tw.role ≠ .active ∨ partnerEligible b = false ∨ b.seq.state = .energize ∨
    b.seq.state = .discharge ∨ b.tw.declAt.isSome = true ∨ b.tw.granted = true) :
    opRelinquish m (s.request m) b = opErr 0x1B b := by
  rw [opRelinquish, needLen_carried hl, if_neg (by simp [ha])]
  exact if_pos (by simpa using h)

theorem opRelinquish_declares (hr : b.tw.role = .active) (hp : partnerEligible b = true) (h1 : b.seq.state ≠ .energize)
    (h2 : b.seq.state ≠ .discharge) (hd : b.tw.declAt = none) (hg : b.tw.granted = false) :
    opRelinquish m (s.request m) b = opOk (declare 5 b) := by
  rw [opRelinquish, needLen_carried hl, if_neg (by simp [isActive_eq_true (.inr hr)])]
  exact if_neg (by simp [hr, hp, h1, h2, hd, hg])

theorem opFwUpdate_notOwner (ok : Bool) (v : Nat) (h : ownSession b m = false) :
    opFwUpdate ok v m (s.request m) b = opErr 0xE b := by
  simp [opFwUpdate, needLen_carried hl, h]

theorem opFwUpdate_busy (ok : Bool) (v : Nat) (h : ownSession b m = true) (hc : b.host.committing = true) :
    opFwUpdate ok v m (s.request m) b = opErr 0xD b := by
  simp [opFwUpdate, needLen_carried hl, h, hc]

theorem opFwUpdate_bad (v : Nat) (h : ownSession b m = true) (hc : b.host.committing = false) :
    opFwUpdate false v m (s.request m) b = opErr 0x19 b := by
  simp [opFwUpdate, needLen_carried hl, h, hc]

theorem opFwUpdate_prefers (v : Nat) (h : ownSession b m = true) (hc : b.host.committing = false) :
    opFwUpdate true v m (s.request m) b = opOk { b with rst := { b.rst with
      prefer := 1 - b.host.fwSlot, versions := tput (1 - b.host.fwSlot) v b.rst.versions } } := by
  simp [opFwUpdate, needLen_carried hl, h, hc]

end

/-! ### UDP transport (R663 to R665) -/

theorem udpRequestStep_disabled {b : Block} (p addr : Nat) (l : List W8) (h : parB b 0xD000 = false) :
    udpRequestStep p addr l b = b := by
  simp [udpRequestStep, h]

/-- The transport takes a request of a port, a source address and a length. -/
structure UdpOpen (b : Block) (p addr : Nat) (l : List W8) : Prop where
  on : parB b 0xD000 = true
  port : p < 2
  selected : parN b 0xD002 = 0 ∨ parN b 0xD002 = p + 1
  udpPort : parN b (0xD008 + p) ≠ 0
  low : 16 ≤ l.length
  high : l.length ≤ 1456
  up : b.rst.phase = .up
  source : addr &&& parN b 0xD004 = parN b 0xD003 &&& parN b 0xD004

section
variable {b : Block} {p addr : Nat} {l : List W8} (h : UdpOpen b p addr l)
include h

/-- A request taken is dropped, runs or waits. -/
theorem udpRequestStep_open : udpRequestStep p addr l b =
    if 4 ≤ b.host.udpWait.length then raise evUdpDrop b
    else if fwServes b && b.host.udpWait.isEmpty && udpTurn b b.now then udpRun (requestOf l) b
    else { b with host := { b.host with udpWait := b.host.udpWait ++ [(b.now, requestOf l)] } } := by
  have hs : (decide (parN b 0xD002 = 0) || decide (parN b 0xD002 = p + 1)) = true := by simpa using h.selected
  exact if_neg (by simp [h.on, h.port, hs, h.udpPort, h.low, h.high, h.up, h.source])

theorem udpRequestStep_drops (hw : 4 ≤ b.host.udpWait.length) : udpRequestStep p addr l b = raise evUdpDrop b := by
  rw [udpRequestStep_open h, if_pos hw]

theorem udpRequestStep_runs (hw : b.host.udpWait = []) (hr : b.host.fwReady = true) (hm : b.host.mpRestarting = false)
    (ht : udpTurn b b.now = true) : udpRequestStep p addr l b = udpRun (requestOf l) b := by
  rw [udpRequestStep_open h, if_neg (by simp [hw]), if_pos (by simp [fwServes, h.up, hr, hm, hw, ht])]

theorem udpRequestStep_waits (h4 : b.host.udpWait.length < 4)
    (hn : b.host.udpWait ≠ [] ∨ b.host.fwReady = false ∨ b.host.mpRestarting = true ∨ udpTurn b b.now = false) :
    udpRequestStep p addr l b = { b with host := { b.host with udpWait := b.host.udpWait ++ [(b.now, requestOf l)] } } := by
  rw [udpRequestStep_open h, if_neg (by omega), if_neg]
  rcases hn with hn | hn | hn | hn <;> simp [fwServes, hn]

end

/-- R665: an opcode that the transport does not carry is answered TRANSPORT. -/
theorem udpOp_unmarked {r : MbxReq} (h : r.opcode ∉ udpOps) (b : Block) : udpOp r b = opErr 0x1A b := by
  unfold udpOp
  split
  case h_13 => rfl
  all_goals exact absurd (by rename_i e; rw [e]; decide) h

theorem udpRun_unmarked {l : List W8} (h : leAt l 0 2 ∉ udpOps) (b : Block) : udpRun (requestOf l) b =
    { b with host := { b.host with udpReply := some ⟨leAt l 0 2, leAt l 2 2, 0x1A, 1, 0, 0, []⟩ } } := by
  have hp : ∀ o, udpItem o [] = [] := fun o => by unfold udpItem; split <;> rfl
  rw [udpRun, udpOp_unmarked (r := requestOf l) h]
  show { b with host := { b.host with udpReply := some ⟨leAt l 0 2, leAt l 2 2, 0x1A, 1, 0, 0, udpItem (leAt l 0 2) []⟩ } } = _
  rw [hp]

/-! ### MP load (R666, R667) -/

theorem mpLoadStep_frame (load : Nat) (b : Block) : { mpLoadStep load b with host := b.host, ev := b.ev } = b :=
  raiseIf_keeps (fun t : Block => { t with host := b.host, ev := b.ev }) (fun _ _ => rfl) _ _ _

theorem host_mpLoadStep {load : Nat} (hl : load ≤ 1000) (b : Block) : (mpLoadStep load b).host = { b.host with
    mpLoad := load
    mpLoadMax := max load b.host.mpLoadMax
    loadHigh := if 900 < load then min (b.host.loadHigh + 1) 10 else 0
    loadLow := if load < 800 then min (b.host.loadLow + 1) 10 else 0
    mpOverload := if b.host.mpOverload then !decide (load < 800 ∧ 9 ≤ b.host.loadLow) else decide (900 < load ∧ 9 ≤ b.host.loadHigh) } := by
  have h10 : ∀ (c : Prop) [Decidable c] (n : Nat), decide (10 ≤ if c then n + 1 else 0) = decide (c ∧ 9 ≤ n) := fun c _ n => by
    by_cases hc : c <;> simp [hc]
  have hmin : ∀ (c : Prop) [Decidable c] (n : Nat), min (if c then n + 1 else 0) 10 = if c then min (n + 1) 10 else 0 := fun c _ n => by
    split <;> simp
  have hite : ∀ (o x y : Bool), (if (!o && x) = true then true else o && y) = if o = true then y else x := by decide
  rw [mpLoadStep, Nat.min_eq_left hl]
  refine (raiseIf_keeps Block.host (fun _ _ => rfl) _ _ _).trans ?_
  simp only [hmin, h10, hite]

theorem raised_mpLoadStep {load : Nat} (hl : load ≤ 1000) (b : Block) : (mpLoadStep load b).ev.raised =
    b.ev.raised ++ (if b.host.mpOverload = false ∧ 900 < load ∧ 9 ≤ b.host.loadHigh then [250] else []) := by
  rw [mpLoadStep, Nat.min_eq_left hl, raised_raiseIf]
  have : (!b.host.mpOverload && decide (10 ≤ if 900 < load then b.host.loadHigh + 1 else 0)) =
      decide (b.host.mpOverload = false ∧ 900 < load ∧ 9 ≤ b.host.loadHigh) := by
    cases b.host.mpOverload <;> by_cases hc : 900 < load <;> simp [hc]
  rw [this]
  simp only [decide_eq_true_eq]
  rfl

/-! ### MP restart (R640, R668) -/

/-- Port p holds a cell access of mailbox k that no frame has carried. -/
def unsentAt (k p : Nat) (b : Block) : Bool := (port b p).svc.any fun r => r.mbx = k && !r.sent

theorem unsentAt_abortRunning {m k : Nat} (hk : k ≠ m) (p : Nat) (b : Block) : unsentAt k p (abortRunning m b) = unsentAt k p b := by
  have hf : ∀ l : List SvcReq, (l.filter fun r => r.mbx ≠ m).any (fun r => r.mbx = k && !r.sent) = l.any fun r => r.mbx = k && !r.sent :=
    fun l => by
      rw [List.any_filter]
      congr 1
      funext r
      by_cases h : r.mbx = k
      · simp [h, hk]
      · simp [h]
  unfold abortRunning
  refine (kept_forEach (unsentAt k p) _ (fun q t => ?_) _ _).trans ?_
  · by_cases hq : p = q
    · subst hq
      unfold unsentAt
      rw [port_modPort_same]
      exact hf _
    · unfold unsentAt
      rw [port_modPort_ne _ _ hq]
  · dsimp only; split <;> rfl

/-- A value that neither a port, nor the twin, nor a dropped commit touches is kept when a command stops. -/
theorem abortRunning_reads {α : Type} (p : Block → α) (hport : ∀ q f t, p (modPort q f t) = p t) (htw : ∀ f t, p (modTw f t) = p t)
    (hc : ∀ t, p { t with host := { t.host with committing := false, waiting := none } } = p t) (m : Nat) (b : Block) :
    p (abortRunning m b) = p b := by
  unfold abortRunning
  refine (kept_forEach p _ (fun _ _ => hport _ _ _) _ _).trans ((htw _ _).trans ?_)
  split
  · exact hc b
  · rfl

/-- A running command of mailbox m has left everything but its completion. -/
def leftRunning (m : Nat) (b : Block) : Block := orphanStore m (orphan m (abortRunning m b))

theorem mbxRestart_running {m : Nat} {b : Block} (h : (mbx b m).mstate = 2) :
    mbxRestart m b = mbxDone m 3 (restartDetail b m) 0 [] (leftRunning m b) := if_pos h

theorem mbxRestart_other {m : Nat} {b : Block} (h : (mbx b m).mstate ≠ 2) : mbxRestart m b = b := if_neg h

theorem orphanStore_cases (m : Nat) (b : Block) : orphanStore m b = b ∨
    (b.host.waitMbx = m ∧ orphanStore m b = { b with host := { b.host with waitMbx := 8 } }) := by
  unfold orphanStore
  split
  · next h => exact .inr ⟨h.2, rfl⟩
  · exact .inl rfl

/-- What a command leaves when it stops: ports, twin, changes of cells and the commit that waits. -/
theorem leftRunning_reads {α : Type} (p : Block → α) (hport : ∀ q f t, p (modPort q f t) = p t) (htw : ∀ f t, p (modTw f t) = p t)
    (hc : ∀ t, p { t with host := { t.host with committing := false, waiting := none } } = p t)
    (hch : ∀ t c w, p { t with changes := c, tw := w } = p t) (hw : ∀ t, p { t with host := { t.host with waitMbx := 8 } } = p t)
    (m : Nat) (b : Block) : p (leftRunning m b) = p b := by
  have e : p (orphan m (abortRunning m b)) = p b := (hch _ _ _).trans (abortRunning_reads p hport htw hc m b)
  rcases orphanStore_cases m (orphan m (abortRunning m b)) with h | ⟨-, h⟩ <;> rw [leftRunning, h]
  · exact e
  · exact (hw _).trans e

theorem mbx_leftRunning (m k : Nat) (b : Block) : mbx (leftRunning m b) k = mbx b k ∧ (leftRunning m b).now = b.now :=
  ⟨leftRunning_reads (mbx · k) (fun _ _ _ => rfl) (fun _ _ => rfl) (fun _ => rfl) (fun _ _ _ => rfl) (fun _ => rfl) m b,
    leftRunning_reads Block.now (fun _ _ _ => rfl) (fun _ _ => rfl) (fun _ => rfl) (fun _ _ _ => rfl) (fun _ => rfl) m b⟩

theorem mbx_mbxRestart_ne {m k : Nat} (h : k ≠ m) (b : Block) : mbx (mbxRestart m b) k = mbx b k ∧ (mbxRestart m b).now = b.now := by
  by_cases h2 : (mbx b m).mstate = 2
  · obtain ⟨e1, e2⟩ := mbx_leftRunning m k b
    rw [mbxRestart_running h2]
    exact ⟨(mbx_mbxDone_ne _ _ _ _ h).trans e1,
      (congrArg Block.now ((mbxDone_frame (b := leftRunning m b) (m := m) 3 (restartDetail b m) 0 []).1 b.host b.ev)).trans e2⟩
  · rw [mbxRestart_other h2]; exact ⟨rfl, rfl⟩

/-- R640: DETAIL of a mailbox does not depend on the others that restart before it. -/
theorem restartDetail_mbxRestart {m k : Nat} (hk : k < 8) (h : k ≠ m) (b : Block) : restartDetail (mbxRestart m b) k = restartDetail b k := by
  by_cases h2 : (mbx b m).mstate = 2
  · have hstore : (abortRunning m b).host.storing = b.host.storing :=
      abortRunning_reads (·.host.storing) (fun _ _ _ => rfl) (fun _ _ => rfl) (fun _ => rfl) m b
    have hwait : (abortRunning m b).host.waitMbx = b.host.waitMbx :=
      abortRunning_reads (·.host.waitMbx) (fun _ _ _ => rfl) (fun _ _ => rfl) (fun _ => rfl) m b
    have hd := mbxDone_frame (b := leftRunning m b) (m := m) 3 (restartDetail b m) 0 []
    have hports : (mbxRestart m b).ports = (abortRunning m b).ports := by
      rw [mbxRestart_running h2]
      refine (congrArg Block.ports (hd.1 b.host b.ev)).trans ?_
      show (leftRunning m b).ports = _
      rcases orphanStore_cases m (orphan m (abortRunning m b)) with e | ⟨-, e⟩ <;> rw [leftRunning, e] <;> rfl
    have hu : ∀ p, unsentAt k p (mbxRestart m b) = unsentAt k p b := fun p => by
      rw [← unsentAt_abortRunning h p b]
      unfold unsentAt port
      rw [hports]
    have hs : (mbxRestart m b).host.storing = b.host.storing ∧ ((mbxRestart m b).host.waitMbx = k ↔ b.host.waitMbx = k) := by
      rw [mbxRestart_running h2]
      have e1 : (mbxDone m 3 (restartDetail b m) 0 [] (leftRunning m b)).host.storing = (leftRunning m b).host.storing :=
        (show _ from congrArg HostSt.storing (hd.2 b.host.mbx) :)
      have e2 : (mbxDone m 3 (restartDetail b m) 0 [] (leftRunning m b)).host.waitMbx = (leftRunning m b).host.waitMbx :=
        (show _ from congrArg HostSt.waitMbx (hd.2 b.host.mbx) :)
      rw [e1, e2]
      rcases orphanStore_cases m (orphan m (abortRunning m b)) with e | ⟨ew, e⟩ <;> rw [leftRunning, e]
      · exact ⟨hstore, by rw [← hwait]; rfl⟩
      · refine ⟨hstore, ?_⟩
        have ew' : b.host.waitMbx = m := hwait ▸ ew
        show 8 = k ↔ _
        rw [ew']
        omega
    have hm := (mbx_mbxRestart_ne h b).1
    unfold restartDetail
    show b2n (_ || _ || (_ && !((upto 128).any fun p => unsentAt k p (mbxRestart m b))) || _) = b2n (_ || _ || (_ && !((upto 128).any fun p => unsentAt k p b)) || _)
    rw [hm, hs.1]
    simp only [hu, hs.2]
  · rw [mbxRestart_other h2]

/-- A mailbox that keeps its response completes MP_RESTARTED, with what its operation had done in DETAIL. -/
theorem mbx_mbxRestart_same {k : Nat} {b : Block} (h : (mbx b k).mstate = 2) (hd : (mbx b k).discard = false) :
    mbx (mbxRestart k b) k = mbxCompleted b.now 3 (restartDetail b k) 0 [] (mbx b k) := by
  obtain ⟨e1, e2⟩ := mbx_leftRunning k k b
  rw [mbxRestart_running h, mbx_mbxDone_same _ _ _ _ (.inr (e1 ▸ h)) (e1 ▸ hd), e1, e2]

theorem mbx_restarts_other {k : Nat} {b : Block} (h : (mbx b k).mstate ≠ 2) (l : List Nat) : mbx (forEach l mbxRestart b) k = mbx b k :=
  forEach_keeps (fun t => mbx t k = mbx b k) mbxRestart (fun m t ht => by
    by_cases hm : k = m
    · subst hm; rw [mbxRestart_other (ht ▸ h)]; exact ht
    · exact (mbx_mbxRestart_ne hm t).1.trans ht) l b rfl

theorem mbx_restarts_running {k : Nat} (hk : k < 8) {l : List Nat} (hm : k ∈ l) (hn : l.Nodup) {b : Block} (h : (mbx b k).mstate = 2)
    (hd : (mbx b k).discard = false) :
    mbx (forEach l mbxRestart b) k = mbxCompleted b.now 3 (restartDetail b k) 0 [] (mbx b k) := by
  induction l generalizing b with
  | nil => cases hm
  | cons j t ih =>
    obtain ⟨hj, ht⟩ := List.nodup_cons.1 hn
    show mbx (forEach t mbxRestart (mbxRestart j b)) k = _
    by_cases he : k = j
    · subst he
      have e := mbx_mbxRestart_same h hd
      rw [mbx_restarts_other (by rw [e]; show (3 : Nat) ≠ 2; decide), e]
    · obtain ⟨e1, e2⟩ := mbx_mbxRestart_ne he b
      rw [ih ((List.mem_cons.1 hm).resolve_left he) ht (e1 ▸ h) (e1 ▸ hd), e1, e2, restartDetail_mbxRestart hk he]

/-- A value that no stopped command and no completion touches is kept by the restarts of a list of mailboxes. -/
theorem restarts_keep {α : Type} (p : Block → α) (hdone : ∀ m d t, p (mbxDone m 3 d 0 [] t) = p t)
    (hleft : ∀ m t, p (leftRunning m t) = p t) (l : List Nat) (b : Block) : p (forEach l mbxRestart b) = p b :=
  kept_forEach p mbxRestart (fun m t => by
    by_cases h2 : (mbx t m).mstate = 2
    · rw [mbxRestart_running h2, hdone, hleft]
    · rw [mbxRestart_other h2]) l b

theorem restarts_mpRestarts (l : List Nat) (b : Block) : (forEach l mbxRestart b).host.mpRestarts = b.host.mpRestarts :=
  restarts_keep (·.host.mpRestarts)
    (fun m d t => (congrArg HostSt.mpRestarts ((mbxDone_frame (b := t) (m := m) 3 d 0 []).2 t.host.mbx) :))
    (leftRunning_reads (·.host.mpRestarts) (fun _ _ _ => rfl) (fun _ _ => rfl) (fun _ => rfl) (fun _ _ _ => rfl) (fun _ => rfl)) l b

/-- Parameters, cells, arms, sequence, tasks and the safety block through the restarts: any value of the block that mailboxes,
host, events, ports, twin and changes of cells do not reach. -/
theorem restarts_frame {α : Type} (p : Block → α) (hp : ∀ t po h e w c, p { t with ports := po, host := h, ev := e, tw := w, changes := c } = p t)
    (l : List Nat) (b : Block) : p (forEach l mbxRestart b) = p b :=
  restarts_keep p
    (fun m d t => ((hp (mbxDone m 3 d 0 [] t) t.ports t.host t.ev t.tw t.changes).symm.trans
      (congrArg (fun x : Block => p { x with ports := t.ports, tw := t.tw, changes := t.changes })
        ((mbxDone_frame (b := t) (m := m) 3 d 0 []).1 t.host t.ev))))
    (leftRunning_reads p (fun q f t => hp t (modPort q f t).ports t.host t.ev t.tw t.changes)
      (fun f t => hp t t.ports t.host t.ev (f t.tw) t.changes) (fun t => hp t t.ports _ t.ev t.tw t.changes)
      (fun t c w => hp t t.ports t.host t.ev w c) (fun t => hp t t.ports _ t.ev t.tw t.changes)) l b

/-- The block of an MP restart once its mailboxes are restarted. -/
def mpDown (b : Block) : Block := raise evMpRestart { b with host := { b.host with
  mpRestarting := true, fwReady := false, mpRestarts := satInc 16 b.host.mpRestarts } }

theorem mpRestartStep_restarts {b : Block} (hp : b.rst.phase = .up) (h : b.host.mpRestarting = false) :
    mpRestartStep b = mpDown (forEach (upto 8) mbxRestart b) :=
  if_neg (by simp [hp, h])

/-- Settles O29: the answers of the three commands, the fate of a UDP request, the load counters, and the restart with its end. -/
theorem safetyTwinFirmwareAndUdpCommands : Obligations.safety_twin_firmware_and_udp_commands := by
  intro s m
  refine ⟨fun h hl => ?_, fun h hl => ?_, fun ok v h hl => ?_, fun p addr l hl hp => ?_, fun load hl h => ?_, fun hl hup hr => ?_, fun hl => ?_⟩
  · have hw : (Instr.spbAck m).wf = true := decide_eq_true h.2.1
    exact ⟨fun hx => mail_completes (.spbAck m) hw h opSpbAck (opSpbAck_lost (b := s.runs m) hl hx),
      fun hx st c i b e => mail_completes (.spbAck m) hw h opSpbAck (opSpbAck_answers (b := s.runs m) hl hx e)⟩
  · have hw : (Instr.relinquish m).wf = true := decide_eq_true h.2.1
    refine ⟨fun h1 h2 => mail_completes (.relinquish m) hw h opRelinquish (opRelinquish_standby (b := s.runs m) hl (isActive_eq_false h1 h2)), fun hx => ?_,
      fun h1 h2 h3 h4 h5 h6 => mail_completes (.relinquish m) hw h opRelinquish (opRelinquish_declares (b := s.runs m) hl h1 h2 h3 h4 h5 h6)⟩
    rcases hx with hx | ⟨ha, hx⟩
    · exact mail_completes (.relinquish m) hw h opRelinquish (opRelinquish_refuses (b := s.runs m) hl (isActive_eq_true (.inl hx)) (.inl fun e => by
        rw [show s.tw.role = .active from e] at hx; cases hx))
    · exact mail_completes (.relinquish m) hw h opRelinquish (opRelinquish_refuses (b := s.runs m) hl (isActive_eq_true (.inr ha)) (.inr hx))
  · have hw : (Instr.fwUpdate m ok v).wf = true := decide_eq_true h.2.1
    refine ⟨fun hx => mail_completes (.fwUpdate m ok v) hw h (opFwUpdate ok v) (opFwUpdate_notOwner (b := s.runs m) hl ok v (ownSession_eq_false hx)),
      fun h1 h2 hc => mail_completes (.fwUpdate m ok v) hw h (opFwUpdate ok v) (opFwUpdate_busy (b := s.runs m) hl ok v (ownSession_eq_true h1 h2) hc),
      fun h1 h2 hc => ?_⟩
    cases ok with
    | true => exact mail_completes (.fwUpdate m true v) hw h (opFwUpdate true v) (opFwUpdate_prefers (b := s.runs m) hl v (ownSession_eq_true h1 h2) hc)
    | false => exact mail_completes (.fwUpdate m false v) hw h (opFwUpdate false v) (opFwUpdate_bad (b := s.runs m) hl v (ownSession_eq_true h1 h2) hc)
  · have hw : (Instr.udpRequest p addr l).wf = true := decide_eq_true hp
    refine ⟨fun h => act_ended hl hw (udpRequestStep_disabled p addr.toNat l h), fun h1 h2 h3 h4 h5 h6 h7 => ?_⟩
    have ho : UdpOpen s.toBlock p addr.toNat l := ⟨h1, hp, h2, h3, h4, h5, h6, h7⟩
    exact ⟨fun h => act_ended hl hw (udpRequestStep_drops ho h),
      fun h8 h9 h10 h11 => ⟨act_ended hl hw (udpRequestStep_runs ho h8 h9 h10 h11),
        fun hn => act_ended hl hw ((udpRequestStep_runs ho h8 h9 h10 h11).trans (udpRun_unmarked hn _))⟩,
      fun h8 h9 => act_ended hl hw (udpRequestStep_waits ho h8 h9)⟩
  · have hh := host_mpLoadStep h s.toBlock
    exact ⟨_, act_ended (i := .mpLoad load) hl (decide_eq_true h) rfl, by rw [hh], by rw [hh], by rw [hh], by rw [hh], by rw [hh],
      raised_mpLoadStep h _, mpLoadStep_frame load _⟩
  · generalize hb : forEach (upto 8) mbxRestart s.toBlock = b
    have hkeep : ∀ {α : Type} (p : Block → α), (∀ t po h e w c, p { t with ports := po, host := h, ev := e, tw := w, changes := c } = p t) →
        p b = p s.toBlock := fun p hp => hb ▸ restarts_frame p hp (upto 8) s.toBlock
    have hc : b.host.mpRestarts = s.host.mpRestarts := hb ▸ restarts_mpRestarts (upto 8) s.toBlock
    refine ⟨mpDown b, act_ended hl rfl ((mpRestartStep_restarts hup hr).trans (congrArg mpDown hb)), rfl, rfl, congrArg (satInc 16) hc,
      fun k _ hn => ?_, fun k hk hm hd => ?_, mem_raised_raise_self _ _, hkeep Block.par (fun _ _ _ _ _ _ => rfl),
      hkeep Block.cells (fun _ _ _ _ _ _ => rfl), hkeep Block.arms (fun _ _ _ _ _ _ => rfl), hkeep Block.seq (fun _ _ _ _ _ _ => rfl),
      hkeep Block.dam (fun _ _ _ _ _ _ => rfl), hkeep Block.spb (fun _ _ _ _ _ _ => rfl)⟩
    · exact (congrArg (mbx · k) hb).symm.trans (mbx_restarts_other hn _)
    have e : mbx b k = _ := (congrArg (mbx · k) hb).symm.trans (mbx_restarts_running hk ((mem_upto 8 k).2 hk) (nodup_upto 8) hm hd)
    refine ⟨congrArg MbxSt.mstate e, fun ha => (congrArg MbxSt.resp e).trans ?_⟩
    simp [mbxCompleted, mbxAnswer, ha, State.request]
  · exact ⟨fun h => ⟨_, act_ended hl rfl (if_pos h), rfl⟩, fun h => act_ended hl rfl (if_neg (ne_true_of_eq_false h))⟩

end Sys2Proof.Machine
end

section
/-!
PROOFS. Power states: requests, the steps of an entry, wake, the arbiter and the core regulator (chapter 19).
-/

namespace Sys2Proof.Machine

/-! ### Requests (R697, R698) -/

/-- A request accepted enters, wakes, switches off or waits for the cycle start. -/
def pwrGo (d : PowerState) (b : Block) : Block :=
  let asleep := decide (b.pwr.state = .doze) || decide (b.pwr.state = .off)
  let t := modPwr (fun x => { x with result := 0, refuseDom := 0x1F }) b
  match d with
  | .run => if asleep then pwrWakeStart .run 0 t else modPwr (fun x => { x with toRun := true }) t
  | .hold => if asleep then pwrWakeStart .hold 0 t else pwrEnter .hold t
  | .doze => pwrEnter .doze t
  | .off => if asleep then powerOff (modPwr (fun x => { x with target := .off }) t) else pwrEnter .off t

theorem pwrRequest_before {b : Block} (d : PowerState) (h : b.rst.phase ≠ .up) : pwrRequest d b = b := if_pos h

section
variable {b : Block} {d : PowerState} (hu : b.rst.phase = .up)
include hu

theorem pwrRequest_busy (h : b.pwr.phase ≠ .steady ∨ b.pwr.toRun = true) : pwrRequest d b = pwrResult 5 b := by
  rw [pwrRequest, if_neg (not_not.2 hu)]; exact if_pos h

variable (hs : b.pwr.phase = .steady) (ht : b.pwr.toRun = false)
include hs ht

theorem pwrRequest_already (h : b.pwr.state = d) : pwrRequest d b = pwrResult 1 b := by
  simp [pwrRequest, hu, hs, ht, h]

theorem pwrRequest_refused (h : b.pwr.state ≠ d) (hb : pwrBadState b d = true) : pwrRequest d b = pwrResult 2 b := by
  simp [pwrRequest, hu, hs, ht, h, hb]

theorem pwrRequest_accepted (h : b.pwr.state ≠ d) (hb : pwrBadState b d = false) : pwrRequest d b = pwrGo d b := by
  rw [pwrRequest, if_neg (not_not.2 hu), if_neg (by simp [hs, ht]), if_neg h, if_neg (ne_true_of_eq_false hb)]
  cases d <;> rfl

theorem pwrRequest_enters (h : b.pwr.state ≠ d) (hb : pwrBadState b d = false) (ho : b.pwr.state = .run ∨ b.pwr.state = .hold)
    (hd : d ≠ .run) : pwrRequest d b = { b with pwr := { b.pwr with
      result := 0, refuseDom := 31, phase := .entering, target := d, step := 1, stepAt := b.now, reqT0 := none, woken := none,
      suppressed := true, domStopped := 0 } } := by
  have ha : (decide (b.pwr.state = .doze) || decide (b.pwr.state = .off)) = false := by rcases ho with ho | ho <;> simp [ho]
  rw [pwrRequest_accepted hu hs ht h hb]
  cases d with
  | run => exact absurd rfl hd
  | hold => exact if_neg (ne_true_of_eq_false ha)
  | doze => rfl
  | off => exact if_neg (ne_true_of_eq_false ha)

theorem pwrRequest_resumes (hb : pwrBadState b .run = false) (ho : b.pwr.state = .hold) :
    pwrRequest .run b = { b with pwr := { b.pwr with result := 0, refuseDom := 31, toRun := true } } := by
  rw [pwrRequest_accepted hu hs ht (by rw [ho]; decide) hb]
  exact if_neg (by simp [ho])

theorem pwrRequest_switchesOff (hb : pwrBadState b .off = false) (ho : b.pwr.state = .doze) :
    pwrRequest .off b = powerOff { b with pwr := { b.pwr with result := 0, refuseDom := 31, target := .off } } := by
  rw [pwrRequest_accepted hu hs ht (by rw [ho]; decide) hb]
  exact if_pos (by simp [ho])

theorem pwrRequest_wakes (h : b.pwr.state ≠ d) (hb : pwrBadState b d = false) (ho : b.pwr.state = .doze ∨ b.pwr.state = .off)
    (hd : d = .run ∨ d = .hold) : pwrRequest d b =
      driveVdd (if b.si.vddSet = 0 then 800000 else b.si.vddSet) { b with pwr := { b.pwr with
        result := 0, refuseDom := 31, phase := .waking, wakeCause := 0, wakeFrom := b.pwr.state, wakeTo := d, wakeAt := b.now } } := by
  have ha : (decide (b.pwr.state = .doze) || decide (b.pwr.state = .off)) = true := by rcases ho with ho | ho <;> simp [ho]
  rw [pwrRequest_accepted hu hs ht h hb]
  rcases hd with hd | hd <;> subst hd <;> exact if_pos ha

end

theorem pwrBadState_hold {b : Block} (h : (∃ a, a < 12 ∧ switching b a = true) ∨ b.seq.state = .energize ∨ b.seq.state = .discharge) :
    pwrBadState b .hold = true := by
  have : (upto 12).any (switching b) = true ∨ b.seq.state = .energize ∨ b.seq.state = .discharge :=
    h.imp_left fun ⟨a, ha, hs⟩ => List.any_eq_true.2 ⟨a, (mem_upto 12 a).2 ha, hs⟩
  rcases this with h | h | h <;> simp [pwrBadState, h]

theorem awaitReady_eq_false {b : Block} (h1 : b.seq.state ≠ .await) (h2 : b.seq.state ≠ .ready) : awaitReady b = false := by
  simp [awaitReady, h1, h2]

theorem pwrBadState_sleep {b : Block} (h : (b.seq.state ≠ .await ∧ b.seq.state ≠ .ready) ∨ b.host.committing = true ∨ b.tw.role = .active) :
    pwrBadState b .doze = true ∧ pwrBadState b .off = true := by
  rcases h with ⟨h1, h2⟩ | h | h
  · simp [pwrBadState, awaitReady_eq_false h1 h2]
  · simp [pwrBadState, h]
  · simp [pwrBadState, h]

/-- Settles O38: each case of R698 makes `pwrBadState` true. -/
theorem powerRequestsInConflictAreRefused : Obligations.power_requests_in_conflict_are_refused := by
  intro s hl hu hs ht t e
  subst e
  exact ⟨fun hn h => act_ended hl rfl (pwrRequest_refused hu hs ht hn (pwrBadState_hold h)),
    fun h => ⟨fun hn => act_ended hl rfl (pwrRequest_refused hu hs ht hn (pwrBadState_sleep h).1),
      fun hn => act_ended hl rfl (pwrRequest_refused hu hs ht hn (pwrBadState_sleep h).2)⟩⟩

/-! ### Power-off (R702, R706, R707) -/

theorem enterDark_reads {α : Type} (p : Block → α) (hp : ∀ t po e, p { t with ports := po, ev := e } = p t) (q : Nat) (b : Block) :
    p (enterDark q b) = p b := by
  rw [← hp (enterDark q b) b.ports b.ev]
  exact (congrArg p (noSegment_frame q b) :)

theorem setAbsent_reads {α : Type} (p : Block → α) (hp : ∀ t po e w, p { t with ports := po, ev := e, tw := w } = p t) (b : Block) :
    p (setAbsent b) = p b := by
  unfold setAbsent
  split
  · rfl
  · exact hp b b.ports _ _

theorem setRelays_reads {α : Type} (p : Block → α) (hp : ∀ t po e w, p { t with ports := po, ev := e, tw := w } = p t) (l : List Nat)
    (b : Block) : p (setRelays l b) = p b := by
  unfold setRelays
  dsimp only
  split
  · exact hp b b.ports b.ev _
  · exact (kept_forEach p _ (fun q t => hp t _ t.ev t.tw) _ _).trans (hp b b.ports b.ev _)

/-- A new state of the twin link reaches the twin, the events and the ports only. -/
theorem setLink_reads {α : Type} (p : Block → α) (hp : ∀ t po e w, p { t with ports := po, ev := e, tw := w } = p t) (l : Nat) (b : Block) :
    p (setLink l b) = p b := by
  have hb : p (trimRelays (raise evTwinLink (modTw (fun t => { t with link := l }) b))) = p b :=
    (setRelays_reads p hp _ _).trans (hp b b.ports _ _)
  unfold setLink
  split
  · rfl
  · dsimp only
    split
    · exact (setAbsent_reads p hp _).trans hb
    · exact hb

theorem setRole_reads {α : Type} (p : Block → α) (hp : ∀ t po e w, p { t with ports := po, ev := e, tw := w } = p t) (r : Role) (b : Block) :
    p (setRole r b) = p b := by
  unfold setRole
  split
  · rfl
  · exact hp b b.ports _ _

/-- The block at the power-off step before its supply falls: ports dark, calibrations and converters stopped. -/
def powerStopped (b : Block) : Block :=
  let t := if b.pwr.target = .off then siHistoryWriteStep b else b
  let t := forEach (t.ports.map (·.1)) enterDark t
  let t := forEach (upto 4) (fun u s => if (adcUnit s u).calState ≠ 0 then calEnd u 2 3 s else s) t
  { t with adc := { t.adc with units := (upto 4).map fun u => (u, adcOff (adcUnit t u)) } }

theorem powerStopped_reads {α : Type} (p : Block → α) (hp : ∀ t po e ad, p { t with ports := po, ev := e, adc := ad } = p t) (b : Block) :
    p (powerStopped b) = p (if b.pwr.target = .off then siHistoryWriteStep b else b) := by
  unfold powerStopped
  refine (hp _ _ _ _).trans ((kept_forEach p _ (fun u t => ?_) _ _).trans
    (kept_forEach p _ (fun q t => enterDark_reads p (fun x po e => hp x po e x.adc) q t) _ _))
  split
  · exact calEnd_keeps u t 2 3 p fun t x y => hp t t.ports y x
  · rfl

/-- The power registers at the power-off step, the supply as before. -/
def powerFell (b : Block) (t : Block) : PwrSt := { t.pwr with
  retained := if b.pwr.target = .off then 0 else retainMask (if b.pwr.target = .off then siHistoryWriteStep b else b)
  canary := t.now, domOn := 1, domStopped := 0
  wakeMap := maskOf ((upto 32).filter fun i => decide (16 ≤ i) &&
    (upto 13).any (tripBlocks (if b.pwr.target = .off then siHistoryWriteStep b else b) i))
  phase := .steady, step := 0, woken := none, entries := satInc 16 t.pwr.entries }

/-- The supply falls to the DOZE voltage and a twin unit leaves its pair. -/
def powerDown (b t : Block) : Block :=
  let t := driveVdd (uvOf (parW { t with pwr := powerFell b t } 0xF005)) { t with pwr := powerFell b t }
  if twinOn t then setRole .offline (linkUpdate (modTw (fun x => { x with lanes := x.lanes &&& 0x101, revertReq := false }) t)) else t

theorem powerOff_eq (b : Block) : powerOff b = pwrSetState b.pwr.target (powerDown b (powerStopped b)) := rfl

theorem powerDown_reads {α : Type} (p : Block → α) (hp : ∀ t po e w, p { t with ports := po, ev := e, tw := w } = p t) (b t : Block) :
    p (powerDown b t) = p (driveVdd (uvOf (parW t 0xF005)) { t with pwr := powerFell b t }) := by
  unfold powerDown
  dsimp only
  split
  · exact (setRole_reads p hp _ _).trans ((setLink_reads p hp _ _).trans (hp _ _ _ _))
  · rfl

theorem pwrSetState_reads {α : Type} (p : Block → α) (hp : ∀ t v e, p { t with pwr := v, ev := e } = p t) (d : PowerState) (b : Block) :
    p (pwrSetState d b) = p b := by
  unfold pwrSetState
  split
  · rfl
  · exact hp b _ _

theorem pwr_pwrSetState (d : PowerState) (b : Block) : (pwrSetState d b).pwr = { b.pwr with state := d } := by
  unfold pwrSetState
  split
  · next h => rw [← h]
  · rfl

theorem driveVdd_reads {α : Type} (p : Block → α) (hp : ∀ t v, p { t with pwr := v } = p t) (v : Nat) (b : Block) :
    p (driveVdd v b) = p b := by
  unfold driveVdd
  split
  · rfl
  · exact hp b _

/-- A new core voltage changes the supply and what the regulator owes. -/
theorem pwr_driveVdd (v : Nat) (b : Block) : (driveVdd v b).pwr.vdd = v ∧ (driveVdd v b).pwr = { b.pwr with
    vdd := v, vrPrev := (driveVdd v b).pwr.vrPrev, vrAcked := (driveVdd v b).pwr.vrAcked,
    vrTries := (driveVdd v b).pwr.vrTries, vrWait := (driveVdd v b).pwr.vrWait } := by
  unfold driveVdd
  split
  · next h => subst h; exact ⟨rfl, rfl⟩
  · exact ⟨rfl, rfl⟩

/-- R706, R707: what power-off leaves of the power registers, the aging history and the time. -/
theorem powerOff_spec (b : Block) : ∃ v : PwrSt, (powerOff b).pwr = { v with state := b.pwr.target } ∧ v.vdd = uvOf (parW b 0xF005) ∧
    v.phase = .steady ∧ v.step = 0 ∧ v.domOn = 1 ∧ v.domStopped = 0 ∧ v.retained = (if b.pwr.target = .off then 0 else retainMask b) ∧
    v.entries = min (b.pwr.entries + 1) 65535 ∧ v.woken = none ∧
    (powerOff b).si = (if b.pwr.target = .off then (siHistoryWriteStep b).si else b.si) ∧ (powerOff b).now = b.now := by
  generalize ht : powerStopped b = t
  have hk : ∀ {α : Type} (p : Block → α), (∀ t po e ad, p { t with ports := po, ev := e, adc := ad } = p t) →
      p t = p (if b.pwr.target = .off then siHistoryWriteStep b else b) := fun p hp => ht ▸ powerStopped_reads p hp b
  have hif : ∀ {α : Type} (p : Block → α), p (siHistoryWriteStep b) = p b → p (if b.pwr.target = .off then siHistoryWriteStep b else b) = p b :=
    fun p hp => by split <;> [exact hp; rfl]
  have hpar : t.par = b.par := (hk Block.par fun _ _ _ _ => rfl).trans (hif Block.par rfl)
  have hnow : t.now = b.now := (hk Block.now fun _ _ _ _ => rfl).trans (hif Block.now rfl)
  have hent : t.pwr.entries = b.pwr.entries := (hk (·.pwr.entries) fun _ _ _ _ => rfl).trans (hif (·.pwr.entries) rfl)
  have hret : (if b.pwr.target = .off then 0 else retainMask (if b.pwr.target = .off then siHistoryWriteStep b else b)) =
      if b.pwr.target = .off then 0 else retainMask b := by split <;> rfl
  obtain ⟨hv, hd⟩ := pwr_driveVdd (uvOf (parW t 0xF005)) { t with pwr := powerFell b t }
  have hdown : (powerDown b t).pwr = (driveVdd (uvOf (parW t 0xF005)) { t with pwr := powerFell b t }).pwr :=
    powerDown_reads Block.pwr (fun _ _ _ _ => rfl) b t
  have hrest : ∀ {α : Type} (p : Block → α), (∀ t po e w v, p { t with ports := po, ev := e, tw := w, pwr := v } = p t) → p (powerOff b) = p t :=
    fun p hp => by
      rw [powerOff_eq, ht, pwrSetState_reads p (fun t v e => hp t t.ports e t.tw v), powerDown_reads p (fun t po e w => hp t po e w t.pwr),
        driveVdd_reads p fun t v => hp t t.ports t.ev t.tw v]
      exact hp t t.ports t.ev t.tw _
  refine ⟨(powerDown b t).pwr, ?_, ?_, ?_, ?_, ?_, ?_, ?_, ?_, ?_, ?_, (hrest Block.now fun _ _ _ _ _ => rfl).trans hnow⟩
  · rw [powerOff_eq, pwr_pwrSetState, ht]
  · rw [hdown, hv, parW_congr hpar]
  · rw [hdown, hd]; rfl
  · rw [hdown, hd]; rfl
  · rw [hdown, hd]; rfl
  · rw [hdown, hd]; rfl
  · rw [hdown, hd]; exact hret
  · rw [hdown, hd]; exact congrArg (satInc 16) hent
  · rw [hdown, hd]; rfl
  · refine (hrest Block.si fun _ _ _ _ _ => rfl).trans ((hk Block.si fun _ _ _ _ => rfl).trans ?_)
    split <;> rfl

/-- A wake drives the plan's supply and notes its cause, the state it leaves and its instant. -/
theorem pwrWakeStart_eq {b : Block} (d : PowerState) (k : Nat) {from_ : PowerState} {now : Nat} (hs : b.pwr.state = from_) (hn : b.now = now) :
    pwrWakeStart d k b = driveVdd (if b.si.vddSet = 0 then 800000 else b.si.vddSet) { b with pwr := { b.pwr with
      phase := .waking, wakeCause := k, wakeFrom := from_, wakeTo := d, wakeAt := now } } := by
  rw [← hs, ← hn]; rfl

/-! ### The steps of an entry (R703 to R705) -/

section
variable {b : Block} (bar4 : Option Nat)

theorem pwrEntryStepStep_idle (h : b.pwr.phase ≠ .entering) : pwrEntryStepStep bar4 b = b := if_pos h

variable (he : b.pwr.phase = .entering)
include he

theorem pwrEntryStepStep_powerOff (h7 : b.pwr.step = 7) : pwrEntryStepStep bar4 b =
    match b.pwr.woken with | some k => pwrWakeStart .run k (powerOff b) | none => powerOff b := by
  refine (if_neg (not_not.2 he)).trans ((if_pos h7).trans ?_)
  cases b.pwr.woken <;> rfl

variable (h7 : b.pwr.step ≠ 7)
include h7

theorem pwrEntryStepStep_refused {d : Nat} (h : pwrRefuser b b.pwr.step bar4 = some (d, false)) :
    pwrEntryStepStep bar4 b = pwrAbandon (some d) b := by
  simp [pwrEntryStepStep, he, h7, h]

theorem pwrEntryStepStep_waited {d u : Nat} (h : pwrRefuser b b.pwr.step bar4 = some (d, true))
    (hu : (if b.pwr.step = 1 then b.pwr.reqT0 else some b.pwr.stepAt) = some u) :
    pwrEntryStepStep bar4 b = pwrAbandon (some d) (atTime (u + parDur b 0xF004 msU) b) := by
  simp [pwrEntryStepStep, he, h7, h, hu]

omit h7 in
theorem pwrEntryStepStep_waits {d : Nat} (h : pwrRefuser b b.pwr.step bar4 = some (d, true)) (h1 : b.pwr.step = 1)
    (hr : b.pwr.reqT0 = none) : pwrEntryStepStep bar4 b = b := by
  rw [h1] at h
  simp [pwrEntryStepStep, he, h1, h, hr]

variable (h : pwrRefuser b b.pwr.step bar4 = none)
include h

theorem pwrEntryStepStep_hold (ht : b.pwr.target = .hold) : pwrEntryStepStep bar4 b = b := by
  simp [pwrEntryStepStep, he, h7, h, ht]

/-- The frames under way at step 4 are dropped. -/
def framesDropped (b : Block) : Block :=
  if b.pwr.step = 4 then forEach (b.ports.map (·.1)) (fun p => modPort p fun y => { y with frames := [] }) b else b

omit he h7 h in
theorem framesDropped_reads {α : Type} (p : Block → α) (hp : ∀ t po, p { t with ports := po } = p t) : p (framesDropped b) = p b := by
  unfold framesDropped
  split
  · exact kept_forEach p _ (fun q t => hp t _) _ _
  · rfl

theorem pwrEntryStepStep_next (ht : b.pwr.target ≠ .hold) : pwrEntryStepStep bar4 b =
    pwrStepDone (stepDomains (framesDropped b) b.pwr.step) (framesDropped b) := by
  rw [pwrEntryStepStep, if_neg (not_not.2 he), if_neg h7, h]
  exact if_neg ht

end

/-- The domains of a step are those of the model and of the ports that failed. -/
theorem stepDomains_congr {b c : Block} (hm : c.model = b.model) (hr : c.rst = b.rst) (k : Nat) : stepDomains c k = stepDomains b k := by
  have hu : ∀ g, pgPowered c g = pgPowered b g := fun g => by
    unfold pgPowered portUsed portWord
    rw [hr, hm]
  unfold stepDomains
  simp only [hu]

/-- The next step begins once the domains of this one have stopped. -/
theorem pwrStepDone_frames (b : Block) : pwrStepDone (stepDomains (framesDropped b) b.pwr.step) (framesDropped b) =
    (let t := { framesDropped b with pwr := { b.pwr with
      domStopped := b.pwr.domStopped ||| maskOf (stepDomains b b.pwr.step), step := b.pwr.step + 1, stepAt := b.now } }
     if b.pwr.woken.isSome then pwrAbandon none t else t) := by
  have h1 : (framesDropped b).pwr = b.pwr := framesDropped_reads Block.pwr fun _ _ => rfl
  have h2 : (framesDropped b).now = b.now := framesDropped_reads Block.now fun _ _ => rfl
  rw [stepDomains_congr (framesDropped_reads Block.model fun _ _ => rfl) (framesDropped_reads Block.rst fun _ _ => rfl),
    ← h1, ← h2]
  rfl

/-! ### Wake sources (R704, R708) -/

theorem pwrWakeStep_eq (k : Nat) (b : Block) : pwrWakeStep k b =
    if decide (1 ≤ k ∧ k ≤ 5) && bitAt (parN b 0xF003) (k - 1) then
      match b.pwr.phase with
      | .entering => if b.pwr.target = .hold then b else { b with pwr := { b.pwr with woken := b.pwr.woken <|> some k } }
      | .steady => if b.pwr.state = .run ∨ b.pwr.state = .hold then b else
        driveVdd (if b.si.vddSet = 0 then 800000 else b.si.vddSet) { b with pwr := { b.pwr with
          phase := .waking, wakeCause := k, wakeFrom := b.pwr.state, wakeTo := .run, wakeAt := b.now } }
      | _ => b
    else b := by
  unfold pwrWakeStep matrixOn
  cases hon : decide (1 ≤ k ∧ k ≤ 5) && bitAt (parN b 0xF003) (k - 1) with
  | false => rfl
  | true =>
    cases b.pwr.phase with
    | steady => simp; rfl
    | _ => rfl

/-- Settles O39: power-off, the four requests by the state in force, the steps of an entry and the wake sources. -/
theorem powerRequestsAndTheEntrySteps : Obligations.power_requests_and_the_entry_steps := by
  refine ⟨powerOff_spec, fun s hl => ⟨fun c d hc => ?_, fun bar4 => ⟨fun h => act_ended hl rfl (pwrEntryStepStep_idle bar4 h), fun he h7 => ?_,
    fun he h7 ab hab => ?_⟩, fun k hk => ?_⟩⟩
  · have hx : ∀ {b : Block}, pwrRequest d s.toBlock = b → exec c s = .next (ended s b) := fun e => by
      simp only [List.mem_cons, Prod.mk.injEq, List.not_mem_nil, or_false] at hc
      rcases hc with ⟨rfl, rfl⟩ | ⟨rfl, rfl⟩ | ⟨rfl, rfl⟩ | ⟨rfl, rfl⟩ <;> exact act_ended hl rfl e
    refine ⟨fun h => hx (pwrRequest_before d h), fun hu h => hx (pwrRequest_busy hu h), fun hu hs ht => ⟨fun h => hx (pwrRequest_already hu hs ht h),
      fun h hb => hx (pwrRequest_refused hu hs ht h hb), fun h hb => ⟨fun ho hd => hx (pwrRequest_enters hu hs ht h hb ho hd), fun ho hd => ?_,
      fun ho hd => ?_, fun ho hd => hx (pwrRequest_wakes hu hs ht h hb ho hd)⟩⟩⟩
    · subst hd; exact hx (pwrRequest_resumes hu hs ht hb ho)
    · subst hd; exact hx (pwrRequest_switchesOff hu hs ht hb ho)
  · refine act_ended hl rfl ((pwrEntryStepStep_powerOff bar4 he h7).trans ?_)
    cases s.pwr.woken with
    | none => rfl
    | some k =>
      obtain ⟨v, hv, -, -, -, -, -, -, -, -, -, hn⟩ := powerOff_spec s.toBlock
      have ht : (powerOff s.toBlock).pwr.state = s.pwr.target := by rw [hv]
      exact pwrWakeStart_eq .run k ht hn
  · subst hab
    refine ⟨fun d h => act_ended hl rfl (pwrEntryStepStep_refused bar4 he h7 h),
      fun d u h hu => act_ended hl rfl (pwrEntryStepStep_waited bar4 he h7 h hu),
      fun ⟨d, h⟩ h1 hr => act_ended hl rfl (pwrEntryStepStep_waits bar4 he h h1 hr),
      fun h ht => act_ended hl rfl (pwrEntryStepStep_hold bar4 he h7 h ht),
      fun h ht => ⟨_, rfl, act_ended hl rfl ((pwrEntryStepStep_next bar4 he h7 h ht).trans (pwrStepDone_frames _))⟩⟩
  · exact act_ended (i := .pwrWake k) hl (decide_eq_true hk) (pwrWakeStep_eq k _)

/-! ### Wake (R708 to R716) -/

theorem wakeCompleteStep_idle {b : Block} (f : Nat) (h : b.pwr.phase ≠ .waking) : wakeCompleteStep f b = b := if_pos h

/-- R711 to R716: the stages of a completed wake, each named as in the model. -/
theorem wakeCompleteStep_stages {b : Block} {f bad lost : Nat} {b1 c d e g : Block} (h : b.pwr.phase = .waking)
    (hbad : bad = f &&& b.pwr.retained) (hlost : lost = clearMask 8191 (clearMask b.pwr.retained bad))
    (h1 : b1 = raiseIf (bad ≠ 0) evRetFail { b with
      mem := b.mem.filter (fun c => !(match bankOfAddr c.1 with | some k => bitAt lost k | none => false)),
      pwr := { b.pwr with retFail := b.pwr.retFail ||| bad, retained := 0 } })
    (hc : c = loseQueues lost (if bits bad 4 8 ≠ 0 then recBankFail (bits bad 4 8) b1 else b1))
    (hd : d = if c.pwr.wakeFrom = .off then dropSet c else if lost &&& 0x1007 ≠ 0 then reapplySet (bitAt lost 12) c else c)
    (he : e = pwrSetState d.pwr.wakeTo { d with
        adc := { d.adc with units := (upto 4).map fun u => (u, { adcUnit d u with on := true, rotAt := d.now, refFell := d.now }) },
        pwr := { d.pwr with phase := .steady, domOn := usedDomains d, suppressed := true } })
    (hg : g = forEach ports128 (fun p t => if portUsed t p && (port t p).st = .dark && !(port t p).forced && !bitAt t.rst.pgFailed (p / 16)
        then enterSeek p t else t) e) :
    wakeCompleteStep f b = tripAfresh (if g.tw.role = .offline ∧ parB g 0xC000 then setRole .wait { g with tw := { g.tw with waitAt := g.now } } else g) := by
  subst hg he
  rw [wakeCompleteStep, if_neg (not_not.2 h)]
  subst hbad hlost
  have h1' : b1 = raiseIf (f &&& b.pwr.retained ≠ 0) evRetFail (modPwr (fun x => { x with retFail := x.retFail ||| (f &&& b.pwr.retained), retained := 0 })
    (zeroBanks (clearMask (2 ^ 13 - 1) (clearMask b.pwr.retained (f &&& b.pwr.retained))) b)) := h1
  rw [h1'] at hc
  subst hc
  subst hd
  rfl

/-- R712: a bank that was lost reads zero, every other address as before. -/
theorem memRead_banksZeroed (lost : Nat) (l : List Host.Cell) (a : Nat) :
    (∀ k, bankOfAddr a = some k → bitAt lost k = true →
      memRead (l.filter fun c => !(match bankOfAddr c.1 with | some k => bitAt lost k | none => false)) a = 0#8) ∧
    ((∀ k, bankOfAddr a = some k → bitAt lost k = false) →
      memRead (l.filter fun c => !(match bankOfAddr c.1 with | some k => bitAt lost k | none => false)) a = memRead l a) := by
  refine ⟨fun k hk hl => memRead_filter_dropped (fun j => !(match bankOfAddr j with | some k => bitAt lost k | none => false)) l a ?_,
    fun h => memRead_filter_kept (fun j => !(match bankOfAddr j with | some k => bitAt lost k | none => false)) l a ?_⟩
  · rw [hk]; simp [hl]
  · cases hb : bankOfAddr a with
    | none => rfl
    | some k => simp [h k hb]

/-! ### The arbiter (R723) -/

/-- The estimates of the domains of Table 19-2 that a list brings, the last one of a domain counting. -/
def domEstimates (doms : List (Nat × Nat)) : Tab Nat :=
  (doms.filter fun x => decide (x.1 < 30)).foldl (fun t x => tset 0 t x.1 (min x.2 0xFFFF)) ([] : Tab Nat)

theorem tget_estimates_absent (l : List (Nat × Nat)) (t : Tab Nat) {d : Nat} (h : ∀ w ∈ l, w.1 ≠ d) :
    tget 0 (l.foldl (fun t x => tset 0 t x.1 (min x.2 0xFFFF)) t) d = tget 0 t d := by
  induction l generalizing t with
  | nil => rfl
  | cons x l ih =>
    rw [List.foldl_cons, ih _ fun w hw => h w (List.mem_cons_of_mem _ hw), tget_tset_ne _ _ _ (h x (List.mem_cons_self ..)).symm]

theorem tget_domEstimates_absent {doms : List (Nat × Nat)} {d : Nat} (h : (∀ w ∈ doms, w.1 ≠ d) ∨ 30 ≤ d) :
    tget 0 (domEstimates doms) d = 0 := by
  refine tget_estimates_absent _ [] fun w hw e => ?_
  obtain ⟨hm, hlt⟩ := List.mem_filter.1 hw
  rcases h with h | h
  · exact h w hm e
  · have : w.1 < 30 := of_decide_eq_true hlt
    omega

theorem tget_domEstimates_last {l r : List (Nat × Nat)} {d v : Nat} (hd : d < 30) (h : ∀ w ∈ r, w.1 ≠ d) :
    tget 0 (domEstimates (l ++ (d, v) :: r)) d = min v 65535 := by
  unfold domEstimates
  rw [List.filter_append, List.filter_cons_of_pos (by simpa using hd), List.foldl_append, List.foldl_cons,
    tget_estimates_absent _ _ fun w hw => h w (List.mem_filter.1 hw).1, tget_tset_same]

section
variable (b : Block) (p : Nat) (dom : Tab Nat)

/-- Domains over their ceilings. -/
def overCeilings : Nat := maskOf ((upto 30).filter fun d => qlt (centiW (parW b (0xF140 + d))) (qi (tget (0 : Nat) dom d : Nat)))

/-- The estimate asks for a higher level. -/
def estUp : Bool := qlt (qsub (centiW (parW b 0xF000)) (centiW (parW b 0xF001))) (qi p) || overCeilings b dom ≠ 0

/-- The estimate is one of those that lower the level. -/
def estLow : Bool := !estUp b p dom &&
  qlt (qi p) (qsub (centiW (parW b 0xF000)) (qmul (qi 2) (centiW (parW b 0xF001)))) &&
  (upto 30).all fun d => qlt (qi (tget (0 : Nat) dom d : Nat)) (centiW (parW b (0xF140 + d)))

/-- Estimates in a row that lower the level. -/
def estCount : Nat := if estLow b p dom then b.pwr.lowCnt + 1 else 0

/-- The level after an estimate. -/
def estLevel : Nat := if estUp b p dom then min 8 (b.pwr.throttle + 1) else if 10 ≤ estCount b p dom then b.pwr.throttle - 1 else b.pwr.throttle

/-- The power registers after an estimate. -/
def estimated : PwrSt := { b.pwr with
  pEst := p, pMax := max p b.pwr.pMax, throttle := estLevel b p dom
  lowCnt := if 10 ≤ estCount b p dom then 0 else estCount b p dom
  domP := dom, overCeil := overCeilings b dom
  overFrom := if qlt (centiW (parW b 0xF000)) (qi p) && estLevel b p dom = 8 then (b.pwr.overFrom <|> some b.now) else none
  excess := b.pwr.excess && (qlt (centiW (parW b 0xF000)) (qi p) && estLevel b p dom = 8) }

theorem powerEstimateStep_eq (est : Nat) (doms : List (Nat × Nat)) : powerEstimateStep est doms b =
    raiseIf (b.pwr.throttle = 0 && estLevel b (min est 65535) (domEstimates doms) ≠ 0) evPwrThrottle
      { b with pwr := estimated b (min est 65535) (domEstimates doms) } := rfl

variable {b p dom}

theorem bitAt_overCeilings {d : Nat} (hd : d < 30) :
    bitAt (overCeilings b dom) d = true ↔ qlt (centiW (parW b (0xF140 + d))) (qi (tget (0 : Nat) dom d : Nat)) = true := by
  rw [bitAt, overCeilings, testBit_maskOf, decide_eq_true_iff, List.mem_filter, mem_upto]
  exact and_iff_right hd

theorem estUp_of (h : qlt (qsub (centiW (parW b 0xF000)) (centiW (parW b 0xF001))) (qi p) = true ∨ overCeilings b dom ≠ 0) :
    estUp b p dom = true := by
  rcases h with h | h <;> simp [estUp, h]

theorem estUp_eq_false (h : qlt (qsub (centiW (parW b 0xF000)) (centiW (parW b 0xF001))) (qi p) = false) (ho : overCeilings b dom = 0) :
    estUp b p dom = false := by
  simp [estUp, h, ho]

theorem estimated_up (h : estUp b p dom = true) : estLevel b p dom = min 8 (b.pwr.throttle + 1) ∧ (estimated b p dom).lowCnt = 0 := by
  simp [estLevel, estimated, estCount, estLow, h]

theorem estimated_low (h : estUp b p dom = false)
    (h2 : qlt (qi p) (qsub (centiW (parW b 0xF000)) (qmul (qi 2) (centiW (parW b 0xF001)))) = true)
    (ha : ((upto 30).all fun d => qlt (qi (tget (0 : Nat) dom d : Nat)) (centiW (parW b (0xF140 + d)))) = true) :
    (10 ≤ b.pwr.lowCnt + 1 → estLevel b p dom = b.pwr.throttle - 1 ∧ (estimated b p dom).lowCnt = 0) ∧
      (b.pwr.lowCnt + 1 < 10 → estLevel b p dom = b.pwr.throttle ∧ (estimated b p dom).lowCnt = b.pwr.lowCnt + 1) := by
  have hc : estCount b p dom = b.pwr.lowCnt + 1 := by rw [estCount, estLow, h, h2, ha]; rfl
  unfold estimated estLevel
  rw [hc, h, if_neg Bool.false_ne_true]
  exact ⟨fun h10 => ⟨if_pos h10, if_pos h10⟩, fun h10 => ⟨if_neg (by omega), if_neg (by omega)⟩⟩

theorem estimated_stays (h : estUp b p dom = false)
    (h2 : qlt (qi p) (qsub (centiW (parW b 0xF000)) (qmul (qi 2) (centiW (parW b 0xF001)))) = false) :
    estLevel b p dom = b.pwr.throttle ∧ (estimated b p dom).lowCnt = 0 := by
  simp [estLevel, estimated, estCount, estLow, h, h2]

end

theorem powerEstimateStep_frame (b : Block) (est : Nat) (doms : List (Nat × Nat)) :
    { powerEstimateStep est doms b with pwr := b.pwr, ev := b.ev } = b := by
  rw [powerEstimateStep_eq]
  exact raiseIf_keeps (fun t : Block => { t with pwr := b.pwr, ev := b.ev }) (fun _ _ => rfl) _ _ _

theorem pwr_powerEstimateStep (b : Block) (est : Nat) (doms : List (Nat × Nat)) :
    (powerEstimateStep est doms b).pwr = estimated b (min est 65535) (domEstimates doms) := by
  rw [powerEstimateStep_eq]
  exact raiseIf_keeps Block.pwr (fun _ _ => rfl) _ _ _

theorem raised_powerEstimateStep (b : Block) (est : Nat) (doms : List (Nat × Nat)) : (powerEstimateStep est doms b).ev.raised =
    if b.pwr.throttle = 0 ∧ estLevel b (min est 65535) (domEstimates doms) ≠ 0 then b.ev.raised ++ [evPwrThrottle] else b.ev.raised := by
  rw [powerEstimateStep_eq, raised_raiseIf]
  by_cases h : b.pwr.throttle = 0 ∧ estLevel b (min est 65535) (domEstimates doms) ≠ 0 <;> simp [h]

theorem pwrOverStep_eq (b : Block) : pwrOverStep b = match b.pwr.overFrom with
    | some t => if b.pwr.excess then b else raise evPwrThrottle { b with now := max b.now (t + 4000000), pwr := { b.pwr with excess := true } }
    | none => b := by
  unfold pwrOverStep
  cases b.pwr.overFrom <;> rfl

/-- Settles O40: the stages of a wake, the estimate's level by its three cases, the warm reset of a lost clock and the retries. -/
theorem wakeEstimatesAndTheRegulator : Obligations.wake_estimates_and_the_regulator := by
  intro s hl
  refine ⟨fun f h => act_ended hl rfl (wakeCompleteStep_idle f.toNat h), fun f h bad hbad lost hlost b hb => ?_, fun est doms p hp B hB M hM => ?_,
    act_ended hl rfl (pwrOverStep_eq _), ?_, fun ack h => act_ended hl rfl ?_, fun v h => ⟨act_ended hl rfl ?_, fun h3 => act_ended hl rfl ?_,
    fun h3 => act_ended hl rfl ?_⟩⟩
  · have hm : b.mem = _ := (congrArg Block.mem hb).trans (raiseIf_keeps Block.mem (fun _ _ => rfl) _ _ _)
    refine ⟨fun a => ?_, fun a => ?_, fun c hc d hd e he g hg => act_ended hl rfl (wakeCompleteStep_stages h hbad hlost hb hc hd he hg)⟩
    · rw [hm]; exact (memRead_banksZeroed lost s.mem a).1
    · rw [hm]; exact (memRead_banksZeroed lost s.mem a).2
  · subst hp hB hM
    have hpw := pwr_powerEstimateStep s.toBlock est doms
    have k : ∀ {α : Type} (q : PwrSt → α), q (powerEstimateStep est doms s.toBlock).pwr = q (estimated s.toBlock (min est 65535) (domEstimates doms)) :=
      fun q => congrArg q hpw
    refine ⟨domEstimates doms, estLevel s.toBlock (min est 65535) (domEstimates doms), _, act_ended hl rfl rfl,
      fun d h => tget_domEstimates_absent h, fun l r d v e hd h => e ▸ tget_domEstimates_last hd h, k (·.pEst), k (·.pMax), k (·.domP), k (·.throttle),
      fun d hd => ?_, fun h => ?_, fun h ho h2 ha => ?_, fun h ho h2 => ?_, k (·.overFrom), raised_powerEstimateStep _ _ _,
      powerEstimateStep_frame _ _ _⟩
    · rw [k (·.overCeil)]
      exact bitAt_overCeilings hd
    · rw [k (·.lowCnt)]; rw [k (·.overCeil)] at h; exact estimated_up (estUp_of h)
    · rw [k (·.lowCnt)]; rw [k (·.overCeil)] at ho; exact estimated_low (estUp_eq_false h ho) h2 ha
    · rw [k (·.lowCnt)]; rw [k (·.overCeil)] at ho; exact estimated_stays (estUp_eq_false h ho) h2
  · obtain ⟨h1, h2⟩ := live_pins hl
    have w := warmReset_internal (b := s.toBlock) h1 h2 (cause := 3) (by decide)
    obtain ⟨⟨hc, -, -, -, hw, -, hn⟩, he⟩ := w
    exact ⟨_, act_ended hl rfl (internalWarmReset_live hl 3), hn, hc, hw, rfl, rfl, rfl, rfl, rfl, rfl⟩
  · rw [vrRetryStep, h]
  · rw [vrRetryStep, h]; rfl
  · rw [vrRetryStep, h]; exact congrArg (fun x => { s.toBlock with pwr := x }) (if_pos h3)
  · rw [vrRetryStep, h]; exact congrArg (fun x => { s.toBlock with pwr := x }) (if_neg (Nat.not_lt.2 h3))

end Sys2Proof.Machine
end

section
/-!
PROOFS. The states of the Safe Pulse Block, its inputs, test pulses and repeated BLOCK sets (chapter 15).
-/

namespace Sys2Proof.Machine

/-! ### States and inputs (R541 to R548) -/

theorem spbSettle_running {b : Block} (h : b.spb.st ≠ .startup) : spbSettle b = spbEnter (spbStateOf b) b := if_neg h

theorem ackAmend_spb (cause item : Nat) (b : Block) : (ackAmend cause item b).spb = b.spb := by
  unfold ackAmend
  split
  · split <;> rfl
  · rfl

/-- R556: the cause, its item and the fabric cycle are noted; demands and faults stay. -/
theorem spbNew_spb (cause item : Nat) (b : Block) : (spbNew cause item b).spb.cause = cause ∧ (spbNew cause item b).spb.causeItem = item ∧
    (spbNew cause item b).spb.newAt = fabric b.now + 1 ∧ (spbNew cause item b).spb.siDem = b.spb.siDem := by
  rw [spbNew, ackAmend_spb]
  exact ⟨rfl, rfl, rfl, rfl⟩

section
variable {b : Block} {k : Nat} (he : siEnabled b k = true)
include he

/-- The discrepancy time of input k starts, goes on or ends. -/
def discNoted (k : Nat) (b : Block) : Block := { b with spb := { b.spb with
  disc := if siConsistent b k then tdel b.spb.disc k
    else if (tfind b.spb.disc k).isSome then b.spb.disc else tput k b.now b.spb.disc } }

theorem siEval_demands (hd : siDemandNow b k = true) : siEval k b =
    if bitAt b.spb.siDem k then discNoted k b
    else spbNew 1 k (modSpb (fun x => { x with siDem := setBit x.siDem k true }) (discNoted k b)) := by
  rw [siEval, he, if_neg (by decide)]
  exact if_pos hd

theorem siEval_ends (hd : siDemandNow b k = false) (hc : siConsistent b k = true) (ha : siAuto b k = true) :
    siEval k b = modSpb (fun x => { x with siDem := setBit x.siDem k false }) (discNoted k b) := by
  rw [siEval, he, if_neg (by decide)]
  refine (if_neg (ne_true_of_eq_false hd)).trans (if_pos ⟨ha, ?_⟩)
  show (siConsistent b k && !siDemandNow b k) = true
  rw [hc, hd]; rfl

theorem siEval_keeps (hd : siDemandNow b k = false) (ha : siAuto b k = false) : siEval k b = discNoted k b := by
  rw [siEval, he, if_neg (by decide)]
  exact (if_neg (ne_true_of_eq_false hd)).trans (if_neg fun h => ne_true_of_eq_false ha h.1)

end

/-! ### SI_CHANGE, test pulses and discrepancies -/

section
variable {b : Block} {k : Nat} {B c : Bool}

theorem siChangeStep_none (h : b.spb.st = .killed ∨ c = contactClosed b k B) : siChangeStep k B c b = b :=
  if_neg fun ⟨_, h1, h2⟩ => h.elim h1 h2

/-- R540: a change is taken no sooner than the filter's time after the one before it. -/
def filtered (k i : Nat) (b : Block) : Block :=
  { b with now := match tfind b.spb.contactAt i with | some t => max b.now (t + parDur b (0xB018 + k) 4000) | none => b.now }

theorem siChangeStep_taken (hk : k < 8) (h1 : b.spb.st ≠ .killed) (h2 : c ≠ contactClosed b k B) : siChangeStep k B c b =
    if inWindow (filtered k (2 * k + b2n B) b) B then filtered k (2 * k + b2n B) b
    else spbSettle (siEval k { filtered k (2 * k + b2n B) b with spb := { b.spb with
      siContact := setBit b.spb.siContact (2 * k + b2n B) c
      contactAt := tput (2 * k + b2n B) (filtered k (2 * k + b2n B) b).now b.spb.contactAt } }) := by
  rw [siChangeStep, if_pos ⟨hk, h1, h2⟩]
  unfold filtered
  dsimp only
  cases tfind b.spb.contactAt (2 * k + b2n B) <;> rfl

theorem testPulseStep_eq (B : Bool) (b : Block) {n : Nat} (hn : n = (match tfind b.spb.pulseAt (b2n B) with
      | some t => max b.now (t + 200000000)
      | none => match tfind b.spb.pulseAt (1 - b2n B) with | some t => max b.now (t + 100000000) | none => b.now)) :
    testPulseStep B b = { b with
      now := n, spb := { b.spb with pulseAt := tput (b2n B) n b.spb.pulseAt, window := setBit b.spb.window (b2n B) true } } := by
  subst hn
  rw [testPulseStep]
  cases tfind b.spb.pulseAt (b2n B) with
  | some t => rfl
  | none => cases tfind b.spb.pulseAt (1 - b2n B) <;> rfl

theorem testWindowEndStep_closed (o : Nat) (h : bitAt b.spb.window (b2n B) = false ∨ b.spb.st = .killed) : testWindowEndStep B o b = b :=
  if_neg fun ⟨h1, h2⟩ => h.elim (fun e => ne_true_of_eq_false e h1) h2

theorem testWindowEndStep_ends (o : Nat) (h1 : bitAt b.spb.window (b2n B) = true) (h2 : b.spb.st ≠ .killed) : testWindowEndStep B o b =
    spbSettle (forEach ((upto 8).filter fun k => siEnabled b k && contactClosed b k B && !bitAt o k)
      (fun k t => inputFault k 3 { t with spb := { t.spb with tpFail := setBit t.spb.tpFail (2 * k + b2n B) true } })
      { b with
        now := max b.now (tget 0 b.spb.pulseAt (b2n B) + 8000)
        spb := { b.spb with window := setBit b.spb.window (b2n B) false } }) :=
  if_pos ⟨h1, h2⟩

theorem discrepancyStep_none (h : tfind b.spb.disc k = none ∨ siEnabled b k = false ∨ b.spb.st = .killed) : discrepancyStep k b = b := by
  unfold discrepancyStep
  split
  · next t ht =>
    rcases h with h | h | h
    · rw [h] at ht; cases ht
    · simp [h]
    · simp [h]
  · rfl

theorem discrepancyStep_faults (hk : k < 8) {t : Nat} (ht : tfind b.spb.disc k = some t) (he : siEnabled b k = true) (hs : b.spb.st ≠ .killed) :
    discrepancyStep k b = spbSettle (inputFault k 2 { b with now := max b.now (t + parDur b (0xB010 + k) 4000000) }) := by
  rw [discrepancyStep, ht]
  exact if_pos ⟨hk, he, hs⟩

/-! ### Repeated BLOCK sets (R546, R547) -/

theorem blockRepeatStep_normal (h : b.spb.st = .normal) : blockRepeatStep b = b := by rw [blockRepeatStep, h]

/-- The instant of the next BLOCK sets. -/
def repeatDue (b : Block) : Block :=
  { b with now := if b.spb.st = .killed then b.now else max b.now (b.spb.lastBlock + parDur b 0xB061 4000) }

theorem blockRepeatStep_repeats (h : b.spb.st ≠ .normal) : blockRepeatStep b = spbBlockSets (repeatDue b) := by
  unfold blockRepeatStep repeatDue
  cases hs : b.spb.st with
  | normal => exact absurd hs h
  | _ => rfl

end

/-- A port's state and the BLOCK sets it has sent. -/
def blockCount (b : Block) (p : Nat) : PState × Nat := ((port b p).st, (port b p).blockSets)

theorem blockCount_spbBlockSets {b : Block} (hn : (b.ports.map (·.1)).Nodup) {p : Nat} (hp : p ∈ b.ports.map (·.1)) :
    blockCount (spbBlockSets b) p =
      ((port b p).st, if (port b p).st = .dark then (port b p).blockSets else ((port b p).blockSets + 4) % 2 ^ 32) := by
  have same : ∀ k t, blockCount (blockPort k t) k = ((blockCount t k).1, if (blockCount t k).1 = .dark then (blockCount t k).2 else ((blockCount t k).2 + 4) % 2 ^ 32) :=
    fun k t => by
      unfold blockPort blockCount
      by_cases h : (port t k).st = .dark
      · simp [h]
      · simp [h, port_modPort_same]
  have other : ∀ j k t, j ≠ k → blockCount (blockPort k t) j = blockCount t j := fun j k t h => by
    unfold blockPort blockCount
    split
    · rfl
    · rw [port_modPort_ne _ _ h]
  have e := read_forEach blockCount blockPort (fun x => (x.1, if x.1 = .dark then x.2 else (x.2 + 4) % 2 ^ 32)) same other
    (b.ports.map (·.1)) hn (modSpb (fun x => { x with lastBlock := b.now }) b) p
  rw [if_pos hp] at e
  exact e

/-- Settles O43: the state that causes and inputs give, the inputs by what they read, and each command by its cases. -/
theorem theSafePulseBlockAndItsInputs : Obligations.the_safe_pulse_block_and_its_inputs := by
  refine ⟨fun b h => ?_, fun b k he => ⟨fun hd => ?_, fun hd hc ha => ?_, fun hd ha => ?_⟩, fun s hl => ⟨fun k B c hk i hi => ?_, fun B i hi n hn => ?_, fun k hk => ?_,
    fun h => act_ended hl rfl (blockRepeatStep_normal h), fun h => ?_⟩⟩
  · obtain ⟨h1, h2, h3, h4, h5, h6⟩ := spbEnter_spec (spbStateOf b) b
    rw [spbSettle_running h, h1]
    exact ⟨rfl, h2, h3, fun e g => ⟨h6 (Ne.symm e) g, h4 (Ne.symm e) g⟩, fun e g => h5 (Ne.symm e) g⟩
  · rw [siEval_demands he hd]
    cases hb : bitAt b.spb.siDem k with
    | true => exact ⟨hb, fun h => by cases h⟩
    | false =>
      obtain ⟨h1, h2, h3, h4⟩ := spbNew_spb 1 k (modSpb (fun x => { x with siDem := setBit x.siDem k true }) (discNoted k b))
      refine ⟨?_, fun _ => ⟨h1, h2, h3⟩⟩
      rw [if_neg Bool.false_ne_true, h4]
      exact bitAt_setBit_same _ _ _
  · rw [siEval_ends he hd hc ha]; exact bitAt_setBit_same _ _ _
  · rw [siEval_keeps he hd ha]; rfl
  · subst hi
    have hw : (Instr.siChange k B c).wf = true := decide_eq_true hk
    refine ⟨fun h => act_ended hl hw (siChangeStep_none h), fun h1 h2 b hb => ?_⟩
    have hb' : b = filtered k (2 * k + b2n B) s.toBlock := hb
    have e := siChangeStep_taken hk h1 h2
    rw [← hb'] at e
    exact ⟨fun h => act_ended hl hw (e.trans (if_pos h)), fun h => act_ended hl hw (e.trans (if_neg (ne_true_of_eq_false h)))⟩
  · subst hi
    exact ⟨act_ended (i := .testPulse B) hl rfl (testPulseStep_eq B s.toBlock hn), fun o =>
      ⟨fun h => act_ended (i := .testWindowEnd B o) hl rfl (testWindowEndStep_closed o.toNat h),
        fun h1 h2 => act_ended (i := .testWindowEnd B o) hl rfl (testWindowEndStep_ends o.toNat h1 h2)⟩⟩
  · have hw : (Instr.discrepancy k).wf = true := decide_eq_true hk
    exact ⟨fun h => act_ended hl hw (discrepancyStep_none h), fun t ht he hs => act_ended hl hw (discrepancyStep_faults hk ht he hs)⟩
  · obtain ⟨hspb, -, -, -⟩ := spbBlockSets_spec (repeatDue s.toBlock)
    exact ⟨_, act_ended hl rfl (blockRepeatStep_repeats h), hspb, fun p hp hn =>
      congrArg Prod.snd (blockCount_spbBlockSets (b := repeatDue s.toBlock) hn hp)⟩

end Sys2Proof.Machine
end

section
/-!
PROOFS. The host commands of the converter sequence (R505, R516, R521, R525, R526, R531, R532).
-/

namespace Sys2Proof.Machine

/-! ### The result register and ENERGIZE -/

theorem raised_seqResult (k : Nat) (b : Block) : (seqResult k b).ev.raised = b.ev.raised ++ (if 2 ≤ k then [evSeqRefused] else []) := by
  rw [seqResult, raised_raiseIf]
  by_cases h : 2 ≤ k <;> simp [h]

/-- A result reaches the sequence and the events only. -/
theorem seqResult_reads {α : Type} (p : Block → α) (hp : ∀ t q e, p { t with seq := q, ev := e } = p t) (k : Nat) (b : Block) :
    p (seqResult k b) = p b := by
  obtain ⟨-, -, -, -, -, h⟩ := seqResult_spec k b
  rw [← hp (seqResult k b) b.seq b.ev, h b.ev]

theorem energizeRefusal_eq (b : Block) : energizeRefusal b =
    (if b.seq.state ≠ .ready ∨ b.pwr.state ≠ .run ∨ b.rst.debugOpen = true then 2 else if isActive b = false then 3
        else if scClosed b (mainAux b) = true ∨ scUnrel b (mainAux b) = true ∨ scClosed b (bypassAux b) = true ∨
          scUnrel b (bypassAux b) = true then 4
        else if permitOk b = false then 5 else if spbDemands b = true then 6 else if globalTripLatched b = true then 7 else 0) := by
  have hopen : (!(!scClosed b (mainAux b) && !scUnrel b (mainAux b) && (!scClosed b (bypassAux b) && !scUnrel b (bypassAux b)))) = true ↔
      (scClosed b (mainAux b) = true ∨ scUnrel b (mainAux b) = true ∨ scClosed b (bypassAux b) = true ∨ scUnrel b (bypassAux b) = true) := by
    cases scClosed b (mainAux b) <;> cases scUnrel b (mainAux b) <;> cases scClosed b (bypassAux b) <;> cases scUnrel b (bypassAux b) <;> decide
  simp only [energizeRefusal, hopen, Bool.not_eq_true']

/-- The sequence at the begin of an energisation (R517). -/
def energizing (b : Block) (q : SeqSt) : SeqSt := { q with
  step := 1, stepAt := b.now, mainConfirmed := none, bypassConfirmed := none, discoveryEnded := false,
  checkCells := false, mainOffAt := none, opening := none, tripMain := false, stuck := setBit q.stuck 0 false }

/-- The block once the energisation has begun, before its first output. -/
def energizeBegun (b : Block) : Block :=
  let t := { setConv .energize b with
    seq := energizing (setConv .energize b) (setConv .energize b).seq
    cells := (setConv .energize b).cells.map fun (g, c) => (g, { c with everDone := c.calA.done || c.calB.done }) }
  forEach (upto 12) (fun a => modArm a fun x => { x with blockCause := 0 }) t

theorem energizeStep_refused {b : Block} (h : energizeRefusal b ≠ 0) : energizeStep b = seqResult (energizeRefusal b) b := if_pos h

theorem energizeStep_begins {b : Block} (h : energizeRefusal b = 0) : energizeStep b =
    seqResult 0 (driveCmd (cmdMain (energizeBegun b)) true (energizeBegun b)) := if_neg (not_not.2 h)

/-- What an energisation that begins has changed: the sequence, the block causes, the events and the cells' notes. -/
theorem energizeBegun_spec {b : Block} (h : b.seq.state = .ready) : (energizeBegun b).seq = energizing b { b.seq with state := .energize } ∧
    evSeqState ∈ (energizeBegun b).ev.raised ∧ (∀ a, a < 12 → arm (energizeBegun b) a = { arm b a with blockCause := 0 }) ∧
    ∀ q l e c, { energizeBegun b with seq := q, arms := l, ev := e, cells := c } = { b with seq := q, arms := l, ev := e, cells := c } := by
  have hc : setConv .energize b = raise evSeqState { b with seq := { b.seq with state := .energize } } := if_neg (by rw [h]; decide)
  unfold energizeBegun
  rw [hc]
  refine ⟨kept_forEach Block.seq _ (fun _ _ => ?_) _ _, ?_, fun a ha => ?_, fun q l e c =>
    (kept_forEach (fun t : Block => { t with seq := q, arms := l, ev := e, cells := c }) _ (fun _ _ => ?_) _ _)⟩
  · rfl
  · rw [kept_forEach Block.ev _ (fun _ _ => by rfl) _ _]; exact mem_raised_raise_self _ _
  · rw [arm_forEach, if_pos ha]; rfl
  · rfl

/-- R516, R517: what ENERGIZE leaves where nothing refuses it. -/
theorem energizeStep_spec {b c : Block} (h : energizeRefusal b = 0)
    (hc : c = seqResult 0 (driveCmd (cmdMain (energizeBegun b)) true (energizeBegun b)) := by rfl) :
    c.seq.state = .energize ∧ c.seq.step = 1 ∧ c.seq.stepAt = b.now ∧ c.seq.cmdResult = 0 ∧
    c.seq.mainConfirmed = none ∧ c.seq.bypassConfirmed = none ∧ c.seq.discoveryEnded = false ∧ c.seq.tripMain = false ∧
    bitAt c.seq.cmdLevel (cmdMain b) = !bitAt b.trip.opened (cmdMain b) ∧ (∀ a, a < 12 → arm c a = { arm b a with blockCause := 0 }) ∧
    evSeqState ∈ c.ev.raised ∧ { c with seq := b.seq, arms := b.arms, ev := b.ev, cells := b.cells } = b := by
  have hs : b.seq.state = .ready := by
    by_contra hs
    have e : energizeRefusal b = 2 := if_pos (.inl hs)
    rw [e] at h; cases h
  obtain ⟨hseq, hev, harm, hrest⟩ := energizeBegun_spec hs
  generalize energizeBegun b = t at hc hseq hev harm hrest
  have k : ∀ {α : Type} (p : Block → α), (∀ x q l e c, p { x with seq := q, arms := l, ev := e, cells := c } = p x) → p t = p b :=
    fun p hp => by rw [← hp t b.seq b.arms b.ev b.cells, hrest]
  have hmain : cmdMain t = cmdMain b := congrArg BitVec.toNat (parW_congr (k Block.par fun _ _ _ _ _ => rfl) _)
  have htrip : t.trip = b.trip := k Block.trip fun _ _ _ _ _ => rfl
  obtain ⟨ha, -, -, -, hq, hr⟩ := seqResult_spec 0 (driveCmd (cmdMain t) true t)
  have hq' : c.seq = { energizing b { b.seq with state := .energize } with
      cmdResult := 0, refuseArm := 255
      cmdLevel := setBit b.seq.cmdLevel (cmdMain b) (!bitAt b.trip.opened (cmdMain b)) } := by
    rw [hc, hq]
    unfold driveCmd
    dsimp only
    rw [hseq, hmain, htrip]
    rfl
  rw [hq']
  refine ⟨rfl, rfl, rfl, rfl, rfl, rfl, rfl, rfl, bitAt_setBit_same _ _ _, fun a ha12 => ?_, ?_, ?_⟩
  · exact (arm_of_arms (c := t) (by rw [hc, ha]; rfl) a).trans (harm a ha12)
  · rw [hc, raised_seqResult]; exact List.mem_append.2 (.inl hev)
  · rw [hc]
    have e := congrArg (fun x : Block => { x with seq := b.seq, arms := b.arms, cells := b.cells }) (hr b.ev)
    exact Eq.trans e (hrest b.seq b.arms b.ev b.cells)

/-! ### ABORT -/

theorem abortStep_standby {b : Block} (h : isActive b = false) : abortStep b = seqResult 3 b := by
  rw [abortStep, h]; rfl

section
variable {b : Block} (ha : isActive b = true)
include ha

theorem abortStep_active : abortStep b = match b.seq.state with
    | .energize =>
      match stepFails b with
      | some k => seqFault k (stepItem b k) (seqResult 2 b)
      | none =>
      if b.seq.step = 3 ∧ closesNow b (bypassAux b) then seqResult 1 b else
      let t := { openBreakers b with seq := { (openBreakers b).seq with step := 0, stepAt := (openBreakers b).now } }
      seqResult 0 (if charged t then enterDown .discharge t else setConv .ready (portsToDiscovery t))
    | .charged | .run | .blocked => seqResult 1 b
    | _ => seqResult 2 b := by
  refine (if_neg (by rw [ha]; decide)).trans ?_
  cases b.seq.state with
  | energize => cases stepFails b <;> rfl
  | _ => rfl

theorem abortStep_fails {k : Nat} (hs : b.seq.state = .energize) (hf : stepFails b = some k) :
    abortStep b = seqFault k (stepItem b k) (seqResult 2 b) := by
  rw [abortStep_active ha, hs, hf]

theorem abortStep_confirmed (hs : b.seq.state = .energize) (hf : stepFails b = none) (h3 : b.seq.step = 3)
    (hc : closesNow b (bypassAux b) = true) : abortStep b = seqResult 1 b := by
  rw [abortStep_active ha, hs, hf]
  exact if_pos ⟨h3, hc⟩

theorem abortStep_stops (hs : b.seq.state = .energize) (hf : stepFails b = none)
    (hn : b.seq.step ≠ 3 ∨ closesNow b (bypassAux b) = false) {t : Block}
    (ht : t = { openBreakers b with seq := { (openBreakers b).seq with step := 0, stepAt := b.now } }) :
    abortStep b = seqResult 0 (if charged t then enterDown .discharge t else setConv .ready (portsToDiscovery t)) := by
  have hnow : (openBreakers b).now = b.now := by
    obtain ⟨L, m, o, y, e, -, -⟩ := openBreakers_spec b
    rw [e]
  subst ht
  rw [abortStep_active ha, hs, hf, ← hnow]
  exact if_neg fun ⟨h1, h2⟩ => hn.elim (fun h => h h1) fun h => ne_true_of_eq_false h h2

theorem abortStep_late (hs : b.seq.state = .charged ∨ b.seq.state = .run ∨ b.seq.state = .blocked) : abortStep b = seqResult 1 b := by
  rw [abortStep_active ha]
  rcases hs with hs | hs | hs <;> rw [hs]

theorem abortStep_badState (hs : b.seq.state = .await ∨ b.seq.state = .ready ∨ b.seq.state = .discharge ∨ b.seq.state = .fault) :
    abortStep b = seqResult 2 b := by
  rw [abortStep_active ha]
  rcases hs with hs | hs | hs | hs <;> rw [hs]

end

/-! ### DEBLOCK and DEBLOCK_ARM -/

theorem energised_iff (b : Block) : energised b = true ↔ b.seq.state = .charged ∨ b.seq.state = .run ∨ b.seq.state = .blocked := by
  simp [energised, or_assoc]

/-- The enabled arms that do not switch. -/
def blockedArms (b : Block) : List Nat := (enabledArms b).filter fun a => !switching b a

theorem nodup_blockedArms (b : Block) : (blockedArms b).Nodup := ((nodup_upto 12).filter _).filter _

/-- Every arm of a list notes its refusal reason. -/
def refusalsNoted (l : List Nat) (b : Block) : Block :=
  forEach l (fun a t => modArm a (fun x => { x with deblockRefuse := deblockRefusal b a }) t) b

theorem arm_refusalsNoted {l : List Nat} (hl : l.Nodup) (b : Block) (a : Nat) : arm (refusalsNoted l b) a =
    if a ∈ l then { arm b a with deblockRefuse := deblockRefusal b a } else arm b a :=
  read_forEach_indexed arm _ (fun a x => { x with deblockRefuse := deblockRefusal b a }) (fun _ _ => arm_modArm_same _ _ _)
    (fun _ _ _ h => arm_modArm_ne _ _ h) l hl b a

theorem arm_deblocksWait {l : List Nat} (hl : l.Nodup) (b : Block) (a : Nat) :
    arm (forEach l (fun a => modArm a fun x => { x with deblockWait := some true }) b) a =
      if a ∈ l then { arm b a with deblockWait := some true } else arm b a :=
  read_forEach arm (fun a => modArm a fun x => { x with deblockWait := some true }) (fun x => { x with deblockWait := some true })
    (fun _ _ => arm_modArm_same _ _ _) (fun _ _ _ h => arm_modArm_ne _ _ h) l hl b a

section
variable {b : Block} (ha : isActive b = true) (hd : deblockState b = true)
include ha hd

theorem deblockStep_eq : deblockStep b = match (blockedArms b).find? (fun a => deblockRefusal b a ≠ 0) with
    | some a => seqResult 8 (setRefuseArm a (refusalsNoted (blockedArms b) b))
    | none => seqResult 0 (forEach (blockedArms b) (fun a => modArm a fun x => { x with deblockWait := some true }) (refusalsNoted (blockedArms b) b)) :=
  (if_neg (by rw [ha]; decide)).trans ((if_neg (by rw [hd]; decide)).trans rfl)

theorem deblockStep_takes (h : ∀ a ∈ blockedArms b, deblockRefusal b a = 0) : deblockStep b =
    seqResult 0 (forEach (blockedArms b) (fun a => modArm a fun x => { x with deblockWait := some true }) (refusalsNoted (blockedArms b) b)) := by
  have hf : (blockedArms b).find? (fun a => deblockRefusal b a ≠ 0) = none := List.find?_eq_none.2 fun a hm => by simp [h a hm]
  rw [deblockStep_eq ha hd, hf]

theorem deblockStep_refuses {f : Nat} (hf : (blockedArms b).find? (fun a => deblockRefusal b a ≠ 0) = some f) :
    deblockStep b = seqResult 8 (setRefuseArm f (refusalsNoted (blockedArms b) b)) := by
  rw [deblockStep_eq ha hd, hf]

/-- The arm of DEBLOCK_ARM notes its refusal reason. -/
def refusalNoted (a : Nat) (b : Block) : Block :=
  if a < 12 then modArm a (fun x => { x with deblockRefuse := deblockRefusal b a }) b else b

omit ha hd in
theorem switching_refusalNoted (a : Nat) (b : Block) : switching (refusalNoted a b) a = switching b a := by
  unfold refusalNoted switching
  split
  · rw [arm_modArm_same]
  · rfl

omit ha hd in
theorem seq_refusalNoted (a : Nat) (b : Block) : (refusalNoted a b).seq = b.seq := by
  unfold refusalNoted; split <;> rfl

theorem deblockArmStep_eq (a : Nat) : deblockArmStep a b =
    if deblockRefusal b a ≠ 0 then seqResult 8 (setRefuseArm a (refusalNoted a b))
    else if switching b a then seqResult 0 (refusalNoted a b)
    else seqResult 0 (modArm a (fun x => { x with deblockWait := some false }) (refusalNoted a b)) := by
  rw [← switching_refusalNoted]
  exact (if_neg (by rw [ha]; decide)).trans (if_neg (by rw [hd]; decide))

end

/-! ### BLOCK, DISCHARGE and BLOCK_ARM -/

theorem deblock_standby {b : Block} (h : isActive b = false) (a : Nat) : deblockStep b = seqResult 3 b ∧ blockStep b = seqResult 3 b ∧
    dischargeStep b = seqResult 3 b ∧ faultResetStep b = seqResult 3 b ∧ deblockArmStep a b = seqResult 3 b ∧ blockArmStep a b = seqResult 3 b := by
  have hn : (!isActive b) = true := by rw [h]; rfl
  exact ⟨if_pos hn, if_pos hn, if_pos hn, if_pos hn, if_pos hn, if_pos hn⟩

section
variable {b : Block} (ha : isActive b = true)
include ha

theorem deblock_badState (hd : deblockState b = false) (a : Nat) : deblockStep b = seqResult 2 b ∧ deblockArmStep a b = seqResult 2 b := by
  have hn : ¬ (!isActive b) = true := by rw [ha]; decide
  have hs : (!deblockState b) = true := by rw [hd]; rfl
  exact ⟨(if_neg hn).trans (if_pos hs), (if_neg hn).trans (if_pos hs)⟩

theorem block_badState (he : energised b = false) (a : Nat) : blockStep b = seqResult 2 b ∧ dischargeStep b = seqResult 2 b ∧
    blockArmStep a b = seqResult 2 b := by
  have hn : ¬ (!isActive b) = true := by rw [ha]; decide
  exact ⟨(if_neg hn).trans (if_neg (ne_true_of_eq_false he)), (if_neg hn).trans (if_neg (ne_true_of_eq_false he)),
    (if_neg hn).trans (if_pos (by rw [he]; rfl))⟩

variable (he : energised b = true)
include he

theorem blockStep_blocks : blockStep b = hostBlock (enabledArms b) (seqResult 0 b) :=
  (if_neg (by rw [ha]; decide)).trans (if_pos he)

theorem dischargeStep_opens : dischargeStep b = enterDown .discharge (openBreakers
    (if b.seq.state = .run then hostBlock (enabledArms b) (seqResult 0 b) else seqResult 0 b)) :=
  (if_neg (by rw [ha]; decide)).trans (if_pos he)

theorem blockArmStep_blocks {a : Nat} (h : armEnabled b a = true) : blockArmStep a b = hostBlock [a] (seqResult 0 b) :=
  (if_neg (by rw [ha]; decide)).trans ((if_neg (by rw [he]; decide)).trans (if_neg (by rw [h]; decide)))

theorem blockArmStep_notEnabled {a : Nat} (h : armEnabled b a = false) : blockArmStep a b =
    seqResult 8 (setRefuseArm a (if a < 12 then modArm a (fun x => { x with deblockRefuse := 10 }) b else b)) :=
  (if_neg (by rw [ha]; decide)).trans ((if_neg (by rw [he]; decide)).trans (if_pos (by rw [h]; rfl)))

end

theorem armEnabled_seqResult (k : Nat) (b : Block) (a : Nat) : armEnabled (seqResult k b) a = armEnabled b a := by
  have hp : (seqResult k b).par = b.par := seqResult_reads Block.par (fun _ _ _ => rfl) k b
  unfold armEnabled parB parN
  rw [parW_congr hp]

/-! ### FAULT_RESET (R532) -/

/-- The first condition of R532 that fails before the contacts are looked at. -/
def resetRefusal (b : Block) : Nat := if cellsDischarged b = false then 9 else if breakersOpen b = false then 4 else 0

section
variable {b : Block} (ha : isActive b = true)
include ha

theorem faultResetStep_badState (h : b.seq.state ≠ .fault) : faultResetStep b = seqResult 2 b :=
  (if_neg (by rw [ha]; decide)).trans (if_pos h)

theorem faultResetStep_fault (h : b.seq.state = .fault) : faultResetStep b =
    if !cellsDischarged b then seqResult 9 b else if !breakersOpen b then seqResult 4 b
    else if (onesBelow (clearUnreliable b).seq.scUnrel 16).any (isRole (clearUnreliable b)) then seqResult 10 (clearUnreliable b)
    else seqResult 0 (setConv .ready { clearUnreliable b with seq := { (clearUnreliable b).seq with faultCause := 0, faultItem := 0 } }) :=
  (if_neg (by rw [ha]; decide)).trans (if_neg (not_not.2 h))

theorem faultResetStep_refused (h : b.seq.state = .fault) (hk : resetRefusal b ≠ 0) : faultResetStep b = seqResult (resetRefusal b) b := by
  rw [faultResetStep_fault ha h]
  unfold resetRefusal at hk ⊢
  cases hc : cellsDischarged b <;> cases ho : breakersOpen b <;> simp_all

theorem faultResetStep_clears (h : b.seq.state = .fault) (hk : resetRefusal b = 0) : faultResetStep b =
    if (onesBelow (clearUnreliable b).seq.scUnrel 16).any (isRole (clearUnreliable b)) then seqResult 10 (clearUnreliable b)
    else seqResult 0 (setConv .ready { clearUnreliable b with seq := { (clearUnreliable b).seq with faultCause := 0, faultItem := 0 } }) := by
  rw [faultResetStep_fault ha h]
  unfold resetRefusal at hk
  cases hc : cellsDischarged b with
  | false => rw [hc] at hk; cases hk
  | true =>
    cases ho : breakersOpen b with
    | false => rw [hc, ho] at hk; cases hk
    | true => rfl

end

theorem bitAt_clearUnreliable (b : Block) {c : Nat} (hc : c < 16) :
    bitAt (clearUnreliable b).seq.scUnrel c = true ↔ bitAt b.seq.scUnrel c = true ∧ rawStable b c = false := by
  show (maskOf _).testBit c = true ↔ _
  rw [testBit_maskOf, decide_eq_true_iff, List.mem_filter, mem_onesBelow, Bool.not_eq_true']
  exact and_congr_left fun _ => and_iff_right hc

/-- Settles O47: each command by the lemma of its case. -/
theorem theHostCommandsOfTheSequence : Obligations.the_host_commands_of_the_sequence := by
  refine ⟨fun k b => ⟨(seqResult_spec k b).2.2.2.2.1, raised_seqResult k b, (seqResult_spec k b).2.2.2.2.2⟩, fun s hl =>
    ⟨fun r hr => ?_, fun hn a ha16 c hc => ?_, fun ha => ⟨fun k hf hs => act_ended hl rfl (abortStep_fails ha hs hf),
      fun hf hs h3 hc => act_ended hl rfl (abortStep_confirmed ha hs hf h3 hc), fun b hb hs hf hn => act_ended hl rfl (abortStep_stops ha hs hf hn hb),
      fun hs => act_ended hl rfl (abortStep_late ha hs), fun hs => act_ended hl rfl (abortStep_badState ha hs), rfl, energised_iff _,
      fun hd a ha16 c hc => ?_, fun he a ha16 c hc => ?_, fun hd => ⟨fun l hl' => ?_, fun a ha16 b hb => ?_⟩, fun he => ⟨?_, act_ended hl rfl (dischargeStep_opens ha he),
        fun a ha16 => ⟨fun hen => ?_, fun hen => ?_⟩⟩, fun hs => act_ended hl rfl (faultResetStep_badState ha hs), fun hs k hk => ⟨fun h0 => ?_, fun h0 => ?_⟩⟩⟩⟩
  · rw [← energizeRefusal_eq] at hr
    subst hr
    exact ⟨fun h => act_ended hl rfl (energizeStep_refused h), fun h => ⟨_, act_ended hl rfl (energizeStep_begins h), energizeStep_spec h⟩⟩
  · obtain ⟨h1, h2, h3, h4, h5, h6⟩ := deblock_standby hn a
    simp only [List.mem_cons, List.not_mem_nil, or_false] at hc
    rcases hc with rfl | rfl | rfl | rfl | rfl | rfl | rfl
    · exact act_ended hl rfl (abortStep_standby hn)
    · exact act_ended hl rfl h1
    · exact act_ended hl rfl h2
    · exact act_ended hl rfl h3
    · exact act_ended hl rfl h4
    · exact act_ended (i := .deblockArm a) hl (decide_eq_true ha16) h5
    · exact act_ended (i := .blockArm a) hl (decide_eq_true ha16) h6
  · obtain ⟨h1, h2⟩ := deblock_badState ha hd a
    simp only [List.mem_cons, List.not_mem_nil, or_false] at hc
    rcases hc with rfl | rfl
    · exact act_ended hl rfl h1
    · exact act_ended (i := .deblockArm a) hl (decide_eq_true ha16) h2
  · obtain ⟨h1, h2, h3⟩ := block_badState ha he a
    simp only [List.mem_cons, List.not_mem_nil, or_false] at hc
    rcases hc with rfl | rfl | rfl
    · exact act_ended hl rfl h1
    · exact act_ended hl rfl h2
    · exact act_ended (i := .blockArm a) hl (decide_eq_true ha16) h3
  · subst hl'
    cases hf : (blockedArms s.toBlock).find? (fun a => deblockRefusal s.toBlock a ≠ 0) with
    | none =>
      have h0 : ∀ a ∈ blockedArms s.toBlock, deblockRefusal s.toBlock a = 0 := fun a hm => by simpa using List.find?_eq_none.1 hf a hm
      refine ⟨_, act_ended hl rfl (deblockStep_takes ha hd h0), fun _ => ⟨congrArg SeqSt.cmdResult (seqResult_spec 0 _).2.2.2.2.1, fun a hm => ?_⟩,
        fun f hf' => ?_, fun a hm => ?_⟩
      · rw [arm_of_arms (seqResult_spec 0 _).1, ← h0 a hm]
        exact (arm_deblocksWait (nodup_blockedArms _) _ a).trans ((if_pos hm).trans
          (congrArg (fun x => { x with deblockWait := some true }) ((arm_refusalsNoted (nodup_blockedArms _) _ a).trans (if_pos hm))))
      · exact absurd (hf.symm.trans hf') (by simp)
      · rw [arm_of_arms (seqResult_spec 0 _).1]
        exact (arm_deblocksWait (nodup_blockedArms _) _ a).trans ((if_neg hm).trans ((arm_refusalsNoted (nodup_blockedArms _) _ a).trans (if_neg hm)))
    | some f =>
      have hq := (seqResult_spec 8 (setRefuseArm f (refusalsNoted (blockedArms s.toBlock) s.toBlock))).2.2.2.2.1
      refine ⟨_, act_ended hl rfl (deblockStep_refuses ha hd hf), fun h0 => ?_, fun f' hf' => ?_, fun a hm => ?_⟩
      · obtain ⟨hm, hr⟩ := List.find?_some hf |> fun h => (⟨List.mem_of_find?_eq_some hf, h⟩ : f ∈ blockedArms s.toBlock ∧ _)
        exact absurd (h0 f hm) (of_decide_eq_true hr)
      · obtain rfl : f = f' := Option.some.inj (hf.symm.trans hf')
        refine ⟨congrArg SeqSt.cmdResult hq, congrArg SeqSt.refuseArm hq, fun a hm => ?_⟩
        rw [arm_of_arms (seqResult_spec 8 _).1]
        exact (arm_refusalsNoted (nodup_blockedArms _) _ a).trans (if_pos hm)
      · rw [arm_of_arms (seqResult_spec 8 _).1]
        exact (arm_refusalsNoted (nodup_blockedArms _) _ a).trans (if_neg hm)
  · have hw : (Instr.deblockArm a).wf = true := decide_eq_true ha16
    have e := deblockArmStep_eq ha hd a
    have hb' : b = refusalNoted a s.toBlock := hb
    rw [← hb'] at e
    exact ⟨fun h => act_ended hl hw (e.trans (if_pos h)),
      fun h1 h2 => act_ended hl hw (e.trans ((if_neg (not_not.2 h1)).trans (if_pos h2))),
      fun h1 h2 => act_ended hl hw (e.trans ((if_neg (not_not.2 h1)).trans (if_neg (ne_true_of_eq_false h2))))⟩
  · refine ⟨_, act_ended hl rfl (blockStep_blocks ha he), rfl, fun a ha12 hen => (hostBlock_spec _ _).2.1 a ?_ ((armEnabled_seqResult _ _ _).trans hen)⟩
    exact List.mem_filter.2 ⟨(mem_upto 12 a).2 ha12, hen⟩
  · exact ⟨_, act_ended (i := .blockArm a) hl (decide_eq_true ha16) (blockArmStep_blocks ha he hen), rfl,
      (hostBlock_spec _ _).2.1 a (List.mem_singleton_self a) ((armEnabled_seqResult _ _ _).trans hen)⟩
  · refine act_ended (i := .blockArm a) hl (decide_eq_true ha16) ((blockArmStep_notEnabled ha he hen).trans ?_)
    unfold setRefuseArm
    split <;> rfl
  · subst hk; exact act_ended hl rfl (faultResetStep_refused ha hs h0)
  · subst hk
    have e := faultResetStep_clears ha hs h0
    exact ⟨clearUnreliable s.toBlock, rfl, fun c hc => bitAt_clearUnreliable _ hc, fun h => act_ended hl rfl (e.trans (if_pos h)),
      fun h => act_ended hl rfl (e.trans (if_neg (ne_true_of_eq_false h)))⟩

end Sys2Proof.Machine
end

section
/-!
PROOFS. Faults of the converter sequence, the time limits of its steps and the opening order (R514 to R518, R530, R531).
-/

namespace Sys2Proof.Machine

/-! ### A fault cause (R530) -/

/-- A cause is the one kept: none was, or one of the same fabric cycle has a higher code. -/
abbrev faultFirst (cause : Nat) (b : Block) : Prop :=
  b.seq.faultCause = 0 ∨ (fabric b.seq.faultAt = fabric b.now ∧ cause < b.seq.faultCause)

/-- The cause is noted and raised. -/
def faultNoted (cause item : Nat) (b : Block) : Block := raise evSeqFault { b with seq := { b.seq with
  faultLast := cause
  faultAt := if faultFirst cause b then b.now else b.seq.faultAt
  faultCause := if faultFirst cause b then cause else b.seq.faultCause
  faultItem := if faultFirst cause b then item else b.seq.faultItem } }

/-- Codes that move the converter from every state. -/
abbrev faultHard (cause : Nat) : Prop := cause ≤ 4 ∨ cause = 11

/-- The converter is down, so that a cause that is not hard leaves its state. -/
abbrev faultDown (cause : Nat) (b : Block) : Prop :=
  b.seq.state = .fault ∨ (b.seq.state = .discharge ∧ ¬ (faultFirst cause b ∧ fabric b.seq.stepAt = fabric b.now))

/-- The state a cause leads to (R530). -/
def faultDest (cause : Nat) (b : Block) : ConvState :=
  if faultHard cause then .fault else if b.seq.state ≠ .ready ∧ charged b = true then .discharge else .fault

theorem seqFault_standby {b : Block} (h : isActive b = false) (cause item : Nat) : seqFault cause item b = b := if_pos (by rw [h]; rfl)

section
variable {b : Block} {cause item : Nat} (ha : isActive b = true)
include ha

theorem seqFault_stays (hc : ¬ faultHard cause) (hd : faultDown cause b) : seqFault cause item b = faultNoted cause item b := by
  rw [seqFault, if_neg (by rw [ha]; decide)]
  exact if_pos ⟨by simpa using hc, decide_eq_true (hd.imp_right (And.imp_right fun h => by rw [Bool.not_eq_true']; exact decide_eq_false h))⟩

theorem seqFault_down (h : faultHard cause ∨ ¬ faultDown cause b) : seqFault cause item b =
    enterDown (faultDest cause b) (openBreakers (blockArms (enabledArms b) 1 (faultNoted cause item b))) := by
  have hdest : faultDest cause b = if (!decide (faultHard cause)) = true ∧ b.seq.state ≠ .ready ∧ charged b = true then .discharge else .fault := by
    unfold faultDest
    by_cases hc : faultHard cause <;> simp [hc]
  rw [seqFault, if_neg (by rw [ha]; decide), hdest]
  refine if_neg fun ⟨h1, h2⟩ => ?_
  have h2' : faultDown cause b := (of_decide_eq_true h2).imp_right (And.imp_right fun h => of_decide_eq_false ((Bool.not_eq_true' _).mp h))
  rcases h with h | h
  · rw [decide_eq_true h] at h1; cases h1
  · exact h h2'

end

/-- What blocking the arms leaves of the sequence. -/
theorem seq_of_blockArms (l : List Nat) (c : Nat) (b : Block) : ∃ st r, (blockArms l c b).seq = { b.seq with state := st, refuseArm := r } := by
  have h : _ = _ := congrArg Block.seq (frozen_blockArms l c b)
  refine ⟨(blockArms l c b).seq.state, (blockArms l c b).seq.refuseArm, ?_⟩
  have e := congrArg (fun q : SeqSt => { q with state := (blockArms l c b).seq.state, refuseArm := (blockArms l c b).seq.refuseArm }) h
  exact e

theorem openBreakers_reads {α : Type} (p : Block → α) (hp : ∀ t q, p { t with seq := q } = p t) (b : Block) : p (openBreakers b) = p b := by
  obtain ⟨L, m, o, y, e, -, -⟩ := openBreakers_spec b
  rw [e]
  exact hp _ _

/-- The converter goes down: the arms blocked, the breakers opened and a state without switching entered (R530, R531). -/
def goesDown (st : ConvState) (b : Block) : Block := enterDown st (openBreakers (blockArms (enabledArms b) 1 b))

theorem goesDown_spec (st : ConvState) (b : Block) : (goesDown st b).seq.state = st ∧ (goesDown st b).seq.step = 0 ∧
    (goesDown st b).seq.faultLast = b.seq.faultLast ∧ (goesDown st b).seq.faultCause = b.seq.faultCause ∧
    (goesDown st b).seq.faultItem = b.seq.faultItem ∧ (∀ a, a < 12 → armEnabled b a = true → (arm (goesDown st b) a).sw = false) ∧
    bitAt (goesDown st b).seq.cmdLevel (cmdMain b) = false ∧
    (scClosed b (mainAux b) = false → bitAt (goesDown st b).seq.cmdLevel (cmdBypass b) = false) ∧
    { goesDown st b with seq := b.seq, arms := b.arms, ports := b.ports, cells := b.cells, ev := b.ev } = b := by
  generalize ht : blockArms (enabledArms b) 1 b = t
  have hg : goesDown st b = enterDown st (openBreakers t) := by rw [goesDown, ht]
  obtain ⟨s', r, hq⟩ := seq_of_blockArms (enabledArms b) 1 b
  have hf := frozen_blockArms (enabledArms b) 1 b
  obtain ⟨-, hpar, -, hsw, -⟩ := blockArms_spec (enabledArms b) 1 b
  rw [ht] at hq hf hpar hsw
  obtain ⟨L, m, o, y, e, hL, hLb⟩ := openBreakers_spec t
  obtain ⟨h1, h2, h3, h4, h5, h6, h7, h8, -⟩ := enterDown_spec st (openBreakers t)
  have hn : ∀ k, parN t k = parN b k := fun k => congrArg BitVec.toNat (parW_congr hpar k)
  have hmain : cmdMain t = cmdMain b := hn 0xA023
  have hbyp : cmdBypass t = cmdBypass b := hn 0xA024
  rw [hg]
  refine ⟨h1, h2, h4.trans ?_, h5.trans ?_, h6.trans ?_, fun a ha hen => ?_, ?_, fun hm => ?_, ?_⟩
  · rw [e]; show t.seq.faultLast = _; rw [hq]
  · rw [e]; show t.seq.faultCause = _; rw [hq]
  · rw [e]; show t.seq.faultItem = _; rw [hq]
  · rw [arm_of_arms h3, e]
    exact hsw a (List.mem_filter.2 ⟨(mem_upto 12 a).2 ha, hen⟩) hen
  · rw [h7, e, ← hmain]; exact hL
  · rw [h7, e, ← hbyp]
    have hs : scClosed t (mainAux t) = false := by
      have hst : t.seq.scState = b.seq.scState := by rw [hq]
      rw [← hm]
      show bitAt t.seq.scState (parN t 0xA020) = bitAt b.seq.scState (parN b 0xA020)
      rw [hst, hn]
    exact hLb hs
  · have k8 := congrArg (fun x : Block => { x with seq := b.seq, arms := b.arms, ports := b.ports, cells := b.cells, ev := b.ev }) h8
    have kf := congrArg (fun x : Block => { x with seq := b.seq, arms := b.arms, ports := b.ports, cells := b.cells, ev := b.ev }) hf
    have ke := congrArg (fun x : Block => { x with seq := b.seq, arms := b.arms, ports := b.ports, cells := b.cells, ev := b.ev }) e
    exact (Eq.trans k8 (Eq.trans ke kf) :)

theorem seqFault_goesDown {b : Block} {cause item : Nat} (ha : isActive b = true) (h : faultHard cause ∨ ¬ faultDown cause b) :
    seqFault cause item b = goesDown (faultDest cause b) (faultNoted cause item b) := seqFault_down ha h

/-- FAULT_LAST, FAULT_CAUSE and its item are those noted, whether or not the converter moves. -/
theorem seqFault_registers {b : Block} (ha : isActive b = true) (cause item : Nat) :
    (seqFault cause item b).seq.faultLast = (faultNoted cause item b).seq.faultLast ∧
    (seqFault cause item b).seq.faultCause = (faultNoted cause item b).seq.faultCause ∧
    (seqFault cause item b).seq.faultItem = (faultNoted cause item b).seq.faultItem := by
  by_cases h : faultHard cause ∨ ¬ faultDown cause b
  · obtain ⟨-, -, h1, h2, h3, -⟩ := goesDown_spec (faultDest cause b) (faultNoted cause item b)
    rw [seqFault_goesDown ha h]
    exact ⟨h1, h2, h3⟩
  · rw [seqFault_stays ha (fun g => h (.inl g)) (by by_contra g; exact h (.inr g))]
    exact ⟨rfl, rfl, rfl⟩

/-! ### The opening order and the time limits -/

/-- The contact, the output and the instant it went off that BREAKER_STUCK looks at, of BYPASS or of MAIN. -/
structure Breaker (b : Block) (y : Bool) (c : Nat) (on : Bool) (off k : Nat) : Prop where
  contact : c = if y = true then bypassAux b else mainAux b
  output : on = if y = true then bypassOn b else mainOn b
  wentOff : off = (if y = true then b.seq.bypassOffAt else b.seq.mainOffAt).getD 0
  bit : k = if y = true then 1 else 0

section
variable {b : Block} {y : Bool} {c off k : Nat} {on : Bool} (h : Breaker b y c on off k)
include h

theorem breakerStuckStep_faults (ha : isActive b = true) (h1 : b.seq.state ≠ .await) (h2 : on = false) (h3 : scClosed b c = true)
    (h4 : bitAt b.seq.stuck k = false) {t : Block} (ht : t = atTime (off + breakerTime b) b) :
    breakerStuckStep y b = seqFault 4 c { t with seq := { t.seq with stuck := setBit t.seq.stuck k true } } := by
  obtain ⟨rfl, rfl, rfl, rfl⟩ := h
  subst ht
  exact if_pos ⟨ha, h1, (Bool.not_eq_true' _).mpr h2, h3, (Bool.not_eq_true' _).mpr h4⟩

theorem breakerStuckStep_none (hn : b.seq.state = .await ∨ on = true ∨ scClosed b c = false ∨ bitAt b.seq.stuck k = true) :
    breakerStuckStep y b = b := by
  obtain ⟨rfl, rfl, rfl, rfl⟩ := h
  refine if_neg fun ⟨_, h1, h2, h3, h4⟩ => ?_
  rcases hn with hn | hn | hn | hn
  · exact h1 hn
  · exact ne_true_of_eq_false ((Bool.not_eq_true' _).mp h2) hn
  · exact ne_true_of_eq_false hn h3
  · exact ne_true_of_eq_false ((Bool.not_eq_true' _).mp h4) hn

end

section
variable {b : Block}

theorem timeLimits_standby (h : isActive b = false) (y : Bool) : mainConfirmTimeoutStep b = b ∧ bypassConfirmTimeoutStep b = b ∧
    chargeTimeoutStep b = b ∧ dischargeTimeoutStep b = b ∧ breakerStuckStep y b = b ∧ discoveryEndStep b = b ∧ bypassOpenStep b = b := by
  have hn : ∀ p : Prop, ¬ (isActive b = true ∧ p) := fun p ⟨g, _⟩ => ne_true_of_eq_false h g
  refine ⟨if_neg (hn _), if_neg (hn _), ?_, if_neg (hn _), if_neg (hn _), ?_, if_pos (by rw [h]; rfl)⟩
  · unfold chargeTimeoutStep; split
    · exact if_neg (hn _)
    · rfl
  · unfold discoveryEndStep; split
    · exact if_neg (hn _)
    · rfl

variable (ha : isActive b = true)

theorem chargeTimeoutStep_none (h : b.seq.mainConfirmed = none ∨ b.seq.state ≠ .energize ∨ b.seq.step ≠ 2) : chargeTimeoutStep b = b := by
  unfold chargeTimeoutStep
  split
  · next t ht =>
    refine if_neg fun ⟨_, h1, h2⟩ => ?_
    rcases h with h | h | h
    · rw [h] at ht; cases ht
    · exact h h1
    · exact h h2
  · rfl

theorem discoveryEndStep_none (h : b.seq.mainConfirmed = none ∨ b.seq.state ≠ .energize ∨ b.seq.discoveryEnded = true) :
    discoveryEndStep b = b := by
  unfold discoveryEndStep
  split
  · next t ht =>
    refine if_neg fun ⟨_, h1, h2⟩ => ?_
    rcases h with h | h | h
    · rw [h] at ht; cases ht
    · exact h h1
    · rw [h] at h2; cases h2
  · rfl

theorem bypassOpenStep_none (h : b.seq.opening = none) : bypassOpenStep b = b := by
  unfold bypassOpenStep
  split
  · rfl
  · rw [h]

include ha

theorem chargeTimeoutStep_faults {t : Nat} (ht : b.seq.mainConfirmed = some t) (h1 : b.seq.state = .energize) (h2 : b.seq.step = 2) :
    chargeTimeoutStep b = seqFault 10 0 (atTime (t + parDur b 0xA032 sU) b) := by
  rw [chargeTimeoutStep, ht]
  exact if_pos ⟨ha, h1, h2⟩

theorem discoveryEndStep_ends {t : Nat} (ht : b.seq.mainConfirmed = some t) (h1 : b.seq.state = .energize) (h2 : b.seq.discoveryEnded = false)
    {c d : Block} (hc : c = if discoveryComplete b = true then b else atTime (t + parDur b 0xA031 sU) b)
    (hd : d = forEach ((upto 128).filter (portUsed (forEach (c.cells.map (·.1)) discoveryFault c))) discoveryPort (forEach (c.cells.map (·.1)) discoveryFault c)) :
    discoveryEndStep b = closeBypass { d with seq := { d.seq with discoveryEnded := true, checkCells := true } } := by
  rw [discoveryEndStep, ht, hd, hc]
  exact if_pos ⟨ha, h1, by rw [h2]; rfl⟩

theorem bypassOpenStep_opens {t : Nat} (ht : b.seq.opening = some t) :
    bypassOpenStep b = dropBypass (if scClosed b (mainAux b) then atTime (t + breakerTime b) b else b) := by
  rw [bypassOpenStep, if_neg (by rw [ha]; decide), ht]

end

/-- Settles O48: a cause is noted, then stays or goes down; each time limit acts where its step is under way. -/
theorem aFaultTakesTheConverterDown : Obligations.a_fault_takes_the_converter_down := by
  refine ⟨fun cause item b => ⟨fun hn => seqFault_standby hn cause item, fun ha f hf => ?_⟩, fun s hl => ⟨fun hn y c hc => ?_, fun ha => ?_⟩⟩
  · subst hf
    obtain ⟨h1, h2, h3⟩ := seqFault_registers ha cause item
    refine ⟨h1, fun h => ⟨h2.trans (if_pos h), h3.trans (if_pos h)⟩, fun ⟨h0, hle⟩ => ?_, fun ⟨hc, hne, hd⟩ => ?_, fun h => ?_⟩
    · have hn : ¬ faultFirst cause b := fun h => h.elim h0 fun ⟨g1, g2⟩ => absurd (hle g1) (Nat.not_le.2 g2)
      exact ⟨h2.trans (if_neg hn), h3.trans (if_neg hn)⟩
    · have e := seqFault_stays (item := item) ha (fun g => g.elim (Nat.not_le.2 hc) hne) hd
      rw [e]
      exact ⟨rfl, rfl⟩
    · have h' : faultHard cause ∨ ¬ faultDown cause b := by
        rcases h with h | h | ⟨g1, g2⟩
        · exact .inl (.inl h)
        · exact .inl (.inr h)
        · exact .inr fun g => g.elim g1 fun ⟨g3, g4⟩ => g4 (g2 g3)
      obtain ⟨k1, k2, -, -, -, k3, k4, k5, k6⟩ := goesDown_spec (faultDest cause b) (faultNoted cause item b)
      rw [seqFault_goesDown ha h']
      have k7 := congrArg (fun x : Block => { x with seq := b.seq, ev := b.ev }) k6
      exact ⟨k1, k2, k3, k4, k5, k7⟩
  · obtain ⟨h1, h2, h3, h4, h5, h6, h7⟩ := timeLimits_standby hn y
    simp only [List.mem_cons, List.not_mem_nil, or_false] at hc
    rcases hc with rfl | rfl | rfl | rfl | rfl | rfl | rfl
    · exact act_ended hl rfl h1
    · exact act_ended hl rfl h2
    · exact act_ended hl rfl h3
    · exact act_ended hl rfl h4
    · exact act_ended (i := .breakerStuck y) hl rfl h5
    · exact act_ended hl rfl h6
    · exact act_ended hl rfl h7
  · refine ⟨fun h1 h2 => act_ended hl rfl (if_pos ⟨ha, h1, h2⟩), fun h => act_ended hl rfl (if_neg fun ⟨_, h1, h2⟩ => h.elim (· h1) (· h2)),
      fun h1 h2 => act_ended hl rfl (if_pos ⟨ha, h1, h2⟩), fun h => act_ended hl rfl (if_neg fun ⟨_, h1, h2⟩ => h.elim (· h1) (· h2)),
      fun t ht h1 h2 => act_ended hl rfl (chargeTimeoutStep_faults ha ht h1 h2), fun h => act_ended hl rfl (chargeTimeoutStep_none h),
      fun h => act_ended hl rfl (if_pos ⟨ha, h⟩), fun h => act_ended hl rfl (if_neg fun ⟨_, g⟩ => h g), fun y c on off k hc hon hoff hk => ⟨?_, ?_⟩,
      fun t ht h1 h2 c hc d hd => act_ended hl rfl (discoveryEndStep_ends ha ht h1 h2 hc hd), fun h => act_ended hl rfl (discoveryEndStep_none h),
      fun t ht => ⟨_, act_ended hl rfl (bypassOpenStep_opens ha ht), ?_⟩, fun h => act_ended hl rfl (bypassOpenStep_none h)⟩
    · exact fun h1 h2 h3 h4 b hb => act_ended (i := .breakerStuck y) hl rfl (breakerStuckStep_faults ⟨hc, hon, hoff, hk⟩ ha h1 h2 h3 h4 hb)
    · exact fun hn => act_ended (i := .breakerStuck y) hl rfl (breakerStuckStep_none ⟨hc, hon, hoff, hk⟩ hn)
    · cases hm : scClosed s.toBlock (mainAux s.toBlock) with
      | true => exact ⟨rfl, rfl, bitAt_setBit_same _ _ _, rfl⟩
      | false => exact ⟨rfl, rfl, bitAt_setBit_same _ _ _, rfl⟩

end Sys2Proof.Machine
end

section
/-!
PROOFS. Station contacts and CMD outputs (R507 to R511).
-/

namespace Sys2Proof.Machine

/-! ### Contacts (R507 to R509) -/

/-- The block once contact c is UNRELIABLE for a cause (R509). -/
def unreliableNoted (c k : Nat) (b : Block) : Block := raise evContactUnreliable { b with seq := { b.seq with
  scUnrel := setBit b.seq.scUnrel c true, contacts := tmod {} b.seq.contacts c fun x => { x with unrel := k } } }

theorem contactUnreliable_role {c : Nat} {b : Block} (k : Nat) (h : (c = mainAux b ∨ c = bypassAux b) ∧ b.seq.state ≠ .await ∧ b.seq.state ≠ .fault) :
    contactUnreliable c k b = seqFault k c (unreliableNoted c k b) := if_pos h

theorem contactUnreliable_other {c : Nat} {b : Block} (k : Nat) (h : (c ≠ mainAux b ∧ c ≠ bypassAux b) ∨ b.seq.state = .await ∨ b.seq.state = .fault) :
    contactUnreliable c k b = unreliableNoted c k b := by
  refine if_neg fun ⟨h1, h2, h3⟩ => ?_
  rcases h with ⟨g1, g2⟩ | h | h
  · exact h1.elim g1 g2
  · exact h2 h
  · exact h3 h

theorem dischargeCheck_none {b : Block} (h : b.seq.state ≠ .discharge) : dischargeCheck b = b := if_neg fun g => h g.2.1

/-- What a contact means for the sequence, in a unit that is active: its closing, then its opening, then the end of a discharge. -/
def contactCloses (c : Nat) (b : Block) : Block :=
  if c = mainAux b ∧ scClosed b c ∧ b.seq.state = .energize ∧ b.seq.step = 1 then
    { b with seq := { b.seq with step := 2, stepAt := b.now, mainConfirmed := some b.now } }
  else if c = bypassAux b ∧ scClosed b c ∧ b.seq.state = .energize ∧ b.seq.step = 3 then
    if stepFails b = some 6 then seqFault 6 c b else
    setConv .charged { b with seq := { b.seq with step := 0, stepAt := b.now, bypassConfirmed := some b.now } }
  else b

def contactOpens (c : Nat) (closed : Bool) (b : Block) : Block :=
  if c = mainAux b ∧ !closed then
    let s := if b.seq.opening.isSome then dropBypass b else b
    let s := { s with seq := { s.seq with stuck := setBit s.seq.stuck 0 false } }
    if s.seq.tripMain then seqFault 8 c { s with seq := { s.seq with tripMain := false, mainConfirmed := none } }
    else if s.seq.mainConfirmed.isSome ∧ onNow s (mainOn s) s.seq.mainOffAt then
      seqFault 7 c { s with seq := { s.seq with mainConfirmed := none } }
    else s
  else if c = bypassAux b ∧ !closed then
    let s := { b with seq := { b.seq with stuck := setBit b.seq.stuck 1 false } }
    if s.seq.bypassConfirmed.isSome ∧ onNow s (bypassOn s) s.seq.bypassOffAt then
      seqFault 3 c { s with seq := { s.seq with bypassConfirmed := none } }
    else s
  else b

theorem contactActs_active {b : Block} (ha : isActive b = true) (c : Nat) :
    contactActs c b = dischargeCheck (contactOpens c (scClosed b c) (contactCloses c b)) := if_neg (by rw [ha]; decide)

theorem contactActs_confirmsMain {b : Block} {c : Nat} (ha : isActive b = true) (hc : c = mainAux b) (hs : scClosed b c = true)
    (h1 : b.seq.state = .energize) (h2 : b.seq.step = 1) :
    contactActs c b = { b with seq := { b.seq with step := 2, stepAt := b.now, mainConfirmed := some b.now } } := by
  have e : contactCloses c b = { b with seq := { b.seq with step := 2, stepAt := b.now, mainConfirmed := some b.now } } := if_pos ⟨hc, hs, h1, h2⟩
  have ho : ∀ t, contactOpens c true t = t := fun t => (if_neg fun g => by cases g.2).trans (if_neg fun g => by cases g.2)
  rw [contactActs_active ha, e, hs, ho]
  exact dischargeCheck_none (by show b.seq.state ≠ _; rw [h1]; decide)

theorem contactActs_none {b : Block} {c : Nat} (h : isActive b = false ∨ (c ≠ mainAux b ∧ c ≠ bypassAux b ∧ b.seq.state ≠ .discharge)) :
    contactActs c b = b := by
  cases ha : isActive b with
  | false => exact if_pos (by rw [ha]; rfl)
  | true =>
    rcases h with h | ⟨h1, h2, h3⟩
    · rw [ha] at h; cases h
    · have e : contactCloses c b = b := (if_neg fun g => h1 g.1).trans (if_neg fun g => h2 g.1)
      have o : contactOpens c (scClosed b c) b = b := (if_neg fun g => h1 g.1).trans (if_neg fun g => h2 g.1)
      rw [contactActs_active ha, e, o, dischargeCheck_none h3]

section
variable {b : Block} {c : Nat}

theorem scRawChangeStep_changes (hc : c < 16) {v closed : Bool} (hv : closed = (v != parB b (0xA010 + c))) (h : closed ≠ bitAt b.seq.scRaw c) :
    scRawChangeStep c v b = { b with seq := { b.seq with
      scRaw := setBit b.seq.scRaw c closed
      contacts := tmod {} b.seq.contacts c fun x => { x with rawAt := b.now, moving := true, unsettledFrom := x.unsettledFrom <|> some b.now } } } := by
  subst hv
  exact if_pos ⟨hc, h⟩

theorem scRawChangeStep_same {v closed : Bool} (hv : closed = (v != parB b (0xA010 + c))) (h : closed = bitAt b.seq.scRaw c) :
    scRawChangeStep c v b = b := by
  subst hv
  exact if_neg fun g => g.2 h

/-- A debounce without a new state acknowledges nothing. -/
theorem contactDebounceStep_keeps (h : scClosed (contactDebounceCore c b) c = scClosed b c) : contactDebounceStep c b = contactDebounceCore c b := by
  refine if_neg fun ⟨_, h1, h2, _⟩ => ?_
  rw [h.symm.trans h2] at h1
  cases h1

theorem contactDebounceStep_none (h : (tget {} b.seq.contacts c).moving = false) : contactDebounceStep c b = b := by
  have e : contactDebounceCore c b = b := if_neg fun g => ne_true_of_eq_false h g.2
  rw [contactDebounceStep_keeps (by rw [e]), e]

/-- The instant at which contact c has held for its debounce time. -/
def debounceAt (c : Nat) (b : Block) : Block := atTime ((tget {} b.seq.contacts c).rawAt + parDur b (0xA000 + c) msU) b

theorem contactDebounceStep_settles (hc : c < 16) (hm : (tget {} b.seq.contacts c).moving = true) (h : bitAt b.seq.scRaw c = scClosed b c) :
    contactDebounceStep c b = { debounceAt c b with seq := { b.seq with
      contacts := tmod {} b.seq.contacts c fun x => { x with moving := false, unsettledFrom := none } } } := by
  have e : contactDebounceCore c b = { debounceAt c b with seq := { b.seq with
      contacts := tmod {} b.seq.contacts c fun x => { x with moving := false, unsettledFrom := none } } } :=
    (if_pos ⟨hc, hm⟩).trans (if_pos h)
  rw [contactDebounceStep_keeps (by rw [e]; rfl), e]

/-- The changes of contact c in the last second, with the present one (R508). -/
def contactChanges (c : Nat) (b : Block) : List Nat :=
  ((tget {} b.seq.contacts c).changes.filter fun t => decide ((debounceAt c b).now < t + sU)) ++ [(debounceAt c b).now]

/-- The contact has its new state and acts. -/
def contactChanged (c : Nat) (b : Block) : Block := contactActs c (raise evContactChange { debounceAt c b with seq := { b.seq with
  scState := setBit b.seq.scState c (bitAt b.seq.scRaw c)
  contacts := tmod {} b.seq.contacts c fun x => { x with moving := false, unsettledFrom := none, changes := contactChanges c b } } })

theorem contactDebounceCore_changes (hc : c < 16) (hm : (tget {} b.seq.contacts c).moving = true) (h : bitAt b.seq.scRaw c ≠ scClosed b c) :
    contactDebounceCore c b = if 4 ≤ (contactChanges c b).length ∧ scUnrel (contactChanged c b) c = false then
      contactUnreliable c 1 (contactChanged c b) else contactChanged c b := by
  refine ((if_pos ⟨hc, hm⟩).trans (if_neg h)).trans ?_
  show (if 4 ≤ (contactChanges c b).length ∧ (!scUnrel (contactChanged c b) c) = true then
    contactUnreliable c 1 (contactChanged c b) else contactChanged c b) = _
  simp only [Bool.not_eq_true']

theorem contactDebounceStep_acts (e : Block) (he : contactDebounceCore c b = e) : contactDebounceStep c b =
    if parN e 0xB060 = c ∧ scClosed b c = false ∧ scClosed e c = true ∧ scUnrel e c = false then (spbAck e).2.2.2 else e := by
  subst he
  show (if parN (contactDebounceCore c b) 0xB060 = c ∧ (!scClosed b c) = true ∧ scClosed (contactDebounceCore c b) c = true ∧
    (!scUnrel (contactDebounceCore c b) c) = true then _ else _) = _
  simp only [Bool.not_eq_true']

theorem contactUnsettledStep_none (h : (tget {} b.seq.contacts c).unsettledFrom = none) : contactUnsettledStep c b = b := by
  rw [contactUnsettledStep, h]

theorem contactUnsettledStep_acts (hc : c < 16) {t : Nat} (h : (tget {} b.seq.contacts c).unsettledFrom = some t) {d : Block}
    (hd : d = { atTime (t + sU) b with seq := { b.seq with contacts := tmod {} b.seq.contacts c fun x => { x with unsettledFrom := none } } }) :
    contactUnsettledStep c b = if scUnrel b c then d else contactUnreliable c 2 d := by
  subst hd
  rw [contactUnsettledStep, h]
  exact if_pos hc

end

/-! ### SC_UNREL_CLR and CMD_HOST (R510, R511) -/

theorem bitAt_scUnrelClrStep (m : Nat) (b : Block) {c : Nat} (hc : c < 16) : bitAt (scUnrelClrStep m b).seq.scUnrel c = true ↔
    bitAt b.seq.scUnrel c = true ∧ ¬ (bitAt m c = true ∧ isRole b c = false ∧ rawStable b c = true) := by
  show (maskOf _).testBit c = true ↔ _
  rw [testBit_maskOf, decide_eq_true_iff, List.mem_filter, mem_onesBelow, and_assoc, and_iff_right hc]
  refine and_congr_right fun _ => ?_
  cases bitAt m c <;> cases isRole b c <;> cases rawStable b c <;> simp

/-- The HOST outputs are levels of CMD outputs only. -/
theorem driveHost_frame (b : Block) : { driveHost b with seq := { (driveHost b).seq with cmdLevel := b.seq.cmdLevel } } = b := by
  unfold driveHost
  split
  · exact (kept_forEach (fun t : Block => { t with seq := { t.seq with cmdLevel := b.seq.cmdLevel } })
      (fun k s => driveCmd k (bitAt s.seq.cmdHost k) s) (fun _ _ => rfl) _ _).trans rfl
  · rfl

theorem cmdLevel_driveHost {b : Block} (ha : isActive b = true) (k : Nat) : bitAt (driveHost b).seq.cmdLevel k =
    if k < 8 ∧ k ≠ cmdMain b ∧ k ≠ cmdBypass b then bitAt b.seq.cmdHost k && !bitAt b.trip.opened k else bitAt b.seq.cmdLevel k := by
  have e := read_forEach_within (fun t j => bitAt t.seq.cmdLevel j) (fun k s => driveCmd k (bitAt s.seq.cmdHost k) s)
    (fun k _ => bitAt b.seq.cmdHost k && !bitAt b.trip.opened k) (fun t => t.seq.cmdHost = b.seq.cmdHost ∧ t.trip = b.trip)
    (fun _ _ h => h) (fun k t ⟨h1, h2⟩ => by
      show bitAt (setBit _ k _) k = _
      rw [bitAt_setBit_same, h1, h2]) (fun j k t h => bitAt_setBit_ne _ _ h)
    (.inr fun _ _ => rfl) (l := (upto 8).filter fun k => k ≠ cmdMain b ∧ k ≠ cmdBypass b) (s := b) ⟨rfl, rfl⟩ k
  rw [driveHost, if_pos ha, e]
  simp

/-- Settles O49: a contact's step by whether it moves and whether its state changes; the outputs bit by bit. -/
theorem theStationContactsAndOutputs : Obligations.the_station_contacts_and_outputs := by
  refine ⟨fun c k b u hu => hu ▸ ⟨contactUnreliable_role k, contactUnreliable_other k⟩,
    fun c b => ⟨contactActs_confirmsMain, contactActs_none⟩, fun s hl c hc x hx => ?_⟩
  subst hx
  have hraw : ∀ v, (Instr.scRawChange c v).wf = true := fun _ => decide_eq_true hc
  have hdeb : (Instr.contactDebounce c).wf = true := decide_eq_true hc
  have huns : (Instr.contactUnsettled c).wf = true := decide_eq_true hc
  refine ⟨fun v closed hv => ⟨fun h => act_ended hl (hraw v) (scRawChangeStep_changes hc hv h), fun h => act_ended hl (hraw v) (scRawChangeStep_same hv h)⟩,
    fun h => act_ended hl hdeb (contactDebounceStep_none h), fun hm b hb => ⟨fun h => ?_, fun h l hl' d hd e he => ?_⟩,
    fun h => act_ended hl huns (contactUnsettledStep_none h), fun t ht b hb d hd => ?_, fun m => ⟨_, act_ended hl rfl rfl, rfl, bitAt_scUnrelClrStep _ _ hc⟩,
    fun v => ?_⟩
  · subst hb; exact act_ended hl hdeb (contactDebounceStep_settles hc hm h)
  · subst hb hl' hd he
    exact act_ended hl hdeb (contactDebounceStep_acts _ (contactDebounceCore_changes hc hm h))
  · subst hb; exact act_ended hl huns (contactUnsettledStep_acts hc ht hd)
  · have hf := driveHost_frame { s.toBlock with seq := { s.seq with cmdHost := v.toNat % 256 } }
    refine ⟨_, act_ended (i := .cmdHost v) hl rfl rfl, (congrArg (·.seq.cmdHost) hf :),
      (congrArg (fun t : Block => { t with seq := { t.seq with cmdHost := s.seq.cmdHost } }) hf :), fun hn => ?_, fun ha k => cmdLevel_driveHost (b := { s.toBlock with seq := { s.seq with cmdHost := v.toNat % 256 } }) ha k⟩
    exact congrArg (·.seq.cmdLevel) (if_neg (ne_true_of_eq_false hn) : driveHost { s.toBlock with seq := { s.seq with cmdHost := v.toNat % 256 } } = _)

end Sys2Proof.Machine
end

section
/-!
PROOFS. Station time, the servo and the messages that measure (R674 to R676, R681, R684 to R687).
-/

namespace Sys2Proof.Machine

/-! ### The servo (R684 to R687) -/

section
variable {o : Int} {b : Block}

theorem ptpServo_requalifies (hh : b.time.holdover = true) (hq : parN b 0xE015 ≤ b.time.qual + 1) : ptpServo o b =
    { b with time := { b.time with
      offset := o, holdAge := holdAge b, holdover := false, qual := 0, state := .slave, fI := r64 (fvOfInt b.time.rate 0) } } :=
  (if_pos hh).trans (if_pos hq)

theorem ptpServo_counts (hh : b.time.holdover = true) (hq : b.time.qual + 1 < parN b 0xE015) : ptpServo o b =
    { b with time := { b.time with offset := o, qual := b.time.qual + 1 } } :=
  (if_pos hh).trans (if_neg (Nat.not_le.2 hq))

theorem stAt_congr {t u : TimeSt} (hb : t.base = u.base) (hf : t.fB = u.fB) (hr : t.rate = u.rate) (f : Nat) : stAt t f = stAt u f := by
  unfold stAt
  rw [hb, hf, hr]

theorem stepTime_eq (x : Int) (f : Nat) (b : Block) : stepTime x f b = { b with time := { b.time with
    base := x, fB := f, stepSeq := (b.time.stepSeq + 1) % 2 ^ 16, timeValid := true, everLocked := false } } := rfl

theorem ptpServo_steps (hh : b.time.holdover = false) (he : b.time.everLocked = false) (ho : offAbove o (parW b 0xE010) 1000 = true) :
    ptpServo o b = { b with time := { b.time with
      offset := o, state := .slave, base := stAt b.time b.now * 2 ^ 32 - o * 2 ^ 16, fB := b.now
      stepSeq := (b.time.stepSeq + 1) % 2 ^ 16, timeValid := true, everLocked := false, fI := 0#64, lockRun := 0, rateNew := none } } := by
  have ho' : (!b.time.everLocked && offAbove o (parW b 0xE010) 1000) = true := by rw [he, ho]; rfl
  unfold ptpServo
  extract_lets s t n s1 b1
  have hb : b1 = stAt b.time b.now * 2 ^ 32 - o * 2 ^ 16 := congrArg (· * 2 ^ 32 - o * 2 ^ 16) (stAt_congr rfl rfl rfl _)
  rw [if_neg (by exact ne_true_of_eq_false hh), if_pos (by exact ho'), ← hb, stepTime_eq]
  have hq : s1.time.stepSeq = b.time.stepSeq := rfl
  rw [hq]
  clear_value b1
  generalize (b.time.stepSeq + 1) % 2 ^ 16 = q
  rfl

end

theorem clampI_bounds {lo hi : Int} (h : lo ≤ hi) (x : Int) : lo ≤ clampI lo hi x ∧ clampI lo hi x ≤ hi := by
  unfold clampI
  split
  · exact ⟨h, le_rfl⟩
  · split
    · exact ⟨le_rfl, h⟩
    · omega

theorem raiseIf_eq (c : Bool) (e : Nat) (b : Block) : raiseIf c e b = { b with ev := (raiseIf c e b).ev } := by
  unfold raiseIf; split <;> rfl

/-- Offsets in a row within the lock threshold (R685). -/
def lockRunOf (o : Int) (b : Block) : Nat := if offAbove o (parW b 0xE014) 1 then 0 else min 16 (b.time.lockRun + 1)

/-- The lock decision of a measurement that does not step (R685). -/
def servoLock (o : Int) (b : Block) : Block :=
  raiseIf (decide (16 ≤ lockRunOf o b) && !b.time.ptpLocked) evPtpLock { b with time := { b.time with
    offset := o, state := .slave, lockRun := lockRunOf o b
    ptpLocked := (b.time.ptpLocked || decide (16 ≤ lockRunOf o b)) && !offAbove o (parW b 0xE014) 4
    everLocked := b.time.everLocked || decide (16 ≤ lockRunOf o b) } }

/-- The error, the integrator and the rate of one measurement (R684). -/
def servoErr (o : Int) (b : Block) : F64 := dmul (ddiv (nsD o) (r64 (fvOfInt 1 (sext 8 (parN b 0xE008))))) rateUnit
def servoI (o : Int) (i : F64) (b : Block) : F64 := dadd i (dmul (f2d (parW b 0xE013)) (servoErr o b))
def servoRate (o : Int) (i : F64) (b : Block) : Int :=
  fvRne (v64 (clampD (dmul (f2d (parW b 0xE011)) (r64 (fvRatio (2 ^ 40) (10 ^ 6))))
    (dadd (servoI o i b) (dmul (f2d (parW b 0xE012)) (servoErr o b)))))

/-- The rate that a measurement asks for waits for its instant. -/
def servoSlew (o : Int) (i : F64) (b : Block) : Block :=
  modTime (fun t => { t with fI := servoI o i b, rateNew := some (clampI (-549755814) 549755814 (servoRate o i b), b.now + 1 + Config.rateLead b.free) }) (useFree b)

theorem ptpServo_slews {o : Int} {b : Block} (hh : b.time.holdover = false) (hn : b.time.everLocked = true ∨ offAbove o (parW b 0xE010) 1000 = false) :
    ptpServo o b = servoSlew o b.time.fI (servoLock o b) := by
  have hneg : ¬ (!b.time.everLocked && offAbove o (parW b 0xE010) 1000) = true := by
    rcases hn with h | h <;> rw [h] <;> simp
  unfold ptpServo
  extract_lets s t n s1 b1 run rise fall s2 h e f lim r fc
  rw [if_neg (by exact ne_true_of_eq_false hh), if_neg (by exact hneg)]
  have hs : s2 = servoLock o b := rfl
  clear_value s2
  subst hs
  rfl

/-- R684: a measurement that does not step leaves the base and the rate, and lets a rate within the limits of 500 ppm wait for an
instant after now. -/
theorem ptpServo_slews_spec {o : Int} {b : Block} (hh : b.time.holdover = false)
    (hn : b.time.everLocked = true ∨ offAbove o (parW b 0xE010) 1000 = false) :
    (ptpServo o b).time.offset = o ∧ (ptpServo o b).time.state = .slave ∧ (ptpServo o b).time.rate = b.time.rate ∧
    (ptpServo o b).time.base = b.time.base ∧ (ptpServo o b).time.fB = b.time.fB ∧ (ptpServo o b).time.stepSeq = b.time.stepSeq ∧
    (∃ r, (ptpServo o b).time.rateNew = some (r, b.now + 1 + Config.rateLead b.free) ∧ -549755814 ≤ r ∧ r ≤ 549755814) ∧
    { ptpServo o b with time := b.time, ev := b.ev, free := b.free } = b := by
  have e : ∀ {α : Type} (p : Block → α), (∀ t x, p { t with ev := x } = p t) → p (servoLock o b) = _ :=
    fun p hp => raiseIf_keeps p hp _ _ _
  have h1 := e Block.time fun _ _ => rfl
  have h2 : (servoLock o b).now = b.now := e Block.now fun _ _ => rfl
  have h3 : (servoLock o b).free = b.free := e Block.free fun _ _ => rfl
  have h4 : { servoLock o b with time := b.time, ev := b.ev, free := b.free } = b :=
    e (fun t : Block => { t with time := b.time, ev := b.ev, free := b.free }) fun _ _ => rfl
  rw [ptpServo_slews hh hn]
  generalize servoLock o b = t at h1 h2 h3 h4
  obtain ⟨hlo, hhi⟩ := clampI_bounds (lo := -549755814) (hi := 549755814) (by decide) (servoRate o b.time.fI t)
  refine ⟨?_, ?_, ?_, ?_, ?_, ?_, ⟨_, ?_, hlo, hhi⟩, h4⟩
  · exact (congrArg TimeSt.offset h1 :)
  · exact (congrArg TimeSt.state h1 :)
  · exact (congrArg TimeSt.rate h1 :)
  · exact (congrArg TimeSt.base h1 :)
  · exact (congrArg TimeSt.fB h1 :)
  · exact (congrArg TimeSt.stepSeq h1 :)
  · rw [← h2, ← h3]; rfl

theorem slews_of {o : Int} {b : Block} (h : ¬ (b.time.everLocked = false ∧ offAbove o (parW b 0xE010) 1000 = true)) :
    b.time.everLocked = true ∨ offAbove o (parW b 0xE010) 1000 = false := by
  cases he : b.time.everLocked with
  | true => exact .inl rfl
  | false => exact .inr (Bool.eq_false_iff.2 fun g => h ⟨he, g⟩)

/-! ### A rate change (R675) -/

theorem stAt_atBase (t : TimeSt) (x : Int) (f : Nat) : stAt { t with base := x * 2 ^ 32, fB := f } f = x := by
  have h : x * 2 ^ 32 / 2 ^ 32 = x := Int.mul_ediv_cancel x (by decide)
  unfold stAt
  rw [h, sub_self, zero_mul]
  simp

theorem rateChangeStep_none {b : Block} (h : b.time.rateNew = none) : rateChangeStep b = b := by rw [rateChangeStep, h]

theorem rateChangeStep_applies {b : Block} {r : Int} {fc : Nat} (h : b.time.rateNew = some (r, fc)) : rateChangeStep b = { b with
    now := max b.now fc
    time := { b.time with base := stAt b.time fc * 2 ^ 32, fB := fc, rate := r, rateNew := none, rateWas := some (b.time.rate, fc) } } := by
  rw [rateChangeStep, h]; rfl

/-- Settles O52: the servo leaves the rate to an instant after now, where the base moves to the station time of that instant. -/
theorem aRateChangeDoesNotStepTheTime : Obligations.a_rate_change_does_not_step_the_time := by
  refine ⟨fun o b => ?_, fun s hl => ⟨fun h => act_ended hl rfl (rateChangeStep_none h), fun r fc h => ⟨_, act_ended hl rfl (rateChangeStep_applies h), rfl, rfl, rfl, rfl,
    rfl, rfl, stAt_atBase { s.time with rate := r } _ _, rfl⟩⟩⟩
  cases hh : b.time.holdover with
  | true =>
    by_cases hq : parN b 0xE015 ≤ b.time.qual + 1
    · rw [ptpServo_requalifies hh hq]; exact ⟨rfl, .inl rfl⟩
    · rw [ptpServo_counts hh (Nat.not_le.1 hq)]; exact ⟨rfl, .inl rfl⟩
  | false =>
    by_cases hs : b.time.everLocked = false ∧ offAbove o (parW b 0xE010) 1000 = true
    · rw [ptpServo_steps hh hs.1 hs.2]; exact ⟨rfl, .inr (.inl rfl)⟩
    · obtain ⟨-, -, hrate, -, -, -, ⟨r, hr, -, -⟩, -⟩ := ptpServo_slews_spec hh (slews_of hs)
      exact ⟨hrate, .inr (.inr ⟨r, _, hr, by omega⟩)⟩

/-! ### Origin times and path delays (R681) -/

section
variable {b : Block}

theorem syncMeasured_known (t1 : Int) (rx : Nat) (h : b.time.pathKnown = true) : syncMeasured t1 rx b =
    ptpServo (stFine b rx - t1 - b.time.meanPath - asymHalf b b.time.activePort) { b with time := { b.time with lastSync := some (t1, rx, false) } } := by
  have e : syncMeasured t1 rx b = ptpServo (stFine b rx - t1 - b.time.meanPath - asymHalf b b.time.activePort)
      { b with time := { b.time with lastSync := some (t1, rx, !b.time.pathKnown) } } := if_pos h
  rw [e, h]
  rfl

theorem syncMeasured_waits (t1 : Int) (rx : Nat) (h : b.time.pathKnown = false) :
    syncMeasured t1 rx b = { b with time := { b.time with lastSync := some (t1, rx, true) } } := by
  have e : syncMeasured t1 rx b = { b with time := { b.time with lastSync := some (t1, rx, !b.time.pathKnown) } } :=
    if_neg (ne_true_of_eq_false h)
  rw [e, h]
  rfl

/-- The path delay is known. -/
def pathNoted (d : Int) (b : Block) : Block := { b with time := { b.time with meanPath := d, pathKnown := true } }

theorem pathMeasured_serves (d : Int) {t1 : Int} {rx : Nat} (h : b.time.lastSync = some (t1, rx, true)) :
    pathMeasured d b = syncMeasured t1 rx (pathNoted d b) := by
  have e : (pathNoted d b).time.lastSync = some (t1, rx, true) := h
  unfold pathMeasured
  change (match (pathNoted d b).time.lastSync with | some (t1, rx, true) => syncMeasured t1 rx (pathNoted d b) | _ => pathNoted d b) = _
  rw [e]

theorem pathMeasured_noted (d : Int) (h : ∀ t1 rx, b.time.lastSync ≠ some (t1, rx, true)) : pathMeasured d b = pathNoted d b := by
  unfold pathMeasured
  extract_lets u
  split
  · next t1 rx e => exact absurd e (h t1 rx)
  · rfl

/-! ### Messages -/

/-- A clock in INITIALIZING goes on at a message that it handles. -/
def ptpBegun (b : Block) : Block := if ptpRuns b then ptpBegin b else b

theorem syncStep_ignored {m : PtpMsg} (h : fromMaster (ptpBegun b) m = false) : syncStep m b = ptpBegun b :=
  if_pos (by show (!fromMaster (ptpBegun b) m) = true; rw [h]; rfl)

theorem syncStep_taken {m : PtpMsg} (h : fromMaster (ptpBegun b) m = true) : syncStep m b =
    (let u := modTime (fun t => { t with syncRx := satInc 16 t.syncRx }) (ptpBegun b)
     if m.twoStep then modTime (fun t => { t with sync := some (m.seq, u.now, m.corr) }) u
     else syncMeasured (m.stamp * 2 ^ 16 + m.corr) u.now u) :=
  if_neg (by show ¬ (!fromMaster (ptpBegun b) m) = true; rw [h]; decide)

theorem followUpStep_measured {m : PtpMsg} {q rx : Nat} {c : Int} (hs : b.time.sync = some (q, rx, c)) (h : fromMaster b m = true) (hq : m.seq = q) :
    followUpStep m b = syncMeasured (m.stamp * 2 ^ 16 + m.corr + c) rx { b with time := { b.time with sync := none } } := by
  rw [followUpStep, hs]
  exact if_pos (by rw [h, decide_eq_true hq]; rfl)

theorem followUpStep_ignored {m : PtpMsg} (h : b.time.sync = none ∨ fromMaster b m = false ∨ ∀ q rx c, b.time.sync = some (q, rx, c) → m.seq ≠ q) :
    followUpStep m b = b := by
  unfold followUpStep
  split
  · next q rx c hs =>
    refine if_neg fun g => ?_
    obtain ⟨g1, g2⟩ := (Bool.and_eq_true _ _).mp g
    rcases h with h | h | h
    · rw [h] at hs; cases hs
    · exact ne_true_of_eq_false h g1
    · exact h q rx c hs (of_decide_eq_true g2)
  · rfl

theorem delayReqStep_answers {m : PtpMsg} (h1 : ptpRuns b = true) (h2 : b.time.state = .master) (h3 : ptpP2P b = false)
    (h4 : m.port = b.time.activePort) (h5 : m.domain = parN b 0xE003) : delayReqStep m b = ptpSend .delayResp (ptpAnswer m b) b :=
  if_pos (by simp [h1, h2, h3, h4, h5])

theorem delayReqStep_ignored {m : PtpMsg} (h : ptpRuns b = false ∨ b.time.state ≠ .master ∨ ptpP2P b = true ∨ m.port ≠ b.time.activePort ∨
    m.domain ≠ parN b 0xE003) : delayReqStep m b = b :=
  if_neg (by rcases h with h | h | h | h | h <;> simp [h])

theorem delayRespStep_measured {m : PtpMsg} {q tx rx : Nat} {t1 : Int} {w : Bool} (hd : b.time.delayReq = some (q, tx))
    (hs : b.time.lastSync = some (t1, rx, w)) (h : fromMaster b m = true) (hp : ptpP2P b = false) (hq : m.seq = q) : delayRespStep m b =
      pathMeasured (((stFine b rx - t1) + (m.stamp * 2 ^ 16 - m.corr - stFine b tx)) / 2) { b with time := { b.time with delayReq := none } } := by
  rw [delayRespStep, hd, hs]
  exact if_pos (by simp [h, hp, hq])

theorem delayRespStep_ignored {m : PtpMsg} {q tx rx : Nat} {t1 : Int} {w : Bool} (hd : b.time.delayReq = some (q, tx))
    (hs : b.time.lastSync = some (t1, rx, w)) (h : fromMaster b m = false ∨ ptpP2P b = true ∨ m.seq ≠ q) : delayRespStep m b = b := by
  rw [delayRespStep, hd, hs]
  exact if_neg (by rcases h with h | h | h <;> simp [h])

theorem delayRespStep_none {m : PtpMsg} (h : b.time.delayReq = none ∨ b.time.lastSync = none) : delayRespStep m b = b := by
  unfold delayRespStep
  split
  · next hd hs =>
    rcases h with h | h
    · rw [h] at hd; cases hd
    · rw [h] at hs; cases hs
  · rfl

theorem peer_ignored {m : PtpMsg} (h : peerMsg b m = false) : pdelayReqStep m b = b ∧ pdelayRespStep m b = b ∧ pdelayRespFollowUpStep m b = b := by
  refine ⟨if_neg (ne_true_of_eq_false h), ?_, ?_⟩
  · unfold pdelayRespStep
    split
    · exact if_neg (by simp [h])
    · rfl
  · unfold pdelayRespFollowUpStep
    split
    · exact if_neg (by simp [h])
    · rfl

section
variable {m : PtpMsg} {q tx : Nat} (hr : b.time.pdelayReq = some (q, tx))
include hr

theorem pdelayRespStep_taken (h : peerMsg b m = true) (hq : m.seq = q) : pdelayRespStep m b =
    if m.twoStep then { b with time := { b.time with pdelay := some (q, m.stamp * 2 ^ 16 - m.corr, b.now) } }
    else pathMeasured ((stFine b b.now - stFine b tx - m.corr) / 2) { b with time := { b.time with pdelayReq := none } } := by
  rw [pdelayRespStep, hr]
  exact if_pos (by simp [h, hq])

theorem pdelayRespStep_other (hq : m.seq ≠ q) : pdelayRespStep m b = b := by
  rw [pdelayRespStep, hr]
  exact if_neg (by simp [hq])

theorem pdelayRespFollowUpStep_measured {k rx : Nat} {t2 : Int} (hp : b.time.pdelay = some (k, t2, rx)) (h : peerMsg b m = true) (hq : m.seq = k) :
    pdelayRespFollowUpStep m b = pathMeasured (((stFine b rx - stFine b tx) - (m.stamp * 2 ^ 16 + m.corr - t2)) / 2)
      { b with time := { b.time with pdelay := none, pdelayReq := none } } := by
  rw [pdelayRespFollowUpStep, hp, hr]
  exact if_pos (by simp [h, hq])

theorem pdelayRespFollowUpStep_other {k rx : Nat} {t2 : Int} (hp : b.time.pdelay = some (k, t2, rx)) (hq : m.seq ≠ k) :
    pdelayRespFollowUpStep m b = b := by
  rw [pdelayRespFollowUpStep, hp, hr]
  exact if_neg (by simp [hq])

end

theorem pdelayRespStep_none {m : PtpMsg} (h : b.time.pdelayReq = none) : pdelayRespStep m b = b := by
  rw [pdelayRespStep, h]

theorem pdelayRespFollowUpStep_none {m : PtpMsg} (h : b.time.pdelay = none ∨ b.time.pdelayReq = none) : pdelayRespFollowUpStep m b = b := by
  unfold pdelayRespFollowUpStep
  split
  · next h1 h2 =>
    rcases h with h | h
    · rw [h] at h1; cases h1
    · rw [h] at h2; cases h2
  · rfl

end

/-- Settles O50: the servo by holdover and lock, then each message by whether it counts. -/
theorem aMeasurementFeedsTheServo : Obligations.a_measurement_feeds_the_servo := by
  refine ⟨fun o b f hf => ?_, fun t1 rx b => ⟨syncMeasured_known t1 rx, syncMeasured_waits t1 rx⟩,
    fun d b p hp => hp ▸ ⟨fun t1 rx => pathMeasured_serves d, pathMeasured_noted d⟩, fun s hl m =>
    ⟨fun b hb => ⟨fun h => ?_, fun h u hu => ⟨fun h2 => ?_, fun h2 => ?_⟩⟩, fun q rx c hs h hq => act_ended (i := .followUp m) hl rfl (followUpStep_measured hs h hq),
      fun h => act_ended (i := .followUp m) hl rfl (followUpStep_ignored h),
      fun h1 h2 h3 h4 h5 => act_ended (i := .delayReq m) hl rfl (delayReqStep_answers h1 h2 h3 h4 h5), fun h => act_ended (i := .delayReq m) hl rfl (delayReqStep_ignored h),
      fun h x hx => act_ended (i := .pdelayReq m) hl rfl (hx ▸ if_pos h), fun h c hc => ?_,
      fun q tx t1 rx w hd hs => ⟨fun h hp hq => act_ended (i := .delayResp m) hl rfl (delayRespStep_measured hd hs h hp hq),
        fun h => act_ended (i := .delayResp m) hl rfl (delayRespStep_ignored hd hs h)⟩,
      fun h => act_ended (i := .delayResp m) hl rfl (delayRespStep_none h),
      fun q tx hr => ⟨fun h hq => ⟨fun h2 => act_ended (i := .pdelayResp m) hl rfl ((pdelayRespStep_taken hr h hq).trans (if_pos h2)),
          fun h2 => act_ended (i := .pdelayResp m) hl rfl ((pdelayRespStep_taken hr h hq).trans (if_neg (ne_true_of_eq_false h2)))⟩,
        fun hq => act_ended (i := .pdelayResp m) hl rfl (pdelayRespStep_other hr hq),
        fun k t2 rx hp => ⟨fun h hq => act_ended (i := .pdelayRespFollowUp m) hl rfl (pdelayRespFollowUpStep_measured hr hp h hq),
          fun hq => act_ended (i := .pdelayRespFollowUp m) hl rfl (pdelayRespFollowUpStep_other hr hp hq)⟩⟩,
      fun h c hc => ?_, fun h => act_ended (i := .pdelayRespFollowUp m) hl rfl (pdelayRespFollowUpStep_none (.inl h)), fun c hc => ?_⟩⟩
  · subst hf
    cases hh : b.time.holdover with
    | true =>
      by_cases hq : parN b 0xE015 ≤ b.time.qual + 1
      · rw [ptpServo_requalifies hh hq]
        exact ⟨rfl, rfl, fun _ _ => rfl, fun _ h => absurd hq (Nat.not_le.2 h), fun h => (nomatch h)⟩
      · rw [ptpServo_counts hh (Nat.not_le.1 hq)]
        exact ⟨rfl, rfl, fun _ h => absurd h hq, fun _ _ => rfl, fun h => (nomatch h)⟩
    | false =>
      by_cases hs : b.time.everLocked = false ∧ offAbove o (parW b 0xE010) 1000 = true
      · rw [ptpServo_steps hh hs.1 hs.2]
        refine ⟨rfl, rfl, fun h => (nomatch h), fun h => (nomatch h), fun _ => ⟨rfl, rfl, fun _ => ⟨rfl, rfl, rfl, rfl, rfl⟩, fun h => ?_⟩⟩
        rcases h with h | h
        · rw [hs.1] at h; cases h
        · rw [hs.2] at h; cases h
      · obtain ⟨h1, h2, h3, h4, h5, h6, h7, h8⟩ := ptpServo_slews_spec hh (slews_of hs)
        exact ⟨h1, h8, fun h => (nomatch h), fun h => (nomatch h), fun _ => ⟨h2, h3, fun h => absurd h hs, fun _ => ⟨h4, h5, h6, h7⟩⟩⟩
  · subst hb; exact act_ended (i := .sync m) hl rfl (syncStep_ignored h)
  · subst hb hu; exact act_ended (i := .sync m) hl rfl ((syncStep_taken h).trans (if_pos h2))
  · subst hb hu; exact act_ended (i := .sync m) hl rfl ((syncStep_taken h).trans (if_neg (ne_true_of_eq_false h2)))
  · obtain ⟨h1, h2, h3⟩ := peer_ignored h
    simp only [List.mem_cons, List.not_mem_nil, or_false] at hc
    rcases hc with rfl | rfl | rfl
    · exact act_ended (i := .pdelayReq m) hl rfl h1
    · exact act_ended (i := .pdelayResp m) hl rfl h2
    · exact act_ended (i := .pdelayRespFollowUp m) hl rfl h3
  · simp only [List.mem_cons, List.not_mem_nil, or_false] at hc
    rcases hc with rfl | rfl
    · exact act_ended (i := .pdelayResp m) hl rfl (pdelayRespStep_none h)
    · exact act_ended (i := .pdelayRespFollowUp m) hl rfl (pdelayRespFollowUpStep_none (.inr h))
  · simp only [List.mem_cons, List.not_mem_nil, or_false] at hc
    rcases hc with rfl | rfl
    · exact act_ended (i := .signaling m) hl rfl rfl
    · exact act_ended (i := .management m) hl rfl rfl

end Sys2Proof.Machine
end

section
/-!
PROOFS. Masters, announces, link loss and the messages sent in intervals (R681, R683, R686, R688).
-/

namespace Sys2Proof.Machine

/-! ### Losing a master (R683, R686) -/

/-- Port p forgets the master that was selected. -/
def masterForgotten (p : Nat) (b : Block) : Block := { b with time := { b.time with
  foreign := tset [] b.time.foreign p ((tget [] b.time.foreign p).filter fun y => b.time.master ≠ some (y.ann.src, y.ann.srcPort)) } }

/-- No master is selected any more. -/
def masterLost (p : Nat) (b : Block) : Block := { b with time := { b.time with
  master := none, sync := none, lastSync := none, primaryLost := b.time.primaryLost || p = ptpPrimary b } }

section
variable {p : Nat} {b : Block} (t : Nat)

theorem loseMaster_other (h : p ≠ b.time.activePort) : loseMaster p t b = b := if_pos h

theorem loseMaster_moves (h : p = b.time.activePort) (hp : p = ptpPrimary (masterForgotten p b)) (hb : ptpBackup (masterForgotten p b) = true)
    (hf : (bestForeign (masterForgotten p b) (1 - p)).isSome = true) :
    loseMaster p t b = ptpMovePort (1 - p) (masterForgotten p b) :=
  (if_neg (not_not.2 h)).trans (if_pos ⟨hp, hb, hf⟩)

section
variable (h : p = b.time.activePort) (hn : p ≠ ptpPrimary (masterForgotten p b) ∨ ptpBackup (masterForgotten p b) = false ∨
  bestForeign (masterForgotten p b) (1 - p) = none)
include h hn

omit h in
theorem not_loseMaster_moves : ¬ (p = ptpPrimary (masterForgotten p b) ∧ ptpBackup (masterForgotten p b) = true ∧
    (bestForeign (masterForgotten p b) (1 - p)).isSome = true) := by
  rintro ⟨g1, g2, g3⟩
  rcases hn with hn | hn | hn
  · exact hn g1
  · exact ne_true_of_eq_false hn g2
  · rw [hn] at g3; cases g3

theorem loseMaster_selects {a : PtpAnn} (hc : ptpChoice (masterLost p (masterForgotten p b)) = some a) :
    loseMaster p t b = selectMaster a (masterLost p (masterForgotten p b)) := by
  unfold loseMaster
  extract_lets s1 had lost s2
  have hc' : ptpChoice s2 = some a := hc
  have hneg : ¬ (p = ptpPrimary s1 ∧ ptpBackup s1 = true ∧ (bestForeign s1 (1 - p)).isSome = true) := not_loseMaster_moves hn
  rw [if_neg (not_not.2 h), if_neg hneg, hc']
  rfl

theorem loseMaster_none (hc : ptpChoice (masterLost p (masterForgotten p b)) = none) {d : Block}
    (hd : d = if b.time.master.isSome then enterHoldover t (masterLost p (masterForgotten p b)) else masterLost p (masterForgotten p b)) :
    loseMaster p t b = if ptpMode d = 1 then ptpToMaster d
      else if b.time.master.isSome then { d with time := { d.time with state := .listening } } else d := by
  unfold loseMaster
  extract_lets s1 had lost s2
  have hc' : ptpChoice s2 = none := hc
  have hneg : ¬ (p = ptpPrimary s1 ∧ ptpBackup s1 = true ∧ (bestForeign s1 (1 - p)).isSome = true) := not_loseMaster_moves hn
  rw [if_neg (not_not.2 h), if_neg hneg, hc']
  subst hd
  rfl

end

end

theorem ptpChoice_auto {b : Block} (hm : ptpMode b = 1) {a : PtpAnn} (ha : bestForeign b b.time.activePort = some a) :
    ptpChoice b = if keyLt (annKey a) (ownKey b) then some a else none := by
  simp only [ptpChoice, hm, ha]

theorem ptpDecide_selects {b : Block} {a : PtpAnn} (h : ptpChoice b = some a) : ptpDecide b = selectMaster a b := by
  rw [ptpDecide, h]

theorem ptpDecide_masters {b : Block} (hm : ptpMode b = 1) (hf : (bestForeign b b.time.activePort).isSome = true) (h : ptpChoice b = none) :
    ptpDecide b = ptpToMaster (if b.time.master.isSome then enterHoldover b.now b else b) := by
  rw [ptpDecide, h]
  exact if_pos ⟨hm, hf⟩

/-! ### ANNOUNCE, its timeout and link loss -/

/-- The clock has counted an Announce of a port, which has link. -/
def announceCounted (p : Nat) (b : Block) : Block :=
  { b with time := { b.time with annRx := satInc 16 b.time.annRx, linkDown := setBit b.time.linkDown p false } }

/-- The source of an Announce as it is noted (R683). -/
def announceEntry (a : PtpAnn) (u : Block) : PtpForeign :=
  match (foreignOf u a.port).find? (fun x => x.ann.src = a.src && x.ann.srcPort = a.srcPort) with
  | some y => if u.now ≤ y.last + announceOutU u then { y with ann := a, last := u.now, count := y.count + 1 }
    else { ann := a, last := u.now, runFrom := u.now, count := 1 }
  | none => { ann := a, last := u.now, runFrom := u.now, count := 1 }

/-- The last sources of the port, the one of this Announce last. -/
def announceNoted (a : PtpAnn) (x : PtpForeign) (u : Block) : Block := { u with time := { u.time with
  foreign := tset [] u.time.foreign a.port
    (lastN 5 ((foreignOf u a.port).filter (fun x => !(x.ann.src = a.src && x.ann.srcPort = a.srcPort)) ++ [x])) } }

section
variable {a : PtpAnn} {b : Block}

theorem announceStep_ignored (h : ptpRuns b = false ∨ 2 ≤ a.port) : announceStep a b = b :=
  if_pos (by rcases h with h | h <;> simp [h])

variable (hr : ptpRuns b = true) (hp : a.port < 2) {u : Block} (hu : u = announceCounted a.port (ptpBegin b))
include hr hp hu

theorem announceStep_unused (h : a.domain ≠ parN u 0xE003 ∨ ptpMode u = 3 ∨ (a.port ≠ ptpPrimary u ∧ ptpBackup u = false)) :
    announceStep a b = u := by
  subst hu
  refine (if_neg (by simp [hr, Nat.not_le.2 hp])).trans (if_pos ?_)
  exact h.imp_right (Or.imp_right (And.imp_right fun g => (Bool.not_eq_true' _).mpr g))

theorem announceStep_notes (h1 : a.domain = parN u 0xE003) (h2 : ptpMode u ≠ 3) (h3 : a.port = ptpPrimary u ∨ ptpBackup u = true) :
    announceStep a b = if ptpMoves (announceNoted a (announceEntry a u) u) a.port (announceEntry a u)
      then ptpMovePort a.port (announceNoted a (announceEntry a u) u) else ptpDecide (announceNoted a (announceEntry a u) u) := by
  subst hu
  refine (if_neg (by simp [hr, Nat.not_le.2 hp])).trans ((if_neg ?_).trans ?_)
  · rintro (g | g | ⟨g1, g2⟩)
    · exact g h1
    · exact h2 g
    · rcases h3 with h3 | h3
      · exact g1 h3
      · exact ne_true_of_eq_false ((Bool.not_eq_true' _).mp g2) h3
  · rfl

end

theorem ptpMoves_iff (d : Block) (p : Nat) (x : PtpForeign) : ptpMoves d p x = true ↔ p ≠ d.time.activePort ∧ foreignOk d x = true ∧
    (p = ptpPrimary d ∧ x.runFrom + 16 * announceU d ≤ d.now ∨ p ≠ ptpPrimary d ∧ d.time.primaryLost = true) := by
  unfold ptpMoves
  by_cases h : p = ptpPrimary d <;> simp [h, and_assoc]

section
variable {p : Nat} {b : Block}

theorem announceTimeoutStep_ignored (h : ptpMode b = 0 ∨ b.time.state = .disabled ∨ p ≠ b.time.activePort) : announceTimeoutStep p b = b := if_pos h

theorem announceTimeoutStep_acts (h0 : ptpMode b ≠ 0) (hs : b.time.state ≠ .disabled) (hp : p = b.time.activePort) : announceTimeoutStep p b =
    if b.host.mpRestarting then { atTime (announceEnd b) b with time := { b.time with timeout := some (p, announceEnd b) } }
    else if b.rst.phase = .up then loseMaster p (announceEnd b) (atTime (announceEnd b) (ptpBegin b)) else b :=
  if_neg (by rintro (g | g | g) <;> [exact h0 g; exact hs g; exact g hp])

/-- A port without link has forgotten its masters. -/
def linkLost (p : Nat) (b : Block) : Block :=
  { b with time := { b.time with linkDown := setBit b.time.linkDown p true, foreign := tset [] b.time.foreign p [] } }

theorem ethLinkLossStep_eq (hp : p < 2) : ethLinkLossStep p b = if ptpRuns b then loseMaster p b.now (linkLost p b)
    else if b.host.mpRestarting = true ∧ p = b.time.activePort ∧ b.time.timeout.isNone = true then
      { linkLost p b with time := { (linkLost p b).time with timeout := some (p, b.now) } }
    else linkLost p b :=
  if_neg (Nat.not_le.2 hp)

end

/-! ### Messages sent in intervals (R681) -/

theorem ptpTxIntervalStep_none {k : PtpKind} {b : Block} (h : ptpRuns (ptpBegun b) = false ∨ ptpSends (ptpBegun b) k = false) :
    ptpTxIntervalStep k b = ptpBegun b := by
  refine if_pos ?_
  show (!(ptpRuns (ptpBegun b) && ptpSends (ptpBegun b) k)) = true
  rcases h with h | h <;> simp [h]

/-- The message of a kind is numbered and sent; what goes with it follows. -/
def ptpSentOut (k : PtpKind) (n : Nat) (q : Tab Nat) (x : PtpTx) (b : Block) : Block :=
  let s := ptpSend k x { b with time := { b.time with txSeq := q } }
  match k with
  | .sync => ptpSend .followUp x s
  | .delayReq => modTime (fun t => { t with delayReq := some (n, s.now) }) s
  | .pdelayReq => modTime (fun t => { t with pdelayReq := some (n, s.now) }) s
  | _ => s

theorem ptpTxIntervalStep_sends {k : PtpKind} {b : Block} (h1 : ptpRuns (ptpBegun b) = true) (h2 : ptpSends (ptpBegun b) k = true) {u : Block}
    (hu : u = ptpTxStart k (ptpBegun b)) : ptpTxIntervalStep k b =
      ptpSentOut k (tget 0 u.time.txSeq (ptpKindNo k)) (tset 0 u.time.txSeq (ptpKindNo k) ((tget 0 u.time.txSeq (ptpKindNo k) + 1) % 2 ^ 16))
        (ptpMessage k (tget 0 u.time.txSeq (ptpKindNo k)) u) u := by
  subst hu
  refine (if_neg ?_).trans ?_
  · show ¬ (!(ptpRuns (ptpBegun b) && ptpSends (ptpBegun b) k)) = true
    simp [h1, h2]
  · cases k <;> rfl

/-- What sending a message changes of station time: its number, the messages sent and the request it notes. -/
theorem ptpSentOut_spec {k : PtpKind} {b : Block} (hs : ptpSends b k = true) (n : Nat) (q : Tab Nat) (x : PtpTx) (u : Block) :
    (ptpSentOut k n q x u).time.txSeq = q ∧ tget ({} : PtpTx) (ptpSentOut k n q x u).time.sent (ptpKindNo k) = x ∧
    (k = .sync → tget ({} : PtpTx) (ptpSentOut k n q x u).time.sent (ptpKindNo .followUp) = x) ∧
    (ptpSentOut k n q x u).time.delayReq = (if k = .delayReq then some (n, u.now) else u.time.delayReq) ∧
    (ptpSentOut k n q x u).time.pdelayReq = (if k = .pdelayReq then some (n, u.now) else u.time.pdelayReq) ∧
    { ptpSentOut k n q x u with time := { (ptpSentOut k n q x u).time with
      txSeq := u.time.txSeq, sent := u.time.sent, delayReq := u.time.delayReq, pdelayReq := u.time.pdelayReq } } = u := by
  obtain ⟨hq, hsent, hd, hp, hrest⟩ := ptpSend_spec k x { u with time := { u.time with txSeq := q } }
  have hx : tget ({} : PtpTx) (ptpSend k x { u with time := { u.time with txSeq := q } }).time.sent (ptpKindNo k) = x := by
    rw [hsent]; exact tget_tset_same _ _ _ _
  unfold ptpSentOut
  generalize ptpSend k x { u with time := { u.time with txSeq := q } } = v at hq hd hp hrest hx
  have hv : { v with time := { v.time with
      txSeq := u.time.txSeq, sent := u.time.sent, delayReq := u.time.delayReq, pdelayReq := u.time.pdelayReq } } = u := hrest _ _ _ _
  have hnow : v.now = u.now := (congrArg Block.now hv :)
  cases k with
  | sync =>
    obtain ⟨gq, gsent, gd, gp, grest⟩ := ptpSend_spec .followUp x v
    refine ⟨gq.trans hq, ?_, fun _ => ?_, gd.trans hd, gp.trans hp, (grest _ _ _ _).trans hv⟩
    · rw [gsent]; exact (tget_tset_ne _ _ _ (by decide)).trans hx
    · rw [gsent]; exact tget_tset_same _ _ _ _
  | delayReq => exact ⟨hq, hx, nofun, by rw [← hnow]; rfl, hp, hv⟩
  | pdelayReq => exact ⟨hq, hx, nofun, hd, by rw [← hnow]; rfl, hv⟩
  | announce => exact ⟨hq, hx, nofun, hd, hp, hv⟩
  | followUp => cases hs
  | delayResp => cases hs
  | pdelayResp => cases hs
  | pdelayRespFollowUp => cases hs

/-- The instant of a message: now for the first of its kind, else an interval after the last. -/
theorem ptpTxStart_at {k : PtpKind} {b : Block} (hs : ptpSends b k = true) {at_ : Nat} (h : tfind b.time.txAt (ptpKindNo k) = none ∧ at_ = b.now ∨
      ∃ t, tfind b.time.txAt (ptpKindNo k) = some t ∧ at_ = max b.now (t + pow2Sec (sext 8 (parN b (if k = .announce then 0xE009 else if k = .sync then 0xE008 else 0xE00B))))) :
    ptpTxStart k b = { b with now := at_, time := { b.time with txAt := tput (ptpKindNo k) at_ b.time.txAt } } := by
  unfold ptpTxStart
  rcases h with ⟨h, rfl⟩ | ⟨t, h, rfl⟩
  · rw [h]; rfl
  · rw [h]
    cases k with
    | announce => rfl
    | sync => rfl
    | delayReq => rfl
    | pdelayReq => rfl
    | followUp => cases hs
    | delayResp => cases hs
    | pdelayResp => cases hs
    | pdelayRespFollowUp => cases hs

/-- Settles O51: a lost master by where the clock can go, the decision by the better data set, and each command by its cases. -/
theorem announcesMastersAndIntervals : Obligations.announces_masters_and_intervals := by
  refine ⟨fun p t b => ⟨loseMaster_other t, fun h u hu => ?_⟩, fun b hm a ha => ⟨fun hk => ?_, fun hk => ?_⟩,
    fun t b => ⟨fun h => if_pos h, fun h d hd => ?_⟩, fun s hl => ⟨fun a => ⟨fun h => act_ended (i := .announce a) hl rfl (announceStep_ignored h), fun hr hp b hb u hu => ?_⟩,
      fun p hp => ⟨fun h => ?_, fun h0 hs hpa t ht => ⟨fun hm b hb => ?_, fun hm hu => ?_⟩⟩, fun p hp b hb => ?_, fun k b hb => ⟨fun h => ?_, fun h1 h2 at_ hat u hu n hn x hx => ?_⟩⟩⟩
  · have hu' : u = masterForgotten p b := hu
    subst hu'
    exact ⟨fun ⟨h1, h2, h3⟩ => loseMaster_moves t h h1 h2 h3, fun hn v hv => hv ▸ ⟨fun a hc => loseMaster_selects t h hn hc,
      fun hc d hd => loseMaster_none t h hn hc hd⟩⟩
  · exact ptpDecide_selects ((ptpChoice_auto hm ha).trans (if_pos hk))
  · exact ptpDecide_masters hm (by rw [ha]; rfl) ((ptpChoice_auto hm ha).trans (if_neg (ne_true_of_eq_false hk)))
  · have e : enterHoldover t b = _ := if_neg (ne_true_of_eq_false h)
    rw [hd, e]
    exact ⟨rfl, rfl, rfl, rfl, rfl, rfl, rfl, rfl, rfl, rfl⟩
  · subst hb
    refine ⟨fun h => act_ended (i := .announce a) hl rfl (announceStep_unused hr hp hu h), fun h1 h2 h3 x hx d hd => ?_⟩
    have hx' : x = announceEntry a u := hx
    have hd' : d = announceNoted a x u := hd
    refine act_ended (i := .announce a) hl rfl ((announceStep_notes hr hp hu h1 h2 h3).trans ?_)
    rw [← hx', ← hd']
    exact if_congr (ptpMoves_iff d a.port x) rfl rfl
  · exact act_ended (i := .announceTimeout p) hl (decide_eq_true hp) (announceTimeoutStep_ignored h)
  · subst ht hb
    exact act_ended (i := .announceTimeout p) hl (decide_eq_true hp) ((announceTimeoutStep_acts h0 hs hpa).trans (if_pos hm))
  · subst ht
    exact act_ended (i := .announceTimeout p) hl (decide_eq_true hp)
      ((announceTimeoutStep_acts h0 hs hpa).trans ((if_neg (ne_true_of_eq_false hm)).trans (if_pos hu)))
  · have hw : (Instr.ethLinkLoss p).wf = true := decide_eq_true hp
    have e := ethLinkLossStep_eq (b := s.toBlock) hp
    have hb' : b = linkLost p s.toBlock := hb
    rw [← hb'] at e
    refine ⟨fun hr => act_ended hl hw (e.trans (if_pos hr)), fun hr ⟨h1, h2, h3⟩ => ?_, fun hr h => ?_⟩
    · exact act_ended hl hw (e.trans ((if_neg (ne_true_of_eq_false hr)).trans (if_pos ⟨h1, h2, by rw [h3]; rfl⟩)))
    · refine act_ended hl hw (e.trans ((if_neg (ne_true_of_eq_false hr)).trans (if_neg ?_)))
      rintro ⟨g1, g2, g3⟩
      rcases h with h | h | h
      · exact ne_true_of_eq_false h g1
      · exact h g2
      · exact h (Option.isNone_iff_eq_none.1 g3)
  · subst hb; exact act_ended (i := .ptpTxInterval k) hl rfl (ptpTxIntervalStep_none h)
  · have hu' : u = ptpTxStart k b := hu.trans (ptpTxStart_at h2 hat).symm
    have hb' : b = ptpBegun s.toBlock := hb
    have htx : u.time.txSeq = b.time.txSeq := by rw [hu]
    have e := ptpTxIntervalStep_sends (hb' ▸ h1) (hb' ▸ h2) (hb' ▸ hu')
    have hmsg : ptpMessage k n u = x := by rw [hx, hu]; rfl
    rw [htx, ← hn, hmsg] at e
    obtain ⟨g1, g2, g3, g4, g5, g6⟩ := ptpSentOut_spec h2 n (tset 0 b.time.txSeq (ptpKindNo k) ((n + 1) % 2 ^ 16)) x u
    have hnow : u.now = at_ := by rw [hu]
    have hdr : u.time.delayReq = b.time.delayReq := by rw [hu]
    have hpr : u.time.pdelayReq = b.time.pdelayReq := by rw [hu]
    have hst : u.time.sent = b.time.sent := by rw [hu]
    rw [hnow, hdr] at g4
    rw [hnow, hpr] at g5
    rw [htx, hst, hdr, hpr] at g6
    exact ⟨_, act_ended (i := .ptpTxInterval k) hl rfl e, g1, g2, g3, g4, g5, g6⟩

end Sys2Proof.Machine
end

section
/-!
PROOFS. The twin link and its clock (R582 to R588).
-/

namespace Sys2Proof.Machine

/-! ### The state of the link (R582, R583, R585) -/

theorem setAbsent_absent {b : Block} (h : b.tw.partnerAbsent = true) : setAbsent b = b := if_pos h

theorem setAbsent_present {b : Block} (h : b.tw.partnerAbsent = false) :
    setAbsent b = raise evTwinPartner { b with tw := { b.tw with partnerAbsent := true } } := if_neg (ne_true_of_eq_false h)

theorem setRole_same {r : Role} {b : Block} (h : b.tw.role = r) : setRole r b = b := if_pos h

theorem setRole_new {r : Role} {b : Block} (h : b.tw.role ≠ r) :
    setRole r b = raise evTwinRole { b with tw := { b.tw with role := r } } := if_neg h

/-- What the relays do not touch: everything but the ports and the list of relays itself. -/
theorem setRelays_insensitive {α : Type} (p : Block → α) (hp : ∀ t po r, p { t with ports := po, tw := { t.tw with relays := r } } = p t)
    (l : List Nat) (b : Block) : p (setRelays l b) = p b := by
  unfold setRelays
  dsimp only
  split
  · exact hp b b.ports l
  · exact (kept_forEach p _ (fun q t => hp t _ t.tw.relays) _ _).trans (hp b b.ports l)

theorem setRelays_active (l : List Nat) {b : Block} (h : isActive b = true) : (setRelays l b).ports = b.ports := by
  have e : setRelays l b = modTw (fun t => { t with relays := l }) b := if_pos h
  rw [e]
  rfl

/-- The block at a new state of the link, the relays trimmed to its places. -/
def linkChanged (l : Nat) (b : Block) : Block := trimRelays (raise evTwinLink (modTw (fun t => { t with link := l }) b))

theorem setLink_same {l : Nat} {b : Block} (h : b.tw.link = l) : setLink l b = b := if_pos h

theorem setLink_down {b : Block} (h : b.tw.link ≠ 0) : setLink 0 b = setAbsent (linkChanged 0 b) := if_neg h

theorem setLink_up {l : Nat} {b : Block} (h : b.tw.link ≠ l) (hl : l ≠ 0) : setLink l b = linkChanged l b := by
  unfold setLink
  exact (if_neg h).trans (if_neg hl)

/-- R582, R585, R617: what a new state of the link leaves. -/
theorem linkChanged_spec (l : Nat) (b : Block) : (linkChanged l b).tw.link = l ∧ evTwinLink ∈ (linkChanged l b).ev.raised ∧
    (linkChanged l b).tw.partnerAbsent = b.tw.partnerAbsent ∧ (linkChanged l b).tw.role = b.tw.role ∧
    (isActive b = true → (linkChanged l b).ports = b.ports) := by
  have hr {α : Type} (p : Block → α) (hp : ∀ t po r, p { t with ports := po, tw := { t.tw with relays := r } } = p t) :=
    setRelays_insensitive p hp
  refine ⟨hr (fun t => t.tw.link) (fun _ _ _ => rfl) _ _, ?_, hr (fun t => t.tw.partnerAbsent) (fun _ _ _ => rfl) _ _,
    hr (fun t => t.tw.role) (fun _ _ _ => rfl) _ _, fun h => setRelays_active _ h⟩
  exact (hr (fun t => evTwinLink ∈ t.ev.raised) (fun _ _ _ => rfl) _ _).mpr (mem_raised_raise_self evTwinLink _)

theorem setAbsent_ports (b : Block) : (setAbsent b).ports = b.ports := by
  unfold setAbsent
  split <;> rfl

theorem linkUpdate_eq (b : Block) : linkUpdate b =
    setLink (if 800 < b.tw.dTw ∨ halfLocked b.tw.lanes = false then 0 else if b.tw.lanes = 0xFFFF ∧ b.tw.link = 2 then 2 else 1) b :=
  congrArg (setLink · b) (if_congr (by simp) rfl (if_congr (by simp) rfl rfl))

/-! ### Lanes, delay and return (R582, R583) -/

theorem twinOn_of_solo {b : Block} (h : b.tw.role = .solo) : twinOn b = false := decide_eq_false (not_not.2 h)

theorem twinOn_of_ne_solo {b : Block} (h : b.tw.role ≠ .solo) : twinOn b = true := decide_eq_true h

section
variable {b : Block}

theorem twinSteps_solo (h : b.tw.role = .solo) (lane rt : Nat) : twinLaneLossStep lane b = b ∧ twinLaneLockStep lane b = b ∧
    dTwStep rt b = b ∧ linkFullReturnStep b = b ∧ heartbeatMissingStep b = b := by
  have ht := twinOn_of_solo h
  refine ⟨if_pos (by simp [ht]), if_pos (by simp [ht]), if_pos (by simp [ht]), ?_, if_pos (by simp [ht])⟩
  unfold linkFullReturnStep
  split
  · exact if_neg (by simp [ht])
  · rfl

theorem twinLaneLossStep_eq {lane : Nat} (h : b.tw.role ≠ .solo) (hl : lane < 16) : twinLaneLossStep lane b =
    linkUpdate { b with tw := { b.tw with lanes := setBit b.tw.lanes lane false, allAt := none } } :=
  if_neg (by simp [twinOn_of_ne_solo h, hl])

theorem twinLaneLockStep_eq {lane l : Nat} (h : b.tw.role ≠ .solo) (hl : lane < 16) (e : l = setBit b.tw.lanes lane true) :
    twinLaneLockStep lane b = linkUpdate { b with tw := { b.tw with
      lanes := l, allAt := if l = 0xFFFF then b.tw.allAt <|> some b.now else b.tw.allAt } } := by
  subst e
  refine (if_neg (by simp [twinOn_of_ne_solo h, hl])).trans (congrArg linkUpdate ?_)
  by_cases hf : setBit b.tw.lanes lane true = 0xFFFF
  · rw [if_pos hf]; exact if_pos hf
  · rw [if_neg hf]; exact if_neg hf

theorem dTwStep_eq {rt : Nat} {l : List Nat} (h : b.tw.role ≠ .solo) (e : l = lastN 16 (b.tw.trips ++ [rt])) :
    dTwStep rt b = linkUpdate { b with tw := { b.tw with trips := l, dTw := divRne (sumNat l) (2 * l.length) } } :=
  e ▸ if_neg (by simp [twinOn_of_ne_solo h])

theorem linkFullReturnStep_returns {t : Nat} (h : b.tw.role ≠ .solo) (ht : b.tw.allAt = some t) (hl : b.tw.lanes = 0xFFFF)
    (hk : b.tw.link = 1) (hd : b.tw.dTw ≤ 800) : linkFullReturnStep b = setLink 2 (atTime (t + 100 * msU) b) := by
  unfold linkFullReturnStep
  rw [ht]
  exact if_pos (by simp [twinOn_of_ne_solo h, hl, hk, hd])

theorem linkFullReturnStep_none (h : b.tw.allAt = none ∨ b.tw.lanes ≠ 0xFFFF ∨ b.tw.link ≠ 1 ∨ 800 < b.tw.dTw) :
    linkFullReturnStep b = b := by
  unfold linkFullReturnStep
  split
  next t ht =>
    refine if_neg fun hc => ?_
    simp only [Bool.and_eq_true, decide_eq_true_eq] at hc
    obtain ⟨⟨⟨-, h1⟩, h2⟩, h3⟩ := hc
    rcases h with h | h | h | h
    · exact nomatch ht.symm.trans h
    · exact h h1
    · exact h h2
    · exact Nat.not_le.2 h h3
  next => rfl

/-! ### A missing heartbeat and the wait for a partner (R576, R585) -/

theorem heartbeatMissingStep_eq {d : Block} (h : b.tw.role ≠ .solo) (hw : b.tw.role ≠ .wait) (hr : b.tw.hbRx = false)
    (e : d = modTw (fun t => { t with hbMiss := satInc 16 t.hbMiss, missRun := t.missRun + 1, hbRx := true })
      (atTime (b.cyc.t0 + b.tw.dTw + 2000) b)) :
    heartbeatMissingStep b = if 2 ≤ d.tw.missRun then setAbsent d else d :=
  e ▸ if_neg (by simp [twinOn_of_ne_solo h, hw, hr])

theorem heartbeatMissingStep_none (h : b.tw.role = .wait ∨ b.tw.hbRx = true) : heartbeatMissingStep b = b :=
  if_pos (by rcases h with h | h <;> simp [h])

/-! ### Time words (R587, R588) -/

/-- The roles that follow the partner's clock. -/
def followsTimeWords (r : Role) : Prop := r = .wait ∨ r = .sync ∨ r = .standby ∨ r = .offline

variable {frc idx : Nat} {err : Int}

theorem timeWordStep_ignored (h : b.tw.role = .solo ∨ b.tw.role = .active ∨ b.tw.link = 0) : timeWordStep frc idx err b = b :=
  if_pos (by rcases h with h | h | h <;> simp [h])

theorem timeWord_guard (hr : followsTimeWords b.tw.role) (hl : b.tw.link ≠ 0) :
    ¬ (!(b.tw.role = .wait || b.tw.role = .sync || b.tw.role = .standby || b.tw.role = .offline) || decide (b.tw.link = 0)) = true := by
  rcases hr with h | h | h | h <;> simp [h, hl]

/-- The first time word loads the FRC and moves the instants that hang on it. -/
def timeLoaded (idx : Nat) (d : Int) (b : Block) : Block :=
  shiftFrc d (modTw (fun t => { t with loaded := true, adopt := some idx, sinceTrim := 0 })
    { b with cyc := { b.cyc with t0 := ((b.cyc.t0 : Int) + d).toNat } })

theorem timeWordStep_loads (hr : followsTimeWords b.tw.role) (hl : b.tw.link ≠ 0) (h : b.tw.loaded = false) :
    timeWordStep frc idx err b = timeLoaded idx ((frc + b.tw.dTw : Nat) - (b.now : Int)) b :=
  (if_neg (timeWord_guard hr hl)).trans (if_pos (by simp [h]))

theorem timeWordStep_trims (hr : followsTimeWords b.tw.role) (hl : b.tw.link ≠ 0) (h : b.tw.loaded = true) {trim : Bool} {d : Int} {run : Nat}
    (ht : trim = decide (187 < err.natAbs ∧ 8 ≤ b.tw.sinceTrim + 1)) (hd : d = if trim = false then 0 else if 0 < err then -1 else 1)
    (hn : run = if err.natAbs ≤ 400 then min 16 (b.tw.lockRun + 1) else 0) :
    timeWordStep frc idx err b = syncDone (shiftFrc d { b with tw := { b.tw with
      frcErr := err + 250 * d, sinceTrim := if trim = true then 0 else min 8 (b.tw.sinceTrim + 1), lockRun := run,
      frcLock := decide (16 ≤ run), adopt := b.tw.adopt.map fun _ => idx } }) := by
  subst hn
  rw [Bool.decide_and] at ht
  have hd' : d = if (!trim) = true then 0 else if 0 < err then -1 else 1 := hd.trans (if_congr (by simp) rfl rfl)
  subst hd'
  subst ht
  exact (if_neg (timeWord_guard hr hl)).trans (if_neg (by simp [h]))

end

/-- Settles O53: what a new state of the link, an absent partner and a new role do; then each twin event goes through the
equation of its step, by role and by whether the clock was loaded. -/
theorem theTwinLinkAndItsClock : Obligations.the_twin_link_and_its_clock := by
  unfold Obligations.the_twin_link_and_its_clock
  refine ⟨fun l b => ⟨setLink_same, fun h d hd => ?_⟩, linkUpdate_eq, fun b => ⟨setAbsent_absent, setAbsent_present⟩,
    fun r b => ⟨setRole_same, setRole_new⟩, fun s hl => ⟨?_, fun hs => ⟨?_, ?_, ?_, ?_, ?_, ?_⟩, ?_, ?_, fun frc idx err => ⟨?_, fun hr hk => ⟨?_, ?_⟩⟩⟩⟩
  · subst hd
    obtain ⟨h1, h2, h3, h4, h5⟩ := linkChanged_spec l b
    have hf : { setLink l b with tw := b.tw, ev := b.ev, ports := b.ports } = b :=
      setLink_reads (fun t => { t with tw := b.tw, ev := b.ev, ports := b.ports }) (fun _ _ _ _ => rfl) l b
    by_cases hz : l = 0
    · subst hz
      obtain ⟨g1, g2, g3, g4, -⟩ := setAbsent_spec (linkChanged 0 b)
      rw [setLink_down h] at hf ⊢
      exact ⟨g1.trans h1, g4 _ h2, fun _ => g2, fun hn => absurd rfl hn, g3.trans h4, fun ha => (setAbsent_ports _).trans (h5 ha), hf⟩
    · rw [setLink_up h hz] at hf ⊢
      exact ⟨h1, h2, fun hn => absurd hn hz, fun _ => h3, h4, h5, hf⟩
  · intro hs lane hlane rt hrt c hc
    obtain ⟨e1, e2, e3, e4, e5⟩ := twinSteps_solo (b := s.toBlock) hs lane rt
    simp only [List.mem_cons, List.not_mem_nil, or_false] at hc
    obtain rfl | rfl | rfl | rfl | rfl := hc
    · exact act_ended (i := .twinLaneLoss lane) hl (decide_eq_true hlane) e1
    · exact act_ended (i := .twinLaneLock lane) hl (decide_eq_true hlane) e2
    · exact act_ended (i := .dTw rt) hl (decide_eq_true hrt) e3
    · exact act_ended (i := .linkFullReturn) hl rfl e4
    · exact act_ended (i := .heartbeatMissing) hl rfl e5
  · exact fun lane hlane => ⟨act_ended (i := .twinLaneLoss lane) hl (decide_eq_true hlane) (twinLaneLossStep_eq hs hlane),
      fun l e => act_ended (i := .twinLaneLock lane) hl (decide_eq_true hlane) (twinLaneLockStep_eq hs hlane e)⟩
  · exact fun rt hrt l e => act_ended (i := .dTw rt) hl (decide_eq_true hrt) (dTwStep_eq hs e)
  · exact fun t h1 h2 h3 h4 => act_ended hl rfl (linkFullReturnStep_returns hs h1 h2 h3 h4)
  · exact fun h => act_ended hl rfl (linkFullReturnStep_none h)
  · intro hw hr b hb d hd
    subst hb
    exact act_ended hl rfl (heartbeatMissingStep_eq hs hw hr hd)
  · exact fun h => act_ended hl rfl (heartbeatMissingStep_none h)
  · exact fun h => act_ended hl rfl (if_pos h)
  · exact fun h => act_ended hl rfl (if_neg h)
  · exact fun h => act_ended (i := .timeWord frc idx err) hl rfl (timeWordStep_ignored h)
  · intro h d hd
    subst hd
    refine ⟨_, act_ended (i := .timeWord frc idx err) hl rfl (timeWordStep_loads hr hk h), ?_, rfl, rfl, rfl, rfl, rfl, rfl⟩
    show ((s.now : Int) + ((frc + s.tw.dTw : Nat) - (s.now : Int))).toNat = frc + s.tw.dTw
    omega
  · exact fun h trim d run ht hd hn => act_ended (i := .timeWord frc idx err) hl rfl (timeWordStep_trims hr hk h ht hd hn)

end Sys2Proof.Machine
end

section
/-!
PROOFS. The roles of the twin pair, its heartbeats, images and background records (R584 to R609, R619).
-/

namespace Sys2Proof.Machine

/-! ### Heartbeats (R578, R579, R584, R585, R598) -/

/-- The twin state once the declaration of heartbeat word w is taken (R600). -/
def hbDeclared (w : Nat) (b : Block) : TwinSt :=
  { b.tw with declRx := if bitAt w 20 = true then b.tw.declRx <|> some (bits w 21 3, b.now) else b.tw.declRx }

/-- The block once a heartbeat on time is read; `same` says that the partner holds this unit's configuration. -/
def hbRead (w : Nat) (same : Bool) (u : TwinSt) (b : Block) : Block := { b with tw := { u with
  hbRx := true, missRun := 0, partnerAbsent := false,
  partnerRole := bits w 16 3, cfgMatch := same && (isActive b || b.tw.cfgMatch), partnerRevert := bitAt w 24,
  grantRx := b.tw.grantRx || bitAt w 25, sent2 := if bitAt w 26 = true then [] else b.tw.sent2,
  declRx := if bitAt w 20 = true then u.declRx else none } }

/-- What a unit of role `own` makes of a heartbeat of the partner's role that it has read. -/
def hbActs (own : Role) (role : Nat) (same : Bool) (b : Block) : Block :=
  match own with
  | .wait => leaveWait role b
  | .active => if role = 2 then modTw (fun t => { t with yieldDue := yields b }) b else b
  | .offline => if b.tw.offCause = 2 ∧ role = 2 then enterSync (modTw (fun t => { t with offCause := 0 }) b) else b
  | .standby => if !same then enterSync b else b
  | .sync => if !same then modTw (fun t => { t with bgDone := 0 }) b else syncDone b
  | .solo => b

/-- The heartbeat counts as on time (log entry 13). -/
def hbOnTime (w : Nat) (b : Block) : Bool :=
  decide (b.tw.role = .wait ∨ (b.tw.loaded = false ∧ b.tw.role = .sync) ∨ bits w 16 3 = 1 ∨ bits w 16 3 = 3 ∨
    (bits w 0 16 = b.cyc.index % 2 ^ 16 ∧ b.now ≤ b.cyc.t0 + b.tw.dTw + 2000))

/-- The heartbeat is one of twin operation and undamaged (R584). -/
def hbHeard (l : List W8) (b : Block) : Prop :=
  b.tw.role ≠ .solo ∧ b.tw.link ≠ 0 ∧ l.length = 10 ∧ crc16 0 (l.take 8) = leAt l 8 2

section
variable {b : Block} {l : List W8}

theorem heartbeatRxStep_unheard (h : b.tw.role = .solo ∨ b.tw.link = 0 ∨ l.length ≠ 10 ∨ crc16 0 (l.take 8) ≠ leAt l 8 2) :
    heartbeatRxStep l b = b :=
  if_pos (by rcases h with h | h | h | h <;> simp [h, twinOn])

theorem hbHeard_guard (h : hbHeard l b) :
    ¬ (!twinOn b || decide (b.tw.link = 0) || decide (l.length ≠ 10) || decide (crc16 0 (l.take 8) ≠ leAt l 8 2)) = true := by
  obtain ⟨h1, h2, h3, h4⟩ := h
  simp [twinOn_of_ne_solo h1, h2, h3, h4]

/-- R579: a partner of the same letter. -/
theorem heartbeatRxStep_conflict (h : hbHeard l b) (hu : bitAt (leAt l 0 4) 19 = b.tw.unitB) {u : Block}
    (e : u = { b with tw := { b.tw with idConflict := true } }) :
    heartbeatRxStep l b = if b.tw.role = .active then u else setRole .offline { u with tw := { u.tw with offCause := 3 } } := by
  subst e
  exact (if_neg (hbHeard_guard h)).trans (if_pos hu)

/-- R584, R600: a heartbeat of the partner has its declaration taken, and, on time, is read and acted upon. -/
theorem heartbeatRxStep_partner (h : hbHeard l b) (hu : bitAt (leAt l 0 4) 19 ≠ b.tw.unitB) {same : Bool}
    (hs : same = (b.host.setInForce.isSome && leAt l 4 4 = b.host.cfgId)) :
    heartbeatRxStep l b = if hbOnTime (leAt l 0 4) b = false then { b with tw := hbDeclared (leAt l 0 4) b }
      else hbActs b.tw.role (bits (leAt l 0 4) 16 3) same (hbRead (leAt l 0 4) same (hbDeclared (leAt l 0 4) b) b) := by
  subst hs
  unfold heartbeatRxStep
  extract_lets w role onTime s1 s2
  have hon : onTime = hbOnTime w b := by
    simp only [onTime, hbOnTime, role, Bool.decide_or, Bool.decide_and, Bool.or_assoc]
    cases b.tw.loaded <;> rfl
  have h2 : s2 = { b with tw := hbDeclared w b } := by
    unfold s2 hbDeclared
    split <;> rfl
  clear_value s2 onTime
  subst h2 hon
  refine (if_neg (hbHeard_guard h)).trans ((if_neg hu).trans ?_)
  exact if_congr (Iff.of_eq (Bool.not_eq_true' _)) rfl rfl

theorem hbActs_standby (role : Nat) (same : Bool) : hbActs .standby role same b = if same = true then b else enterSync b := by
  cases same <;> rfl

theorem hbActs_sync (role : Nat) (same : Bool) :
    hbActs .sync role same b = if same = true then syncDone b else { b with tw := { b.tw with bgDone := 0 } } := by
  cases same <;> rfl

end

/-! ### Images (R592, R596, R604) -/

/-- The unit takes the image (R592, R604). -/
def imageTakes (i : Image) (b : Block) : Bool :=
  b.tw.role = .sync || b.tw.role = .standby || (b.tw.role = .active && b.tw.waitImage && i.handover)

theorem imageTakes_eq (i : Image) (b : Block) : imageTakes i b =
    decide (b.tw.role = .sync ∨ b.tw.role = .standby ∨ (b.tw.role = .active ∧ b.tw.waitImage = true ∧ i.handover = true)) := by
  simp [imageTakes, Bool.or_assoc, Bool.and_assoc]

section
variable {i : Image} {bad : Bool} {b : Block}

theorem imageRxStep_left (h : imageTakes i b = false) : imageRxStep i bad b =
    if b.tw.role = .active then { b with tw := { b.tw with peerConv := some i.seq.state } } else b := by
  by_cases ha : b.tw.role = .active
  · rw [if_pos ha]; exact if_pos ⟨ha, congrArg not h⟩
  · rw [if_neg ha]; exact (if_neg fun hc => ha hc.1).trans (if_pos (congrArg not h))

/-- An image that is taken passes the two ways out of the roles. -/
theorem imageRxStep_taken (h : imageTakes i b = true) : imageRxStep i bad b =
    if bad = true then raise evTwinImgErr { b with tw := { b.tw with imgErr := satInc 16 b.tw.imgErr, imgOk := false } }
    else if i.cfgCrc ≠ b.host.cfgId then { b with tw := { b.tw with imgOk := true } }
    else if (applyImage i b).tw.role = .active then
      quietFrames { applyImage i b with
        tw := { (applyImage i b).tw with waitImage := false }, cyc := { (applyImage i b).cyc with setpoints := i.setpoints } }
    else applyImage i b := by
  have hn : ¬ (!imageTakes i b) = true := by simp [h]
  exact (if_neg fun hc => hn hc.2).trans (if_neg hn)

theorem handoverImageDeadlineStep_none (h : b.tw.role ≠ .active ∨ b.tw.waitImage = false) : handoverImageDeadlineStep b = b :=
  if_neg (by rcases h with h | h <;> simp [h])

end

/-! ### Background records (R597, R598, R668) -/

section
variable {b : Block}

theorem backgroundRecordStep_ignored (h : b.tw.role ≠ .sync) (r : BgRecord) : backgroundRecordStep r b = b := by
  by_cases hm : b.host.mpRestarting = true
  · exact (if_pos hm).trans (if_neg h)
  · refine (if_neg hm).trans ?_
    unfold bgApply
    exact if_pos h

theorem backgroundRecordStep_held (h : b.tw.role = .sync) (hm : b.host.mpRestarting = true) (r : BgRecord) :
    backgroundRecordStep r b = { b with tw := { b.tw with bgHold := b.tw.bgHold ++ [r] } } := (if_pos hm).trans (if_pos h)

@[simp] theorem loopOf_modLoop_same (l : Nat) (f : LoopSt → LoopSt) (b : Block) : loopOf (modLoop l f b) l = f (loopOf b l) :=
  tget_tmod_same _ _ _ _

theorem loopOf_modLoop_ne {l j : Nat} (f : LoopSt → LoopSt) (b : Block) (h : j ≠ l) : loopOf (modLoop l f b) j = loopOf b j :=
  tget_tmod_ne _ _ _ h

/-- What a background record does to the unit that takes it. -/
def bgTaken (r : BgRecord) (b : Block) : Block :=
  match r with
  | .config c t => modTw (fun x => { x with bgSet := some (c, t) }) b
  | .cell g st t => modCell g (fun c => if c.st = .none then c else { c with st := st, tent := t }) b
  | .loop l x => modLoop l (fun _ => x) b
  | .rpc r x => modRpc r (fun _ => x) b
  | .ramp c x v q => modRamp c (fun y => { y with x := x, v := v, queue := q }) b
  | .done k => if k = 1 then b else bgMark k b

theorem backgroundRecordStep_taken (h : b.tw.role = .sync) (hm : b.host.mpRestarting = false) (r : BgRecord) :
    backgroundRecordStep r b = bgTaken r b := by
  refine (if_neg (ne_true_of_eq_false hm)).trans ?_
  unfold bgApply
  exact if_neg (not_not.2 h)

theorem bgTaken_done_none {k : Nat} (h : k < 2 ∨ 5 < k) : bgTaken (.done k) b = b := by
  by_cases h1 : k = 1
  · exact if_pos h1
  · exact (if_neg h1).trans (if_neg (by omega))

theorem bgTaken_done_mark {k : Nat} (h2 : 2 ≤ k) (h5 : k ≤ 5) :
    bgTaken (.done k) b = syncDone { b with tw := { b.tw with bgDone := setBit b.tw.bgDone (k - 1) true } } :=
  (if_neg (Nat.ne_of_gt h2)).trans (if_pos ⟨Nat.le_of_succ_le h2, h5⟩)

/-! ### Split, revert and clear (R602, R607, R609, R619) -/

theorem splitStep_leaves {n : Nat} (hn : b.tw.splitCnt = some n) (ha : b.tw.role = .active) (h2 : 2 ≤ n) (hr : b.tw.sawReport = false)
    (hp : b.ports.any (fun p => p.2.lock) = true) {u : Block}
    (e : u = portsMonitor (atTime (if n = 2 then b.cyc.t0 + tcU b else b.now) b)) :
    splitStep b = raise evTwinSplit (setRole .offline { u with tw := { u.tw with offCause := 2, splitCnt := none, guard := false } }) := by
  subst e
  unfold splitStep
  rw [hn]
  exact if_pos ⟨ha, h2, congrArg not hr, hp⟩

theorem splitStep_none (h : b.tw.splitCnt = none ∨ b.tw.role ≠ .active ∨ (∀ n, b.tw.splitCnt = some n → n < 2) ∨ b.tw.sawReport = true ∨
    b.ports.any (fun p => p.2.lock) = false) : splitStep b = b := by
  unfold splitStep
  split
  next n hn =>
    refine if_neg fun ⟨ha, h2, hr, hp⟩ => ?_
    rcases h with h | h | h | h | h
    · exact nomatch hn.symm.trans h
    · exact h ha
    · exact Nat.not_lt.2 h2 (h n hn)
    · simp [h] at hr
    · exact ne_true_of_eq_false h hp
  next => rfl

theorem revertHoldoffStep_requests {t : Nat} (ht : b.tw.revertFrom = some t) (hc : revertConds b = true) {u : Block}
    (e : u = atTime (t + parDur b 0xC001 sU) b) : revertHoldoffStep b = { u with tw := { u.tw with revertReq := true } } := by
  subst e
  unfold revertHoldoffStep
  rw [ht]
  exact if_pos hc

theorem revertHoldoffStep_none (h : b.tw.revertFrom = none ∨ revertConds b = false) : revertHoldoffStep b = b := by
  unfold revertHoldoffStep
  split
  next t ht =>
    rcases h with h | h
    · exact nomatch ht.symm.trans h
    · exact if_neg (ne_true_of_eq_false h)
  next => rfl

theorem txdisGuardStep_eq (b : Block) :
    txdisGuardStep b = { b with tw := { b.tw with guard := b.tw.guard || decide (b.tw.role = .active) } } := by
  by_cases h : b.tw.role = .active
  · rw [decide_eq_true h, Bool.or_true]
    exact if_pos h
  · rw [decide_eq_false h, Bool.or_false]
    exact if_neg h

theorem twinClearStep_clears (h : b.tw.role = .offline) (h1 : b.tw.offCause = 1) (hc : causeExists b = false) :
    twinClearStep b = enterSync { b with tw := { b.tw with offCause := 0 } } := if_pos ⟨h, h1, congrArg not hc⟩

theorem twinClearStep_none (h : b.tw.role ≠ .offline ∨ b.tw.offCause ≠ 1 ∨ causeExists b = true) : twinClearStep b = b :=
  if_neg (by rcases h with h | h | h <;> simp [h])

end

/-- Settles O54: each twin event by the equation of its step; a heartbeat that is read goes on by the unit's role. -/
theorem theTwinRolesAndImages : Obligations.the_twin_roles_and_images := by
  unfold Obligations.the_twin_roles_and_images
  intro s hl
  refine ⟨fun l w hw role hrole => ⟨fun h => ?_, fun h1 h2 h3 h4 => ⟨fun hu b hb => ?_, fun hu on hon u hu' => ?_⟩⟩, fun i bad takes ht => ?_,
    fun h r => act_ended (i := .backgroundRecord r) hl rfl (backgroundRecordStep_ignored h r),
    fun h hm r => act_ended (i := .backgroundRecord r) hl rfl (backgroundRecordStep_held h hm r), fun h hm => ?_, ?_,
    fun h => act_ended hl rfl (handoverImageDeadlineStep_none h), fun n hn ha h2 hr hp b hb => act_ended hl rfl (splitStep_leaves hn ha h2 hr hp hb),
    fun h => act_ended hl rfl (splitStep_none h), fun t ht hc b hb => act_ended hl rfl (revertHoldoffStep_requests ht hc hb),
    fun h => act_ended hl rfl (revertHoldoffStep_none h), act_ended hl rfl (txdisGuardStep_eq s.toBlock),
    fun h h1 hc => act_ended hl rfl (twinClearStep_clears h h1 hc), fun h => act_ended hl rfl (twinClearStep_none h)⟩
  · exact act_ended (i := .heartbeatRx l) hl rfl (heartbeatRxStep_unheard h)
  · subst hw
    have e := heartbeatRxStep_conflict (b := s.toBlock) (l := l) ⟨h1, h2, h3, h4⟩ hu hb
    exact ⟨fun ha => act_ended (i := .heartbeatRx l) hl rfl (e.trans (if_pos ha)),
      fun ha => act_ended (i := .heartbeatRx l) hl rfl (e.trans (if_neg ha))⟩
  · subst hw hrole
    have hon' : on = hbOnTime (leAt l 0 4) s.toBlock := hon
    have hu'' : u = hbDeclared (leAt l 0 4) s.toBlock := hu'
    have e {same : Bool} (hs : same = (s.host.setInForce.isSome && leAt l 4 4 = s.host.cfgId)) :=
      heartbeatRxStep_partner (b := s.toBlock) ⟨h1, h2, h3, h4⟩ hu hs
    rw [← hon', ← hu''] at e
    refine ⟨fun ho => act_ended (i := .heartbeatRx l) hl rfl ((e rfl).trans (if_pos ho)), fun ho same hs b hb => ?_⟩
    have hb' : b = hbRead (leAt l 0 4) same u s.toBlock := by
      rw [hb, hu'']
      rfl
    have hB : b.tw.unitB = s.tw.unitB := by rw [hb', hu'']; rfl
    have ho' : s.tw.offCause = b.tw.offCause := by rw [hb', hu'']; rfl
    have e' := (e hs).trans (if_neg fun hf => Bool.noConfusion (hf.symm.trans ho))
    rw [← hb'] at e'
    have go {r : Role} (h : s.tw.role = r) {x : Block} (hx : hbActs r (bits (leAt l 0 4) 16 3) same b = x) :
        exec (.heartbeatRx l) s = .next (ended s x) := act_ended (i := .heartbeatRx l) hl rfl (e'.trans (h ▸ hx))
    refine ⟨fun h => ⟨fun hc => go h (if_pos (hB ▸ hc)), fun hc hb0 => go h (if_neg ?_)⟩, fun h => go h rfl, fun h => ?_,
      fun h => go h (hbActs_standby _ _), fun h => go h (hbActs_sync _ _)⟩
    · rw [hB, hb0]
      simp [hc]
    · rw [ho']
      exact go h rfl
  · have ht' := ht.trans (imageTakes_eq i s.toBlock).symm
    subst ht'
    have go {x : Block} (e : imageRxStep i bad s.toBlock = x) : exec (.imageRx i bad) s = .next (ended s x) :=
      act_ended (i := .imageRx i bad) hl rfl e
    refine ⟨fun h => go (imageRxStep_left h), fun h hb => go ((imageRxStep_taken h).trans (if_pos hb)),
      fun h hb hc => go ((imageRxStep_taken h).trans ((if_neg (ne_true_of_eq_false hb)).trans (if_pos hc))), fun h hb hc b e => ?_⟩
    have e' := (imageRxStep_taken h).trans ((if_neg (ne_true_of_eq_false hb)).trans (if_neg (not_not.2 hc)))
    rw [← e] at e'
    exact ⟨by rw [e]; rfl, by rw [e]; rfl, go e'⟩
  · have go (r : BgRecord) {x : Block} (e : bgTaken r s.toBlock = x) : exec (.backgroundRecord r) s = .next (ended s x) :=
      act_ended (i := .backgroundRecord r) hl rfl ((backgroundRecordStep_taken h hm r).trans e)
    refine ⟨fun c t => go _ rfl, fun g st t => ⟨_, go _ rfl, cell_modCell_same _ _ _, fun j hj => cell_modCell_ne _ _ hj, rfl⟩,
      fun l x => ⟨_, go _ rfl, loopOf_modLoop_same _ _ _, fun k hk => loopOf_modLoop_ne _ _ hk, rfl⟩,
      fun r x => ⟨_, go _ rfl, rpc_modRpc_same _ _ _, fun k hk => rpc_modRpc_ne _ _ hk, rfl⟩,
      fun c x v q => ⟨_, go _ rfl, ramp_modRamp_same _ _ _, fun k hk => ramp_modRamp_ne _ _ hk, rfl⟩,
      fun k => ⟨fun hk => go _ (bgTaken_done_none hk), fun h2 h5 => go _ (bgTaken_done_mark h2 h5)⟩⟩
  · intro ha hw b hb
    subst hb
    exact act_ended hl rfl (if_pos ⟨ha, hw⟩)

end Sys2Proof.Machine
end

section
/-!
PROOFS. Relay records and what the partner says of its ports (R613 to R616).
-/

namespace Sys2Proof.Machine

/-! ### Relay records (R614, R616) -/

section
variable {b : Block} {l : List W8}

theorem relayRecordRxStep_keeps (ha : isActive b = false) (hk : bitAt (leAt l 0 8) 7 = false) (hl : 16 ≤ l.length) :
    relayRecordRxStep l b = { b with tw := { b.tw with
      relayFrames := b.tw.relayFrames ++ [(bits (leAt l 0 8) 0 7, bits (leAt l 0 8) 8 30, relayRestore l)] } } :=
  if_neg (by simp [ha, hk, hl])

theorem relayRecordRxStep_ignored (h : isActive b = true ∨ bitAt (leAt l 0 8) 7 = true ∨ l.length < 16) : relayRecordRxStep l b = b :=
  if_pos (by rcases h with h | h | h <;> simp [h])

/-- The block at the launch of a relayed frame, its record removed. -/
def relayDue (f : Nat × Nat × List W8) (b : Block) : Block :=
  modTw (fun t => { t with relayFrames := t.relayFrames.erase f }) (atTime (launchInstant b.now f.2.1) b)

theorem relayLaunchStep_sends {p q lt : Nat} (h : b.tw.relayFrames.find? (fun x => x.1 = p) = some (q, lt, l)) :
    relayLaunchStep p b = modPort p (fun x => { x with lastTx := l, freeAt := (relayDue (q, lt, l) b).now + 10 * l.length })
      (relayDue (q, lt, l) b) := by
  unfold relayLaunchStep
  rw [h]
  rfl

theorem relayLaunchStep_none {p : Nat} (h : b.tw.relayFrames.find? (fun x => x.1 = p) = none) : relayLaunchStep p b = b := by
  unfold relayLaunchStep
  rw [h]

theorem sideReply_none {g : Nat} (h : (port b (g / 48)).svc.find? (fun r => r.cell = g && r.sent) = none) (st : Nat) (d : W32) :
    sideReply g st d b = b := by
  unfold sideReply
  rw [h]

theorem sideReply_some {g : Nat} {r : SvcReq} (h : (port b (g / 48)).svc.find? (fun r => r.cell = g && r.sent) = some r) (st : Nat)
    (d : W32) : sideReply g st d b = svcReply (g / 48) r st d b := by
  unfold sideReply
  rw [h]

theorem relayReply_none {g : Nat} (h : b.tw.svcOut.find? (fun r => r.cell = g) = none) (st : Nat) (d : W32) : relayReply g st d b = b := by
  unfold relayReply
  rw [h]

theorem relayReply_some {g : Nat} {r : SvcReq} (h : b.tw.svcOut.find? (fun r => r.cell = g) = some r) (st : Nat) (d : W32) :
    relayReply g st d b = mbxDone r.mbx (if st = 0 then 0 else 0x17) st g (if st = 0 then leBytes 4 d.toNat else [])
      { b with tw := { b.tw with svcOut := b.tw.svcOut.erase r } } := by
  unfold relayReply
  rw [h]
  rfl

/-- What a unit that is not active does with a relayed reply, and an active one after the report. -/
theorem relayReportRxStep_standby (ha : isActive b = false) :
    relayReportRxStep l none b = b ∧ ∀ g st d, relayReportRxStep l (some (g, st, d)) b = sideReply g st d b :=
  have hn : (!isActive b) = true := congrArg not ha
  ⟨if_pos hn, fun _ _ _ => if_pos hn⟩

/-- The block once the report of a relay record is processed (R616). -/
def relayReported (l : List W8) (b : Block) : Block :=
  let p := bits (leAt l 0 8) 0 7
  if bitAt (leAt l 0 8) 7 && b.tw.relays.contains p then reportCore p (farCell b p) (l.drop 8) (noteReport b) else b

theorem relayReported_eq (l : List W8) (b : Block) : relayReported l b =
    if bitAt (leAt l 0 8) 7 = true ∧ bits (leAt l 0 8) 0 7 ∈ b.tw.relays then
      reportCore (bits (leAt l 0 8) 0 7) (farCell b (bits (leAt l 0 8) 0 7)) (l.drop 8) (noteReport b) else b :=
  if_congr (by simp) rfl rfl

theorem relayReportRxStep_active (ha : isActive b = true) : relayReportRxStep l none b = relayReported l b ∧
    ∀ g st d, relayReportRxStep l (some (g, st, d)) b = relayReply g st d (relayReported l b) :=
  have hn : ¬ (!isActive b) = true := by simp [ha]
  ⟨if_neg hn, fun _ _ _ => if_neg hn⟩

end

/-! ### The partner's ports (R111, R116, R615) -/

section
variable {p : Nat} {lk br : Bool} {d : Nat} {b t : Block}

/-- The conditions of `peerStatus`, in its order: the port, the break, the rejoin. -/
theorem peerStatus_eq (ht : t = { b with tw := { b.tw with peer := tset {} b.tw.peer p { lock := lk, brk := br, dFar := d } } }) :
    peerStatus p lk br d b = if ¬ (portUsed b p = true ∧ portTopo b p = 2) then t
      else if br = true ∧ (peerPort b p).brk = false ∧ (port b p).brk = false ∧ ((port b p).st = .serve ∨ (port b p).st = .monitor) then ringBreaks p t
      else if isActive b = false ∧ (peerPort b p).brk = true ∧ br = false ∧ (port b p).brk = true ∧ (port b p).lock = true ∧ lk = true then
        ringRejoin p t
      else t := by
  subst ht
  have h1 : (!(portUsed b p && decide (portTopo b p = 2))) = true ↔ ¬ (portUsed b p = true ∧ portTopo b p = 2) := by
    rw [Bool.not_eq_true', ← Bool.not_eq_true, Bool.and_eq_true, decide_eq_true_eq]
  have h2 : (br && !(peerPort b p).brk && !(port b p).brk && (decide ((port b p).st = .serve) || decide ((port b p).st = .monitor))) = true ↔
      br = true ∧ (peerPort b p).brk = false ∧ (port b p).brk = false ∧ ((port b p).st = .serve ∨ (port b p).st = .monitor) := by
    simp [and_assoc]
  have h3 : (!isActive b && (peerPort b p).brk && !br && (port b p).brk && (port b p).lock && lk) = true ↔
      isActive b = false ∧ (peerPort b p).brk = true ∧ br = false ∧ (port b p).brk = true ∧ (port b p).lock = true ∧ lk = true := by
    simp [and_assoc]
  exact if_congr h1 rfl (if_congr h2 rfl (if_congr h3 rfl rfl))

end

/-- Settles O55: each relay command by the equation of its step; the partner's ports by the three conditions of `peerStatus`, of which
a break and a rejoin exclude each other. -/
theorem relayRecordsAndThePeer : Obligations.relay_records_and_the_peer := by
  unfold Obligations.relay_records_and_the_peer
  intro s hl
  refine ⟨fun l w hw => ?_, fun p hp => ⟨fun q lt l h => ?_, fun h => ?_⟩, fun l reply => ⟨fun ha => ?_, fun ha p hp b hb => ?_⟩,
    fun l => ⟨fun h => ?_, fun h => ?_⟩, fun p lk br d b was hwas t ht breaks rejoins hbr hrj => ?_⟩
  · subst hw
    exact ⟨fun h1 h2 h3 => act_ended (i := .relayRecordRx l) hl rfl (relayRecordRxStep_keeps h1 h2 h3),
      fun h => act_ended (i := .relayRecordRx l) hl rfl (relayRecordRxStep_ignored h)⟩
  · exact ⟨_, act_ended (i := .relayLaunch p) hl (decide_eq_true hp) (relayLaunchStep_sends h), rfl, rfl, port_modPort_same _ _ _,
      fun j hj => port_modPort_ne _ _ hj, rfl⟩
  · exact act_ended (i := .relayLaunch p) hl (decide_eq_true hp) (relayLaunchStep_none h)
  · obtain ⟨e, e'⟩ := relayReportRxStep_standby (b := s.toBlock) (l := l) ha
    refine ⟨fun h => ?_, fun g st d h => ⟨fun hf => ?_, fun r hf => ?_⟩⟩ <;> subst h
    · exact act_ended (i := .relayReportRx l none) hl rfl e
    · exact act_ended (i := .relayReportRx l _) hl rfl ((e' g st d).trans (sideReply_none hf st d))
    · exact act_ended (i := .relayReportRx l _) hl rfl ((e' g st d).trans (sideReply_some hf st d))
  · obtain ⟨e, e'⟩ := relayReportRxStep_active (b := s.toBlock) (l := l) ha
    have hb' : relayReported l s.toBlock = b := by rw [relayReported_eq, hb, hp]
    rw [hb'] at e
    simp only [hb'] at e'
    refine ⟨fun h => ?_, fun g st d h => ⟨fun hf => ?_, fun r hf => ?_⟩⟩ <;> subst h
    · exact act_ended (i := .relayReportRx l none) hl rfl e
    · exact act_ended (i := .relayReportRx l _) hl rfl ((e' g st d).trans (relayReply_none hf st d))
    · exact act_ended (i := .relayReportRx l _) hl rfl ((e' g st d).trans (relayReply_some hf st d))
  · exact act_ended (i := .relayPortStatus l) hl rfl (if_pos (by rw [twinOn_of_solo h]; rfl))
  · exact act_ended (i := .relayPortStatus l) hl rfl (if_neg (by rw [twinOn_of_ne_solo h]; decide))
  · subst hwas
    have e := peerStatus_eq ht
    refine ⟨fun h => e.trans ?_, fun hu h2 h => e.trans ((if_neg (not_not.2 ⟨hu, h2⟩)).trans (if_pos (hbr.1 h))), fun hu h2 h => e.trans
      ((if_neg (not_not.2 ⟨hu, h2⟩)).trans ((if_neg fun hb => ?_).trans (if_pos (hrj.1 h))))⟩
    · by_cases hp : portUsed b p = true ∧ portTopo b p = 2
      · have hn : ¬ breaks ∧ ¬ rejoins := by
          rcases h with h | h | h
          · exact absurd hp.1 (ne_true_of_eq_false h)
          · exact absurd hp.2 h
          · exact h
        exact (if_neg (not_not.2 hp)).trans ((if_neg fun hc => hn.1 (hbr.2 hc)).trans (if_neg fun hc => hn.2 (hrj.2 hc)))
      · exact if_pos hp
    · obtain ⟨-, -, hf, -⟩ := hrj.1 h
      exact ne_true_of_eq_false hf hb.1

end Sys2Proof.Machine
end
